-- ==== Sys2Proof/Word.lean ====
section
/-! DEFINITION. The word types of the CTM-512: bytes, 32-bit register words, 64-bit postmark words, 72-bit
accumulators and the 36-bit tagged words of the engines (4-bit tag over 32 data bits, R196). -/

namespace Sys2Proof

/-- A byte of a frame or of a byte-addressed memory. -/
abbrev Byte := BitVec 8

/-- A register or envelope word. -/
abbrev Word := BitVec 32

/-- A 64-bit postmark or 64-bit register pair. -/
abbrev Word64 := BitVec 64

/-- An accumulator of an engine thread. -/
abbrev Acc := BitVec 72

/-- A tagged word: bits [35:32] the tag, bits [31:0] the data (R196, R234). -/
structure TWord where
  /-- The tag code (R198): 0 INT, 1 FRAC, 2 FRAC2, 3 TIME, 4 HANDLE, 5 ADDR, 6 KEYREF, 7 BITS, 15 POISON. -/
  tag : BitVec 4
  data : Word
deriving DecidableEq, Repr, Inhabited

/-- The word INT 0: what a word of engine memory never written since ENTRY reads as (R235). -/
def TWord.zero : TWord := ⟨0, 0⟩

end Sys2Proof
end

