-- ==== Sys2Proof/Types.lean ====
section
/-! DEFINITION. The kinds of data that commands carry and State holds: envelopes, alarm records, hatch entries and
the rest. Plain data only. -/

namespace Sys2Proof

/-- A sparse table keyed by a number: pairs with strictly rising keys, no value equal to what an unlisted key reads as. -/
abbrev NMap (α : Type) := List (Nat × α)

/-- The description of one register of the map (R566 to R569): its first BAR0 offset, the (stride, count) of each of
its indexes, its reset value, the masks of its rw, w1c, wo and readable bits, whether a row of the command table of
its own governs its writes, whether it is an event counter, and the ranges (hi, lo, least, greatest) of its rw fields. -/
structure RegDesc where
  name : String
  base : Nat
  dims : List (Nat × Nat)
  reset : Nat
  rw : Nat
  w1c : Nat
  wo : Nat
  rd : Nat
  own : Bool
  cnt : Bool
  ranges : List (Nat × Nat × Nat × Nat)
deriving DecidableEq, Repr, Inhabited

/-- An envelope: sixteen 32-bit words (R39). -/
abbrev Env := List Word

/-- An alarm record (R548): postmark, severity, summary and forwarded marks, module, island, instance, code, sequence
number and arguments. -/
structure Alarm where
  pm : Nat
  sev : Nat
  sum : Bool
  fwd : Bool
  modn : Nat
  island : Nat
  inst : Nat
  code : Nat
  seq : Nat
  a0 : Nat
  a1 : Nat
  a2 : Nat
  a3 : Nat
deriving DecidableEq, Repr, Inhabited

/-- A helper command as queued by HCMD (R242): issuing thread, tag, the pointer and the command word, whether a T-thread issued it, and the TABLE_EPOCH of the envelope it was
issued for, if its thread held one (R68). -/
structure HelpCmd where
  thread : Nat
  tag : Nat
  ptr : Nat
  word : Nat
  timed : Bool
  epoch : Option Nat := none
deriving DecidableEq, Repr, Inhabited

/-- A helper completion (R251): thread, tag, status, result words. -/
structure HelpDone where
  thread : Nat
  tag : Nat
  status : Nat
  res : List Word
deriving DecidableEq, Repr, Inhabited

/-- A request to the DRAM controller (R371, R373): requester port, the island answered (0xFF none, 0xFE a host function, whose number is the reference), the requester's own reference, the helper thread and
tag a write belongs to (0xFFFF none), write mark, line number (module address ÷ 64), offset in the line and bytes written, and
whether a written word is POISON (R249). -/
structure DramReq where
  port : Nat
  src : Nat
  ref : Nat
  thread : Nat
  tag : Nat
  wr : Bool
  line : Nat
  ofs : Nat
  data : List Byte
  poison : Bool
deriving DecidableEq, Repr, Inhabited

/-- A node dispatch travelling to a bench (R299): graph, node, thread, postmark, LIMIT_AT, count. -/
structure NodeDisp where
  graph : Nat
  node : Nat
  thread : Nat
  pm : Nat
  limitAt : Nat
  count : Nat
deriving DecidableEq, Repr, Inhabited

/-- A node completion travelling to the Dispatcher (R301): graph, node, thread, OUTMASK, and how it ended: 0 released,
1 faulted; and the slots it counted. -/
structure NodeFin where
  graph : Nat
  node : Nat
  thread : Nat
  outmask : Nat
  how : Nat
  pm : Nat
  slots : Nat
deriving DecidableEq, Repr, Inhabited

/-- What travels through KEY_REQ and KEY_RSP (R261, R264, R268): the master, the operation (0 KACQ, 1 KTRY, 2 KREL, 3 a withdrawal, 4 a ring of doorbell `key` of thread
`master`, 5 the withdrawal of a thread that has been reset), the key, and the number of the master's wait. -/
structure KeyReq where
  master : Nat
  op : Nat
  key : Nat
  no : Nat
deriving DecidableEq, Repr, Inhabited

/-- The status of a key operation on its way to its master (R267): the wait it answers, the key, the status. -/
structure KeyRsp where
  master : Nat
  key : Nat
  no : Nat
  status : Nat
deriving DecidableEq, Repr, Inhabited

/-- A metered tick report (R396): island, energy in nJ, demand occupancy. -/
structure MeterRep where
  island : Nat
  energy : Nat
  demand : Nat
deriving DecidableEq, Repr, Inhabited

/-- What a hatch entry carries (the entry column of the table of hatch kinds): a flit or cell names the frame it belongs to by its first cell, a register access
its master, offset and word, a correction word the master time at a marked edge, the increment per local cycle and the local cycle of that edge;
`badAccess` and `errored` are what a double-bit error leaves of an access and of any entry but an envelope (R25). -/
inductive Payload where
  | env (e : Env) (head : List Byte)
  | data (frame : Nat) (b : List Byte)
  | helpCmd (c : HelpCmd)
  | helpDone (d : HelpDone)
  | token (t : List TWord)
  | dispatch (d : NodeDisp)
  | nodeDone (n : NodeFin)
  | dramReq (r : DramReq)
  | dramRsp (ref status : Nat) (data : List Byte)
  | access (m : Nat) (wr : Bool) (ofs : Nat) (val : Word)
  | meter (m : MeterRep)
  | alarm (a : Alarm)
  | time (t inc mark : Nat)
  | keyReq (k : KeyReq)
  | keyRsp (k : KeyRsp)
  | badAccess (m : Nat)
  | errored
deriving DecidableEq, Repr, Inhabited

/-- An entry of a hatch: its payload, the order domain (envelopes) or thread (helper commands) it belongs to (R23),
and whether it may use express credit (R22). -/
structure HEntry where
  pay : Payload
  flow : Nat
  xpr : Bool
deriving DecidableEq, Repr, Inhabited

/-- How a frame's reception ended, as the PCS and MAC see it: with its last byte, by an error control character, or by
a fragment sequence that breaks the reassembly rules (R89). -/
inductive RxEnd where
  | last
  | errorChar
  | badFragments
deriving DecidableEq, Repr, Inhabited

/-- An accumulator as a thread holds it: its 72-bit value and its poison bit (R197). -/
structure AccV where
  v : Acc
  poison : Bool
deriving DecidableEq, Repr, Inhabited

/-- When a syllable issues: the master identity of its thread (R148), the time that passes first, and what the memory errors
it meets come to: 0 none, 1 a single-bit error corrected and counted, 2 an uncorrectable error in the data word it loads (R164). -/
structure Issue where
  th : Nat
  dt : Nat
  ecc : Nat
deriving DecidableEq, Repr, Inhabited

/-- A syllable (R188): its address, unit code, opcode, the fields DST, SRC1 and [11:0], and the value of the IMM syllable that extends it. -/
structure Syl where
  pc : Nat
  unit : Nat
  op : Nat
  dst : Nat
  s1 : Nat
  low : Nat
  imm : Option Nat
deriving DecidableEq, Repr, Inhabited

end Sys2Proof
end

