-- ==== Sys2Proof/Syntax.lean ====
section
/-! DEFINITION. The commands of the block: one constructor for each row of the table of operations and events
(spec/opcode_table.json), with its operands. What an operand means is said in the docstring of the command's meaning
and of the operand types in Sys2Proof/Types.lean. -/

namespace Sys2Proof

/-- The commands: writes and reads of the block's registers, the steps its units take, and the events on its pins. -/
inductive Instr where
  /-- HATCH_SEND (R17). A hatch producer sends an entry while it holds a credit; METER, ALARM and TIME producers without credit merge instead of waiting. -/
  | hatchSend (h ix : Nat) (offer : Option HEntry)
  /-- HATCH_ENTRY_ARRIVE (R19). A sent entry becomes visible to the consumer, and its SEC-DED ECC is checked. -/
  | hatchEntryArrive (h : Nat) (xpr : Bool) (ecc : Nat)
  /-- HATCH_REMOVE (R18). The consumer takes an entry out of the hatch FIFO and counts it as removed. -/
  | hatchRemove (h : Nat)
  /-- HATCH_CREDIT_RETURN (R18). The removed count reaches the producer and frees credits. -/
  | hatchCreditReturn (h : Nat)
  /-- SNAP (R27). A write of HALL_HATCH_SEL with SNAP starts a snapshot of the named hatch. -/
  | hatchSnap (m : Nat) (val : Word)
  /-- HATCH_SNAPSHOT_DONE (R27). The snapshot is captured and DONE is set, with NOHATCH for a hatch that does not exist. -/
  | hatchSnapshotDone (dt : Nat)
  /-- REGISTER_WRITE (R571). A write to a register that has no row of its own applies its fields or is refused as a whole. -/
  | registerWrite (m ofs : Nat) (val : Word) (be : Nat)
  /-- EPOCH_AT_WRITE (R38). A write of HALL_EPOCH_AT_HI latches the full 64-bit epoch postmark. -/
  | epochAtWrite (m : Nat) (val : Word)
  /-- SCHEDULE (R34). SCHEDULE accepts or rejects an epoch commit at the latched postmark. -/
  | epochSchedule (m : Nat) (val : Word)
  /-- CANCEL (R36). CANCEL ends a PENDING commit, and is refused in any other state. -/
  | epochCancel (m : Nat) (val : Word)
  /-- EPOCH_ARM (R35). At 100 µs before the epoch postmark the Hall arms the commit, or aborts it when a Room or the seal is not ready. -/
  | epochArm (dt : Nat) (late : List Nat)
  /-- EPOCH_COMMIT (R31). At the epoch postmark the active and staging copies exchange and NOW_NUM advances. -/
  | epochCommit (dt : Nat)
  /-- EPOCH_RELEASE (R32). The old copy is released once every earlier-postmarked frame has done its lookups, no sooner than 5 µs after the epoch. -/
  | epochRelease (dt : Nat)
  /-- STAGE_READY (R37). The staging copies are rebuilt from the new active copy, STAGE_READY is set and STATE returns to IDLE. -/
  | stageReady (dt : Nat)
  /-- FRAME_START (R113). The first flit of a frame arrives, and the frame's class is decided and its admission to the ingress envelope store judged. -/
  | frameStart (port dt : Nat) (first : List Byte) (cell skipped : Nat)
  /-- ENVELOPE_FORM_CT (R47). A cut-through envelope is formed when HEAD_VALID reaches the head length. -/
  | envelopeFormCt (port dt : Nat) (more : List Byte)
  /-- FRAME_RX_END (R46). A received frame ends: runts, oversize and MAC control frames are discarded, and a store-and-forward envelope is formed or an errored frame is discarded. -/
  | frameRxEnd (port dt : Nat) (rest : List Byte) (how : RxEnd) (frags : Nat)
  /-- ENVELOPE_ENTER_ENV_A (R52). An envelope is sent into ENV_A in order of its domain, with the next SEQ written. -/
  | envelopeEnterEnvA (sl ix : Nat)
  /-- STALL_LIMIT (R84). A stall reaches its limit, ending the ingress frame errored and aborting or cancelling its egress copies. -/
  | stallLimit (port dt stalled : Nat)
  /-- EGRESS_UNDERRUN (R82). An egress MAC finds the next bytes absent and closes the frame with an inverted FCS. -/
  | egressUnderrun (port dt : Nat)
  /-- LINK_DOWN (R77). A port's link goes down; a frame in transmission is closed and later frames are discarded at line rate. -/
  | linkDown (port dt cause : Nat)
  /-- LINK_UP (R88). A port's link comes up, and preemption verification starts from INITIAL. -/
  | linkUp (port dt : Nat)
  /-- PREEMPT_VERIFY (R88). The VERIFY_MS timer expires and a verification attempt is made, or FAILED is reported after 3. -/
  | preemptVerify (port dt : Nat)
  /-- REFCLK_LOSS (R610). A port group's REFCLK leaves its limits for 10 µs and REFCLK_OK falls. -/
  | refclkLoss (g : Nat)
  /-- LANE_CFG_WRITE (R72). A write of PORT_LANE_CFG sets mode, FEC and enable, or is refused; clearing EN takes the ports down. -/
  | laneCfgWrite (m lane : Nat) (val : Word)
  /-- XPOL_CFG_WRITE (R365). A write of PORT_XPOL_CFG configures the express meter and refills its buckets when EN is written 1. -/
  | xpolCfgWrite (m port : Nat) (val : Word)
  /-- DISTRIBUTE (R53). The distributor hands an envelope to a free thread of the right pool and tenancy, or passes a void to the gate. -/
  | distribute (stn dt : Nat)
  /-- GATE_SEND (R55). A reorder gate sends an envelope on once it is released and every earlier one of its domain or pigeonhole is sent. -/
  | gateSend (stn ix dt : Nat)
  /-- GATE_TIMEOUT (R57). A thread holds an envelope beyond TIMEOUT and the gate voids it with cause GATE_TIMEOUT. -/
  | gateTimeout (stn ix dt : Nat)
  /-- CELL_WRITE (R321). A cell of a landing frame is written through CELL_W from its pool, or refused and the frame ended errored. -/
  | cellWrite (frame cell : Nat) (more : List Byte)
  /-- DEPOT_ENV_ARRIVE (R45). An envelope arrives at the Depot and meets the entry checks, the SEQ check and admission. -/
  | depotEnvArrive (sl : Nat)
  /-- MATCHING (R329). Each cell time the scheduler computes a matching and carries out the moves of the previous one. -/
  | matching (dt : Nat)
  /-- PH_RELEASE (R334). An egress slice releases an envelope from a pigeonhole into ENV_C under its port's scheduler. -/
  | phRelease (port dt : Nat)
  /-- INT_PH_DELIVER (R326). An internal pigeonhole delivers a record into its ring and rings the consumer's doorbell. -/
  | intPhDeliver (ix dt : Nat)
  /-- GATE_INTERVAL_END (R341). A gate list interval expires and the next entry's gates take effect. -/
  | gateIntervalEnd (port dt : Nat)
  /-- GCL_SWAP (R342). SWAP schedules the staging gate list to become active. -/
  | gclSwap (m : Nat) (val : Word)
  /-- GCL_SWAP_APPLY (R342). The staging gate list becomes active at its first cycle start at least 100 µs after the write. -/
  | gclSwapApply (port dt : Nat)
  /-- MC_WRITE (R327). DEPOT_MC_SEL with WR replaces a multicast group entry in one Depot cycle. -/
  | mcWrite (m : Nat) (val : Word)
  /-- MC_READ (R327). DEPOT_MC_SEL with RD loads a multicast group entry into the data registers. -/
  | mcRead (m : Nat) (val : Word)
  /-- EDITOR_SEND (R348). The Editor takes an envelope from ENV_E, reads its cells, applies edits and sends it toward the MAC, or returns a void's cells. -/
  | editorSend (sl ecc pos : Nat)
  /-- MAC_TX (R95). The egress MAC sends a frame, taking an egress postmark when PTP_EVT is set. -/
  | macTx (port dt frags : Nat)
  /-- TSQ_POP (R98). A read of PORT_TSQ_W0 removes the oldest egress postmark into W0 to W3. -/
  | tsqPop (m port : Nat)
  /-- TIME_CORRECTION (R107). Every 1.024 µs the TIME block sends each island a correction word. -/
  | timeCorrection (dt : Nat)
  /-- TIME_SOURCE_LOCK (R104). A time source locks, stepping module time on the first lock or slewing afterwards. -/
  | timeSourceLock (sec : Bool) (dt : Nat) (off : Int)
  /-- TIME_SOURCE_LOSS (R103). The time source in use is lost, and the module moves to the secondary or to holdover. -/
  | timeSourceLoss (sec : Bool) (dt : Nat)
  /-- TIME_STEP (R105). A write of TIME_STEP steps module time, refused while an epoch is pending or armed. -/
  | timeStep (m : Nat) (val : Word)
  /-- TIME_TOD_ARM (R109). A write of TIME_TOD_SEC_HI arms the seconds value for the next TIME_IN edge. -/
  | timeTodArm (m : Nat) (val : Word)
  /-- TIME_IN_EDGE (R109). A TIME_IN rising edge is captured, ignored as a glitch or off time, or used to lock. -/
  | timeInEdge (dt width : Nat)
  /-- TIME_IN_LOSS (R111). No valid TIME_IN edge arrives within 1 s plus 10 µs, and TIME_IN is lost. -/
  | timeInLoss (dt : Nat)
  /-- TIME_OUT_EDGE (R112). TIME_OUT rises at a second boundary plus the offset and falls after WIDTH. -/
  | timeOutEdge (dt : Nat)
  /-- INSERT (R139). DIR_CMD INSERT adds an entry to a Directory table. -/
  | dirInsert (m sl : Nat) (val : Word)
  /-- DELETE (R139). DIR_CMD DELETE removes an entry from a Directory table. -/
  | dirDelete (m sl : Nat) (val : Word)
  /-- LOOKUP (R139). DIR_CMD LOOKUP returns the result word for a key. -/
  | dirLookupCmd (m sl : Nat) (val : Word)
  /-- INVALIDATE (R139). DIR_CMD INVALIDATE drops an extension bucket from the hot caches. -/
  | dirInvalidate (m sl : Nat) (val : Word)
  /-- WRITE_IDX (R139). DIR_CMD WRITE_IDX writes an indexed entry of VLAN, TERN or a root map. -/
  | dirWriteIdx (m sl : Nat) (val : Word)
  /-- READ_IDX (R139). DIR_CMD READ_IDX reads an indexed entry. -/
  | dirReadIdx (m sl : Nat) (val : Word)
  /-- FLUSH (R139). DIR_CMD FLUSH deletes the learned entries of a tenancy, optionally of one port. -/
  | dirFlush (m sl : Nat) (val : Word)
  /-- DIR_CMD_DONE (R140). A Directory command finishes and sets DONE, or ALL_DONE for BCAST. -/
  | dirCmdDone (sl dt : Nat)
  /-- LEARN_INSERT (R128). The insertion unit performs a queued insertion or host command, refreshing, moving, adding or failing. -/
  | learnInsert (sl : Nat)
  /-- BUILD (R134). DIR_REHASH BUILD starts building a shadow table under NEW_SEED. -/
  | dirBuild (m sl code : Nat) (val : Word)
  /-- BUILD_DONE (R134). The shadow build completes, setting BUILT or FAILED. -/
  | buildDone (sl code dt : Nat)
  /-- AGE_SWEEP (R130). The aging sweep visits learned entries and removes those older than the limit. -/
  | ageSweep (sl dt : Nat)
  /-- EXT_FILL (R142). A DRAM fill of an extension bucket returns and completes its waiting lookups. -/
  | extFill (sl no dt : Nat) (bad : Bool)
  /-- EXT_FILL_TIMEOUT (R142). A fill exceeds 20 µs and its lookups complete as misses. -/
  | extFillTimeout (sl no dt : Nat)
  /-- HOTCACHE_SWEEP (R144). The 1 ms sweep drops hot-cache lines at their second sweep. -/
  | hotcacheSweep (sl dt : Nat)
  /-- RESULT_LAND (R153). A result issued earlier lands in its register at its latency distance. -/
  | resultLand (m dt : Nat)
  /-- STORE_DRAIN (R161). A store buffer entry reaches memory and is freed. -/
  | storeDrain (e dt : Nat)
  /-- NOP (R206). A no-operation syllable of any unit does nothing. -/
  | nop (ix : Issue)
  /-- ADD (R206). Adds modulo 2^32. -/
  | add (ix : Issue)
  /-- ADDS (R206). Adds with signed saturation. -/
  | adds (ix : Issue)
  /-- SUB (R206). Subtracts modulo 2^32. -/
  | sub (ix : Issue)
  /-- SUBS (R206). Subtracts with saturation. -/
  | subs (ix : Issue)
  /-- NEG (R206). Negates modulo 2^32. -/
  | neg (ix : Issue)
  /-- NEGS (R206). Negates with saturation. -/
  | negs (ix : Issue)
  /-- ABS (R206). Absolute value modulo 2^32. -/
  | abs (ix : Issue)
  /-- ABSS (R206). Absolute value with saturation. -/
  | abss (ix : Issue)
  /-- MIN (R206). Signed minimum. -/
  | minOp (ix : Issue)
  /-- MAX (R206). Signed maximum. -/
  | maxOp (ix : Issue)
  /-- MINU (R206). Unsigned minimum. -/
  | minu (ix : Issue)
  /-- MAXU (R206). Unsigned maximum. -/
  | maxu (ix : Issue)
  /-- AND (R206). Bitwise AND. -/
  | andOp (ix : Issue)
  /-- OR (R206). Bitwise OR. -/
  | orOp (ix : Issue)
  /-- XOR (R206). Bitwise XOR. -/
  | xorOp (ix : Issue)
  /-- ANDN (R206). AND with the complement of the second operand. -/
  | andn (ix : Issue)
  /-- CLZ (R206). Counts leading zeros. -/
  | clz (ix : Issue)
  /-- POPC (R206). Counts set bits. -/
  | popc (ix : Issue)
  /-- BSWAP (R206). Reverses byte order. -/
  | bswap (ix : Issue)
  /-- SHL (R229). Logical shift left. -/
  | shl (ix : Issue)
  /-- SHR (R229). Logical shift right. -/
  | shr (ix : Issue)
  /-- SAR (R229). Arithmetic shift right. -/
  | sar (ix : Issue)
  /-- ROR (R229). Rotate right. -/
  | ror (ix : Issue)
  /-- CEQ (R206). Compares for equality. -/
  | ceq (ix : Issue)
  /-- CNE (R206). Compares for inequality. -/
  | cne (ix : Issue)
  /-- CLT (R206). Signed less than. -/
  | clt (ix : Issue)
  /-- CLE (R206). Signed less than or equal. -/
  | cle (ix : Issue)
  /-- CLTU (R206). Unsigned less than. -/
  | cltu (ix : Issue)
  /-- CLEU (R206). Unsigned less than or equal. -/
  | cleu (ix : Issue)
  /-- FADD (R228). Clamped Q1.31 sum. -/
  | fadd (ix : Issue)
  /-- FSUB (R228). Clamped Q1.31 difference. -/
  | fsub (ix : Issue)
  /-- FNEG (R228). Clamped fraction negation. -/
  | fneg (ix : Issue)
  /-- FABS (R228). Clamped fraction magnitude. -/
  | fabs (ix : Issue)
  /-- FADD2 (R228). Lane-wise clamped Q1.15 sum. -/
  | fadd2 (ix : Issue)
  /-- FSUB2 (R228). Lane-wise clamped Q1.15 difference. -/
  | fsub2 (ix : Issue)
  /-- TADD (R232). Adds signed ns to a TIME value modulo 4 s. -/
  | tadd (ix : Issue)
  /-- TSUB (R232). Gives the signed ns between two TIME values. -/
  | tsub (ix : Issue)
  /-- MOV (R206). Copies a register with its tag. -/
  | mov (ix : Issue)
  /-- MOVI (R207). Writes an immediate with the syllable's tag. -/
  | movi (ix : Issue)
  /-- TAG (R206). Returns the tag code of a register. -/
  | tagOp (ix : Issue)
  /-- SETTAG (R206). Gives a register's data a new tag. -/
  | settag (ix : Issue)
  /-- MTBK (R207). Writes a bank register. -/
  | mtbk (ix : Issue)
  /-- MFBK (R206). Reads a bank register. -/
  | mfbk (ix : Issue)
  /-- RDF (R203). Reads the flag word. -/
  | rdf (ix : Issue)
  /-- CLRF (R202). Clears selected flags. -/
  | clrf (ix : Issue)
  /-- MUL (R209). Low 32 bits of the signed product. -/
  | mul (ix : Issue)
  /-- MULHI (R209). High 32 bits of the signed product. -/
  | mulhi (ix : Issue)
  /-- MULHU (R209). High 32 bits of the unsigned product. -/
  | mulhu (ix : Issue)
  /-- FMUL (R231). Rounded, clamped Q1.31 product. -/
  | fmul (ix : Issue)
  /-- FMUL2 (R231). Lane-wise rounded Q1.15 products. -/
  | fmul2 (ix : Issue)
  /-- MAC (R230). Adds a signed product to an accumulator. -/
  | mac (ix : Issue)
  /-- MSU (R230). Subtracts a signed product from an accumulator. -/
  | msu (ix : Issue)
  /-- FMAC (R230). Adds a fraction product to an accumulator, clamped. -/
  | fmac (ix : Issue)
  /-- FMSU (R230). Subtracts a fraction product from an accumulator, clamped. -/
  | fmsu (ix : Issue)
  /-- FMAC2 (R230). Adds both Q1.15 lane products to an accumulator. -/
  | fmac2 (ix : Issue)
  /-- CLRA (R211). Clears an accumulator and its poison bit. -/
  | clra (ix : Issue)
  /-- MOVA (R230). Moves a register into an accumulator, aligned by tag. -/
  | mova (ix : Issue)
  /-- ASL (R229). Accumulator shift left. -/
  | asl (ix : Issue)
  /-- ASR (R229). Accumulator arithmetic shift right. -/
  | asr (ix : Issue)
  /-- ALSR (R229). Accumulator logical shift right. -/
  | alsr (ix : Issue)
  /-- ACCI (R231). Rounded, clamped integer writeback of an accumulator. -/
  | acci (ix : Issue)
  /-- ACCF (R231). Rounded, clamped Q1.31 writeback of an accumulator. -/
  | accf (ix : Issue)
  /-- DIV (R227). Signed division with quotient and remainder on the divide-and-root unit. -/
  | div (ix : Issue)
  /-- DIVU (R227). Unsigned division. -/
  | divu (ix : Issue)
  /-- FDIV (R227). Q1.31 division. -/
  | fdiv (ix : Issue)
  /-- SQRT (R228). Square root of a fraction. -/
  | sqrt (ix : Issue)
  /-- LD (R215). Loads a word with its tag. -/
  | ld (ix : Issue)
  /-- LDH (R215). Loads a halfword sign-extended. -/
  | ldh (ix : Issue)
  /-- LDHU (R215). Loads a halfword zero-extended. -/
  | ldhu (ix : Issue)
  /-- LDB (R215). Loads a byte sign-extended. -/
  | ldb (ix : Issue)
  /-- LDBU (R215). Loads a byte zero-extended. -/
  | ldbu (ix : Issue)
  /-- ST (R215). Stores a word with its tag. -/
  | st (ix : Issue)
  /-- STH (R215). Stores a halfword. -/
  | sth (ix : Issue)
  /-- STB (R215). Stores a byte. -/
  | stb (ix : Issue)
  /-- REL (R218). Releases the envelope to the gate, or ends a dispatched node. -/
  | rel (ix : Issue)
  /-- HCMD (R242). Queues a helper command under a helper tag. -/
  | hcmd (ix : Issue)
  /-- KACQ (R265). Acquires a key, queueing and waiting if it is held. -/
  | kacq (ix : Issue)
  /-- KTRY (R265). Acquires a key if it is free, never waiting. -/
  | ktry (ix : Issue)
  /-- KREL (R265). Releases a key, passing it to the first waiter. -/
  | krel (ix : Issue)
  /-- RING (R260). Rings a doorbell of a target thread. -/
  | ring (ix : Issue)
  /-- DOORBELL_RING_ARRIVE (R261). A ring sets the target's doorbell latch and wakes a thread waiting on it. -/
  | doorbellRingArrive (target b dt : Nat)
  /-- BR (R220). Branches to the target. -/
  | br (ix : Issue)
  /-- BZ (R220). Branches if the register is zero. -/
  | bz (ix : Issue)
  /-- BNZ (R220). Branches if the register is not zero. -/
  | bnz (ix : Issue)
  /-- BLTZ (R220). Branches if bit 31 is set. -/
  | bltz (ix : Issue)
  /-- BGEZ (R220). Branches if bit 31 is clear. -/
  | bgez (ix : Issue)
  /-- JMP (R220). Branches to a register target. -/
  | jmp (ix : Issue)
  /-- CALL (R220). Writes the link register and branches. -/
  | call (ix : Issue)
  /-- CALLR (R220). Calls a register target. -/
  | callr (ix : Issue)
  /-- RET (R220). Branches to g31. -/
  | ret (ix : Issue)
  /-- LOOP (R223). Sets up a counted loop context. -/
  | loopOp (ix : Issue)
  /-- WAIT (R168). Waits on the doorbells of its mask. -/
  | waitOp (ix : Issue)
  /-- FENCE (R163). Completes the visibility of earlier stores over 12 slots. -/
  | fence (ix : Issue)
  /-- RETI (R172). Returns from an interrupt, restoring flags and setting IE. -/
  | reti (ix : Issue)
  /-- TRAP (R222). Faults the thread with cause TRAP. -/
  | trapOp (ix : Issue)
  /-- INTERRUPT_ENTRY (R171). A thread takes a pending, enabled interrupt at a bundle boundary. -/
  | interruptEntry (m dt : Nat)
  /-- TIMER (R171). TIME_LO reaches TIMER_CMP and the TIMER cause becomes pending. -/
  | timerDue (m dt : Nat)
  /-- SWAP (R151). STN_ENG_CTL SWAP validates the shadow slot table and schedules the swap, or refuses it. -/
  | slotSwap (m e : Nat) (val : Word)
  /-- SLOT_SWAP_APPLY (R151). The shadow table becomes active at the first cycle 0 mod 16 at least 4 cycles after the write. -/
  | slotSwapApply (e dt : Nat)
  /-- COPY (R151). STN_ENG_CTL COPY copies the active slot table into the shadow. -/
  | slotCopy (m e : Nat) (val : Word)
  /-- RETIRE (R184). STN_ENG_CTL RETIRE declares the engine failed. -/
  | engRetire (m e : Nat) (val : Word)
  /-- ENGINE_FAIL (R184). An engine fails: it is parked, its threads faulted, envelopes voided, keys freed and commands voided, and the module enters REDUCED. -/
  | engineFail (e dt cause : Nat)
  /-- TAKEOVER_RESUME (R186). The taken-over threads are resumed and ACTIVE, COVERING and COVERED are set. -/
  | takeoverResume (stn dt : Nat)
  /-- HALT (R178). STN_THR_CTL HALT stops a thread at the next bundle boundary. -/
  | thrHalt (m th : Nat) (val : Word)
  /-- RESUME (R177). STN_THR_CTL RESUME makes a HALTED thread READY. -/
  | thrResume (m th : Nat) (val : Word)
  /-- RESET (R178). STN_THR_CTL RESET clears a thread's registers, frees its keys and voids its helper commands. -/
  | thrReset (m th : Nat) (val : Word)
  /-- SOFT_INT (R171). STN_THR_CTL SOFT_INT sets IPEND bit 2. -/
  | softInt (m th : Nat) (val : Word)
  /-- THR_CFG_WRITE (R183). A write of STN_THR_CFG configures a thread, refused in the listed cases. -/
  | thrCfgWrite (m th : Nat) (val : Word)
  /-- STANDBY_WRITE (R185). A write of STN_STANDBY designates a standby engine, refused in the listed cases. -/
  | standbyWrite (m stn : Nat) (val : Word)
  /-- HELP_CMD_TAKE (R255). A helper takes a command into a free waiting place of its function unit. -/
  | helpCmdTake (h dt : Nat)
  /-- SETRING (R243). Sets the thread's completion ring base. -/
  | setring (ix : Issue)
  /-- HELPER_NOP (R246). Completes at once without a unit. -/
  | helperNop (h dt : Nat)
  /-- GCM_ENC (R246). Encrypts with AES-GCM and writes the tag. -/
  | gcmEnc (h dt : Nat)
  /-- GCM_DEC (R246). Decrypts with AES-GCM if the tag matches. -/
  | gcmDec (h dt : Nat)
  /-- GMAC (R246). Computes a GMAC tag. -/
  | gmac (h dt : Nat)
  /-- GMAC_CHK (R246). Checks a GMAC tag. -/
  | gmacChk (h dt : Nat)
  /-- HMAC (R246). Computes an HMAC. -/
  | hmac (h dt : Nat)
  /-- HMAC_CHK (R246). Checks an HMAC. -/
  | hmacChk (h dt : Nat)
  /-- SHA256 (R246). Computes a SHA-256 digest. -/
  | sha256 (h dt : Nat)
  /-- CRC32 (R246). Continues an IEEE 802.3 CRC over a span. -/
  | crc32 (h dt : Nat)
  /-- CRC32C (R246). Continues a Castagnoli CRC over a span. -/
  | crc32c (h dt : Nat)
  /-- CSUM16 (R246). Computes a ones' complement 16-bit sum. -/
  | csum16 (h dt : Nat)
  /-- TO_DRAM (R249). Moves bytes from shared memory to the tenancy's DRAM. -/
  | toDram (h dt : Nat)
  /-- FROM_DRAM (R249). Moves bytes from DRAM to shared memory. -/
  | fromDram (h dt : Nat)
  /-- CELL_RD (R247). Copies bytes of the held frame into shared memory. -/
  | cellRd (h dt : Nat)
  /-- SEND (R250). The Hall helper sends a frame into the Depot through HALL_TX. -/
  | helperSend (h dt : Nat)
  /-- DIR_LOOKUP (R248). Looks up a Directory table from a helper. -/
  | dirLookup (h dt : Nat)
  /-- DIR_LEARN (R248). Learns an address into the slice's learning table. -/
  | dirLearn (h dt : Nat)
  /-- HELPER_CT_RESUME (R247). A command waiting for cut-through bytes resumes when they arrive. -/
  | helperCtResume (h u dt : Nat)
  /-- HELPER_COMPLETE (R251). A helper command completes: results and record are written and doorbell 1 is rung. -/
  | helperComplete (h u dt : Nat)
  /-- HELPER_LATE_ERROR (R253). An accepted TO_DRAM write fails to commit and the late-error record is written. -/
  | helperLateError (dt : Nat)
  /-- KEY_REQUEST_ARRIVE (R264). A key operation on a remote key reaches its home agent and is served. -/
  | keyRequestArrive (island : Nat)
  /-- KEY_STATUS_LAND (R267). A queued or remote key status lands and the thread becomes READY. -/
  | keyStatusLand (m dt : Nat)
  /-- KEY_RING_CFG_WRITE (R272). A write of KEY_RING_CFG configures a keyring, refused in the listed cases. -/
  | keyRingCfgWrite (m ring : Nat) (val : Word)
  /-- KEY_SNAP (R272). KEY_SEL SNAP captures the state of a key into KEY_STATE. -/
  | keySnap (m : Nat) (val : Word)
  /-- TRY (R271). KEY_HOST_OP TRY acquires a key for the host without waiting. -/
  | tryKey (m : Nat) (val : Word)
  /-- RELEASE (R271). KEY_HOST_OP RELEASE releases a key held by the host. -/
  | releaseKey (m : Nat) (val : Word)
  /-- KEY_RING_HOST (R260). KEY_RING_HOST GO rings a doorbell as a tenancy 0 master. -/
  | keyRingHost (m : Nat) (val : Word)
  /-- TAP_SEND (R279). The tap unit sends a pending slot's token into TAP when it has credit and clears W0. -/
  | tapSend (stn dt : Nat)
  /-- TAPIN_ACCEPT (R291). The Dispatcher takes a token from a TAP hatch and checks, holds, drops or accepts it. -/
  | tapinAccept (dt : Nat)
  /-- ALIGN_HOLD_EXPIRY (R293). HOLD passes for a pending set, which then becomes due for release with fills. -/
  | alignHoldExpiry (g n smp dt : Nat)
  /-- ALIGN_RELEASE (R293). ALIGN releases a set to its outputs when it has credit on every output. -/
  | alignRelease (g n dt : Nat)
  /-- WINDOW (R294). The WINDOW node keeps the ring and emits a DATA token each STEP. -/
  | windowNode (g n dt : Nat)
  /-- EMIT (R296). The EMIT node updates the template, signs it and sends the frame into the Depot. -/
  | emitNode (g n dt : Nat)
  /-- NODE_DISPATCH (R304). The Dispatcher dispatches a ready unpinned node to a thread or helper. -/
  | nodeDispatch (bench dt : Nat)
  /-- PINNED_DISPATCH (R306). A ready node of a pinned graph is dispatched at once to its placement thread. -/
  | pinnedDispatch (g dt : Nat)
  /-- NODE_DONE (R301). A node completion reaches the Dispatcher, consuming inputs and publishing outputs. -/
  | nodeDone (bench dt : Nat)
  /-- NODE_TIMEOUT (R302). A node not ended by LIMIT_AT is ended by the Dispatcher. -/
  | nodeTimeout (g n dt : Nat)
  /-- LOAD (R286). WSHOP_GRAPH_CMD LOAD reads and checks a graph image. -/
  | graphLoad (m : Nat) (val : Word)
  /-- LOAD_COMPLETE (R290). A LOAD finishes, installing the graph or setting ERR. -/
  | loadComplete (dt : Nat)
  /-- START (R288). WSHOP_GRAPH_CMD START makes a LOADED graph RUNNING, or refuses it. -/
  | graphStart (m : Nat) (val : Word)
  /-- STOP (R289). WSHOP_GRAPH_CMD STOP makes a graph STOPPING. -/
  | graphStop (m : Nat) (val : Word)
  /-- STOPPING_END (R289). The last running node of a STOPPING graph ends and it becomes LOADED. -/
  | stoppingEnd (g dt : Nat)
  /-- UNLOAD (R287). WSHOP_GRAPH_CMD UNLOAD empties a graph slot and frees its memory. -/
  | graphUnload (m : Nat) (val : Word)
  /-- REC_WRITE (R393). The recorder writes a record into the DRAM ring at WPTR. -/
  | recWrite (dt : Nat)
  /-- TRIG (R394). DRAM_REC_CFG TRIG captures the postmark and starts the post-trigger time. -/
  | recTrig (m : Nat) (val : Word)
  /-- ARM (R394). DRAM_REC_CFG ARM clears FROZEN and resumes writing. -/
  | recArm (m : Nat) (val : Word)
  /-- POST_TRIGGER_EXPIRY (R394). POST_MS passes after a trigger and FROZEN is set. -/
  | postTriggerExpiry (dt : Nat)
  /-- DRAM_REQUEST (R373). The controller receives a request from a DRAM_REQ hatch. -/
  | dramRequest (src dt : Nat)
  /-- DRAM_COMMAND (R379). A channel chooses and performs its next command, decoding and correcting read data. -/
  | dramCommand (ch dt ecc : Nat)
  /-- REFRESH (R381). A rank's refresh interval expires and a refresh is issued or postponed. -/
  | refresh (ch phys dt bank : Nat) (postpone : Bool)
  /-- TEMP_READ (R381). A rank's temperature is read every 1 ms. -/
  | tempRead (ch phys dt temp : Nat)
  /-- ZQ_CALIBRATION (R381). The ZQ calibration latch runs every 128 ms. -/
  | zqCalibration (ch phys dt : Nat)
  /-- READ_TIMING_RETUNE (R381). The read timing is retuned every 100 ms. -/
  | readTimingRetune (ch phys dt : Nat)
  /-- PATROL_SCRUB (R381). The patrol scrub reads a line and writes it back when corrected. -/
  | patrolScrub (ch rank dt ecc : Nat)
  /-- TRAINING_DONE (R383). DRAM training ends and READY is set, or DRAM stays out of service. -/
  | trainingDone (dt : Nat) (bad : List Nat)
  /-- FILL_DONE (R384). The background zero fill completes and FILLED is set. -/
  | fillDone (dt : Nat)
  /-- DRAM_RANK_RETIRE (R386). DRAM_RANK_CTL RETIRE retires a logical rank with cause HOST. -/
  | dramRankRetire (m : Nat) (val : Word)
  /-- MIGRATION_DONE (R387). The last line is copied, the rank maps to the spare and the retired rank is powered down. -/
  | migrationDone (ch dt : Nat) (bad : List Nat)
  /-- METER_REPORT (R396). An island's tick energy report arrives at the Ledger and is accepted or refused. -/
  | meterReport (island dt : Nat)
  /-- LEDGER_TICK (R400). At each 8 µs tick the Ledger credits, charges, decides frequencies and parking, and tests deferred nodes. -/
  | ledgerTick (dt : Nat) (sensors : List (Option Int)) (vin hall : Nat)
  /-- FREQ_APPLY (R414). A new island frequency takes effect at a cycle boundary. -/
  | freqApply (island dt : Nat)
  /-- PARK_DONE (R417). A draining engine is drained; its threads become PARKED and its clock stops. -/
  | parkDone (e dt : Nat)
  /-- PARK_ABORT (R417). An engine not drained within 20 µs has its park abandoned. -/
  | parkAbort (e dt : Nat)
  /-- UNPARK_DONE (R419). An unpark completes and the engine's threads return to their former states. -/
  | unparkDone (e dt : Nat)
  /-- PARK (R420). LEDG_PARK PARK parks an engine under host control. -/
  | hostPark (m : Nat) (val : Word)
  /-- UNPARK (R420). LEDG_PARK UNPARK unparks a host-parked engine. -/
  | hostUnpark (m : Nat) (val : Word)
  /-- AUTO (R420). LEDG_PARK AUTO returns an engine to Ledger control. -/
  | hostAuto (m : Nat) (val : Word)
  /-- LINK_LOCKED (R425). All lanes of a Courier link hold lock for 1 ms and the link enters HELLO. -/
  | linkLocked (k dt : Nat)
  /-- HELLO_SEND (R426). A link in HELLO sends a HELLO parcel every 100 µs. -/
  | helloSend (k dt : Nat)
  /-- HELLO_RX (R426). A received HELLO is accepted or refused. -/
  | helloRx (k dt : Nat) (b : List Byte)
  /-- DATA_RX (R435). A DATA parcel is judged by the receipt book and, if in order, becomes an envelope or transits. -/
  | dataRx (k dt pm : Nat) (b : List Byte)
  /-- ACK_RX (R437). An ACK frees acknowledged parcels or is ignored. -/
  | ackRx (k dt : Nat) (b : List Byte)
  /-- NAK_RX (R437). A NAK frees acknowledged parcels and replays the rest. -/
  | nakRx (k dt : Nat) (b : List Byte)
  /-- HEARTBEAT_RX (R456). A HEARTBEAT is used to judge agreement, dissent, pending differences and LEAVE. -/
  | heartbeatRx (k dt : Nat) (b : List Byte)
  /-- SEAL_REQ_RX (R457). A SEAL_REQ is answered with a SEAL_RESP. -/
  | sealReqRx (k dt : Nat) (b : List Byte)
  /-- SEAL_RESP_RX (R457). A SEAL_RESP is stored in COUR_PEER_SEAL. -/
  | sealRespRx (k dt : Nat) (b : List Byte)
  /-- TIME_RX (R460). A TIME parcel yields the link delay and peer offset. -/
  | timeRx (k dt pm : Nat) (b : List Byte)
  /-- ALARM_RX (R466). An ALARM parcel's records are passed on or into the alarm queue. -/
  | alarmRx (k dt : Nat) (b : List Byte)
  /-- PARCEL_SEND (R432). A DATA parcel is built and sent when the window, replay buffer and credits allow. -/
  | parcelSend (k c dt : Nat)
  /-- ACK_SEND (R434). ACK_DELAY expires without an acknowledgement carried and an ACK parcel is sent. -/
  | ackSend (k dt : Nat)
  /-- REPLAY_TIMEOUT (R437). The replay timer expires and every unacknowledged parcel is sent again. -/
  | replayTimeout (k dt : Nat)
  /-- HEARTBEAT_SEND (R455). A HEARTBEAT is sent every 1 ms. -/
  | heartbeatSend (k dt : Nat)
  /-- TIME_SEND (R460). A TIME parcel is sent every 1 ms. -/
  | timeSend (k dt : Nat)
  /-- ALARM_PARCEL_SEND (R467). Alarm records and summaries are sent in ALARM parcels within the byte bucket. -/
  | alarmParcelSend (k dt : Nat)
  /-- LOCK_LOSS (R439). Lock lost for more than 10 µs fails the link. -/
  | lockLoss (k dt : Nat)
  /-- HEARTBEAT_TIMEOUT (R439). No HEARTBEAT for 3 ms fails the link. -/
  | heartbeatTimeout (k dt : Nat)
  /-- LINK_RETRY (R425). A FAILED link returns to LOCKING after 10 ms. -/
  | linkRetry (k dt : Nat)
  /-- BUCKET_MOVE_DRAIN (R447). A moving bucket's old parcels are acknowledged and FDT passes, and it moves to the new way. -/
  | bucketMoveDrain (g b dt : Nat)
  /-- BUCKET_MOVE_TIMEOUT (R447). A bucket move not drained in 50 µs releases its held parcels at once. -/
  | bucketMoveTimeout (g b dt : Nat)
  /-- BUCKET_MONITOR (R450). Every MON ms the monitor may start moving one bucket of a group. -/
  | bucketMonitor (g dt : Nat)
  /-- RESEED (R446). Every RESEED seconds each multipath group takes a new seed. -/
  | reseed (dt : Nat)
  /-- RESEED_NOW (R446). COUR_MP_CFG RESEED_NOW reseeds every group. -/
  | reseedNow (m : Nat) (val : Word)
  /-- ROUTE_WRITE (R440). COUR_ROUTE_SEL WR writes a route entry. -/
  | routeWrite (m : Nat) (val : Word)
  /-- ROUTE_READ (R440). COUR_ROUTE_SEL RD loads a route entry. -/
  | routeRead (m : Nat) (val : Word)
  /-- GROUP_WRITE (R441). COUR_GRP_SEL WR writes a group's way slots. -/
  | groupWrite (m : Nat) (val : Word)
  /-- GROUP_READ (R441). COUR_GRP_SEL RD loads a group's way slots. -/
  | groupRead (m : Nat) (val : Word)
  /-- SEAL_READY (R454). The staging seal is computed. -/
  | sealReady (dt : Nat)
  /-- SEAL_REQ (R457). A write to COUR + 0x0620 bit 31 sends SEAL_REQ on the selected link. -/
  | sealReq (m : Nat) (val : Word)
  /-- TEN_RESET (R480). TEN_CTL RESET runs the reset sequence of a tenancy and leaves it HELD. -/
  | tenReset (m : Nat) (val : Word)
  /-- TEN_RELEASE (R481). TEN_CTL RELEASE makes a HELD tenancy ACTIVE. -/
  | tenRelease (m : Nat) (val : Word)
  /-- KSLOT_WR (R485). TEN_KSLOT_CFG WR writes a key slot. -/
  | kslotWr (m : Nat) (val : Word)
  /-- KSLOT_ERASE (R485). TEN_KSLOT_CFG ERASE empties a key slot. -/
  | kslotErase (m : Nat) (val : Word)
  /-- COMMIT_SVN (R490). Blows fuses up to the running image's SVN. -/
  | commitSvn (m : Nat) (val : Word)
  /-- REVOKE (R490). Revokes a key hash slot. -/
  | revoke (m : Nat) (val : Word)
  /-- POWER_UP (R504). Soft start completes and ENTRY begins. Here and in the other commands by which ENTRY may begin, each entry x of `badSlots` is a 64 KiB block of the Cellar,
  x / 16 of image slot x % 16, that reads back wrong (R524, R527), and `badKeys` lists the key slots whose records fail authentication (R486). -/
  | powerUp (dt vin : Nat) (cycled : Bool) (badSlots badKeys : List Nat)
  /-- ENTRY_COMPLETE (R505). Every step of ENTRY completes and the module enters SETUP. -/
  | entryComplete (dt : Nat) (badEngines badLanes badCells eccBanks : List Nat)
  /-- SAG (R513). VIN_12 below threshold long enough triggers HOLDUP with cause SAG. -/
  | sag (dt vin dur : Nat)
  /-- REMOVAL (R511). PRESENT_N high for 2 µs triggers HOLDUP with cause REMOVAL. -/
  | removal (dt : Nat)
  /-- ENABLE_LOW (R508). ENABLE low triggers HOLDUP with cause ENABLE. -/
  | enableLow (dt : Nat)
  /-- SYS_RESET (R508). SYS_RESET_N low for 10 µs restarts the module at ENTRY without a save. -/
  | sysReset (dt width : Nat) (badSlots badKeys : List Nat)
  /-- PERST (R508). PERST_N resets the PCIe endpoint only. -/
  | perst
  /-- WITHDRAW_REQ (R560). A filtered falling edge of WITHDRAW_REQ_N starts WITHDRAW. -/
  | withdrawReq (dt : Nat) (high : Bool)
  /-- WDREQ_STUCK (R560). WITHDRAW_REQ_N held low for 60 s sets STUCK and raises an alarm. -/
  | wdreqStuck (dt : Nat)
  /-- SVC_ARM (R502). LIFE_CTL SVC_ARM sets SVC_PEND in SETUP. -/
  | svcArm (m : Nat) (val : Word)
  /-- SVC_DISARM (R502). LIFE_CTL SVC_DISARM clears SVC_PEND while no commit is ARMED. -/
  | svcDisarm (m : Nat) (val : Word)
  /-- WITHDRAW (R509). LIFE_CTL WITHDRAW starts an orderly withdrawal. -/
  | lifeWithdraw (m : Nat) (val : Word)
  /-- RESTART (R500). LIFE_CTL RESTART saves through HOLDUP and restarts. -/
  | lifeRestart (m : Nat) (val : Word)
  /-- WITHDRAW_ADMISSION_STOP (R509). DELAY_MS after WITHDRAW, port admission stops. -/
  | withdrawAdmissionStop (dt : Nat)
  /-- WITHDRAW_DRAIN_END (R509). The drain ends or times out; graphs stop, threads halt and the final snapshot is taken. -/
  | withdrawDrainEnd (dt : Nat)
  /-- SAVE_COMPLETE (R514). The commit record is written and the module parks, powers down or returns to SETUP or ENTRY. -/
  | saveComplete (dt : Nat) (badSlots badKeys : List Nat)
  /-- THERMAL_SHUTDOWN (R517). EST at or above 125 °C for 100 ms triggers HOLDUP with cause THERMAL. -/
  | thermalShutdown (dt : Nat)
  /-- POWER_RETURN (R515). A parked module whose power conditions hold for 10 ms enters ENTRY. -/
  | powerReturn (dt vin held : Nat) (cycled : Bool) (badSlots badKeys : List Nat)
  /-- CAP_DEPLETED (R515). The capacitor falls to 8.0 V while parked and the Save island powers down. -/
  | capDepleted (dt : Nat)
  /-- CHECKPOINT (R523). At each second boundary a checkpoint of the strongbox is written to the Cellar. -/
  | checkpoint (dt : Nat)
  /-- CHECKPOINT_READBACK (R524). A checkpoint is read back and bad blocks are remapped. -/
  | checkpointReadback (dt : Nat) (bad : List Nat) (failed : Bool)
  /-- HOLDUP_TEST (R519). Every TEST_H hours or at ENTRY a hold-up test starts. -/
  | holdupTest (dt vhuc : Nat)
  /-- TEST_NOW (R519). LIFE_HUC_CFG TEST_NOW starts a hold-up test. -/
  | testNow (m : Nat) (val : Word)
  /-- HOLDUP_TEST_DONE (R519). A hold-up test completes, CAP, ESR and E are computed and HOLDUP_LOW judged. -/
  | holdupTestDone (dt fall step : Nat)
  /-- SENSOR_CLEAR (R529). All sensors valid without METER_FAIL for 10 s clears the SENSOR cause. -/
  | sensorClear (dt : Nat)
  /-- GO (R538). HALL_MBX_CTL GO hands a mailbox request to the agent or to firmware. -/
  | mbxGo (m f : Nat) (val : Word)
  /-- PING (R540). Returns the request data. -/
  | ping (dt : Nat)
  /-- SET_WINDOW (R535). Sets a function's BAR2 window base. -/
  | setWindow (dt : Nat)
  /-- FLASH_INFO (R540). Returns both banks' SEQ and SVN and HALL_BOOT_STAT. -/
  | flashInfo (dt : Nat)
  /-- FLASH_READ (R540). Reads up to 128 bytes of flash. -/
  | flashRead (dt : Nat) (bad : Bool)
  /-- FLASH_ERASE (R540). Erases a 64 KiB sector of the bank not booted. -/
  | flashErase (dt : Nat) (bad : Bool)
  /-- FLASH_WRITE (R540). Writes flash data to the bank not booted. -/
  | flashWrite (dt : Nat) (bad : Bool)
  /-- MBX_RESTART (R540). The mailbox RESTART command restarts the module. -/
  | mbxRestart (dt : Nat) (badSlots badKeys : List Nat)
  /-- MBX_FW_OPCODE (R538). A firmware opcode rings doorbell 0 of the target Hall thread. -/
  | mbxFwOpcode (f : Nat)
  /-- MBX_RESPONSE (R538). The agent or firmware stores RHDR with V, completing the request and raising vector 1. -/
  | mbxResponse (f : Nat)
  /-- MBX_FW_TIMEOUT (R541). A firmware opcode unanswered within TIMEOUT completes TIMEOUT. -/
  | mbxFwTimeout (f dt : Nat)
  /-- MBX_AGENT_RESTART (R539). The mailbox agent restarts on the next Hall engine after its engine fails. -/
  | mbxAgentRestart (dt : Nat)
  /-- FLR (R537). A function-level reset clears the window, abandons the mailbox request and frees keys. -/
  | flr (f : Nat)
  /-- STATS_SNAP (R545). SNAP copies a statistics set into its snapshot registers. -/
  | statsSnap (m ofs : Nat) (val : Word)
  /-- STATS_CLR (R545). SNAP with CLR copies and zeroes a statistics set in one cycle. -/
  | statsClr (m ofs : Nat) (val : Word)
  /-- CNT_CLR (R547). HALL_CNT_CLR GO clears the event counters of an island or of all. -/
  | cntClr (m : Nat) (val : Word)
  /-- ALARM_RECORD (R550). An alarm record arrives at EVT, takes a SEQ, is logged and queued or coalesced. -/
  | alarmRecord (island : Nat)
  /-- ALARM_POP (R550). A read of EVT_ALQ_W0 pops the most urgent oldest record. -/
  | alarmPop (m : Nat)
  /-- TRACE_RECORD (R556). A record is written to the trace ring, or dropped and later a GAP written. -/
  | traceRecord
  /-- TRACE_MARK (R556). A write of EVT_TRC_MARK places a MARK record. -/
  | traceMark (m : Nat) (val : Word)
  /-- MSIX_HOLDOFF (R558). HOLDOFF passes with events pending and a moderated vector's message is sent. -/
  | msixHoldoff (v dt : Nat)
  /-- ATTN_SAMPLE (R559). The module samples ATTN_N and detects mismatches. -/
  | attnSample (dt : Nat) (high : Bool)
  /-- SB_WRITE (R561). Runs an SMBus write transfer. -/
  | sbWrite (m slot : Nat) (val : Word)
  /-- SB_READ (R561). Runs an SMBus read transfer. -/
  | sbRead (m slot : Nat) (val : Word)
  /-- SB_WRITE_READ (R561). Runs an SMBus write, repeated start and read. -/
  | sbWriteRead (m slot : Nat) (val : Word)
  /-- SB_DONE (R561). A side-bus transfer completes with its STATUS. -/
  | sbDone (slot dt status : Nat) (data : List Byte)
  /-- SB_RECOVERY (R563). A stuck side bus is recovered with clocks and a STOP, or declared DEAD. -/
  | sbRecovery (dt : Nat) (ok : Bool)
  /-- MDIO_C22_WRITE (R564). Runs a clause 22 write frame. -/
  | mdioC22Write (m n : Nat) (val : Word)
  /-- MDIO_C22_READ (R564). Runs a clause 22 read frame. -/
  | mdioC22Read (m n : Nat) (val : Word)
  /-- MDIO_C45_ADDRESS (R564). Runs a clause 45 address frame. -/
  | mdioC45Address (m n : Nat) (val : Word)
  /-- MDIO_C45_WRITE (R564). Runs a clause 45 write frame. -/
  | mdioC45Write (m n : Nat) (val : Word)
  /-- MDIO_C45_READ_INCREMENT (R564). Runs a clause 45 read-increment frame. -/
  | mdioC45ReadIncrement (m n : Nat) (val : Word)
  /-- MDIO_C45_READ (R564). Runs a clause 45 read frame. -/
  | mdioC45Read (m n : Nat) (val : Word)
  /-- MDIO_DONE (R564). An MDIO frame ends with OK, NO_PHY or STUCK. -/
  | mdioDone (n dt res : Nat) (data : BitVec 16)
  /-- ENGMEM_WRITE (R584). A write through ENGMEM reaches instruction memory or local data of an engine. -/
  | engmemWrite (m ofs : Nat) (val : Word)
  /-- ENGMEM_READ (R584). A read of local data through ENGMEM returns data and sets RTAG. -/
  | engmemRead (m ofs : Nat)
  /-- SHMEM_WRITE (R585). A write through SHMEM reaches shared memory with tag WTAG. -/
  | shmemWrite (m ofs : Nat) (val : Word)
  /-- SHMEM_READ (R585). A read through SHMEM returns data and sets RTAG. -/
  | shmemRead (m ofs : Nat)
  /-- PARSE_WRITE (R586). A write through PARSE holds W0 or applies a parse or transition entry. -/
  | parseWrite (m ofs : Nat) (val : Word)
  /-- EDTPL_WRITE (R587). A write through EDTPL changes an Editor template not in use. -/
  | edtplWrite (m ofs : Nat) (val : Word)
  /-- GCL_WRITE (R588). A write through GCL changes an entry of the staging gate list. -/
  | gclWrite (m ofs : Nat) (val : Word)
  /-- MACSEC_WRITE (R589). A write through MACSEC holds SA words or applies an SA entry with W0. -/
  | macsecWrite (m ofs : Nat) (val : Word)
  /-- SYSBLK_WRITE (R590). A write through SYSBLK changes a dword of the staging system block. -/
  | sysblkWrite (m ofs : Nat) (val : Word)
  /-- STRONG_WRITE (R591). A write through STRONG changes strongbox bytes, held behind a checkpoint copy. -/
  | strongWrite (m ofs : Nat) (val : Word)
  /-- DECODE_FAULT (R195). A bundle that fails a decode check, or whose fetch has an uncorrectable instruction-memory error, faults its thread in the slot in which it would have issued. -/
  | decodeFault (ix : Issue) (bad : Option Nat)
  /-- VERIFY_RESPONSE (R88). A verify response from the link partner makes preemption verification succeed and preemption active. -/
  | verifyResponse (port : Nat)
  /-- REFCLK_RETURN (R610). A port group's REFCLK comes back within its limits, REFCLK_OK rises and its lanes may lock again. -/
  | refclkReturn (g : Nat)
  /-- TX_PLL_LOCK_LOSS (R529). A lane's transmit PLL loses lock for 1 ms while REFCLK_OK is 1, the lane fails and the LANE cause becomes active. -/
  | txPllLockLoss (dt lane : Nat)
  /-- ENTRY_STALL (R506). ENTRY stalls with BOOT_FAIL, HALL_BIST or SAVE_ISLAND when both banks fail verification or a vital self-test fails, and STALL is set. -/
  | entryStall (dt cause : Nat) (badEngines badLanes badCells eccBanks : List Nat)
  /-- VIN_DIP_END (R513). VIN_12 recovers above THRESH before sag detection, the mode is unchanged and LIFE_DIP_CNT counts the dip. -/
  | vinDipEnd (dt vin dur : Nat)
  /-- BAR2_ACCESS (R477). A host BAR2 access is mapped through the function's window into its tenancy region, refused as an unsupported request when outside, or passed to the DRAM as a request. -/
  | bar2Access (f a : Nat) (wr : Bool) (data : List Byte)
  /-- REGISTER_READ (R544). A host read of a register with behaviour of its own, such as an rc register or the LO word of a pair that latches HI, returns its value and takes its effect. -/
  | registerRead (m ofs : Nat)
deriving DecidableEq, Repr

end Sys2Proof
end

