-- ==== Sys2Proof/Decode.lean ====
section
/-! DEFINITION. The command a word of the table's bits spells. The block takes commands and not instruction words: no row of the table of commands gives bits, so
no word spells a command. -/

namespace Sys2Proof

/-- The command that a word spells by the bits the table of commands gives: none, since no row gives bits. -/
def decodeTableWord (_nbits _w : Nat) : Option Instr := none

end Sys2Proof
end

