-- ==== Sys2Proof/Machine/RegMap.lean ====
section
/-! DEFINITION. The BAR0 offset of every register the specification names (R566 to R569 and the
register tables of the chapters), one function each; registers reached through a select register
(DEPOT_PH_SEL, DEPOT_PORT_SEL, LEDG_ISL_SEL) stand beyond the 4 MiB of BAR0 under internal keys (log entry 6). -/

namespace Sys2Proof.Machine.Reg

/-- HALL_ID -/
def hallId : Nat := 0x0
/-- HALL_DEVID0..3 -/
def hallDevid (i : Nat) : Nat := 0x10 + i * 0x4
/-- HALL_STAT -/
def hallStat : Nat := 0x20
/-- HALL_EPOCH_AT_LO -/
def epochAtLo : Nat := 0x100
/-- HALL_EPOCH_AT_HI -/
def epochAtHi : Nat := 0x104
/-- HALL_EPOCH_CTL -/
def epochCtl : Nat := 0x108
/-- HALL_EPOCH_STATUS -/
def epochStatus : Nat := 0x10C
/-- HALL_HATCH_SEL -/
def hatchSel : Nat := 0x200
/-- HALL_HATCH_STAT -/
def hatchStat : Nat := 0x204
/-- HALL_HATCH_PEAK -/
def hatchPeak : Nat := 0x208
/-- HALL_HATCH_WAIT -/
def hatchWait : Nat := 0x20C
/-- HALL_HATCH_XSTAT -/
def hatchXstat : Nat := 0x210
/-- HALL_BOOT_STAT -/
def bootStat : Nat := 0x300
/-- HALL_BOOT_CTL -/
def bootCtl : Nat := 0x304
/-- HALL_SB_CFG -/
def sbCfg : Nat := 0x400
/-- HALL_SB_CMD -/
def sbCmd (i : Nat) : Nat := 0x410 + i * 0x40
/-- HALL_SB_STAT -/
def sbStat (i : Nat) : Nat := 0x414 + i * 0x40
/-- HALL_SB_DATA0..7 -/
def sbData (i : Nat) (j : Nat) : Nat := 0x418 + i * 0x40 + j * 0x4
/-- HALL_MDIO_CFG -/
def mdioCfg (i : Nat) : Nat := 0x500 + i * 0x10
/-- HALL_MDIO_CMD -/
def mdioCmd (i : Nat) : Nat := 0x504 + i * 0x10
/-- HALL_MDIO_DATA -/
def mdioData (i : Nat) : Nat := 0x508 + i * 0x10
/-- HALL_PF_WIN -/
def pfWin (i : Nat) : Nat := 0x600 + i * 0x4
/-- HALL_CNT_CLR -/
def cntClr : Nat := 0x700
/-- HALL_MBX_CFG -/
def mbxCfg : Nat := 0x800
/-- HALL_IW_ENG -/
def iwEng : Nat := 0xA00
/-- HALL_IW_SHM -/
def iwShm : Nat := 0xA04
/-- HALL_IW_SLICE -/
def iwSlice : Nat := 0xA08
/-- HALL_IW_PORT -/
def iwPort : Nat := 0xA0C
/-- HALL_IW_STRONG -/
def iwStrong : Nat := 0xA10
/-- HALL_IW_TAG -/
def iwTag : Nat := 0xA14
/-- HALL_STRAY_CNT -/
def strayCnt : Nat := 0xB00
/-- HALL_STRAY_ADDR -/
def strayAddr : Nat := 0xB04
/-- HALL_MBX_HDR -/
def mbxHdr (i : Nat) : Nat := 0x1000 + i * 0x200
/-- HALL_MBX_CTL -/
def mbxCtl (i : Nat) : Nat := 0x1004 + i * 0x200
/-- HALL_MBX_STAT -/
def mbxStat (i : Nat) : Nat := 0x1008 + i * 0x200
/-- HALL_MBX_RHDR -/
def mbxRhdr (i : Nat) : Nat := 0x100C + i * 0x200
/-- HALL_MBX_REQ -/
def mbxReq (i : Nat) (j : Nat) : Nat := 0x1040 + i * 0x200 + j * 0x4
/-- HALL_MBX_RSP -/
def mbxRsp (i : Nat) (j : Nat) : Nat := 0x10C0 + i * 0x200 + j * 0x4
/-- MSI-X table -/
def msixTable (i : Nat) (j : Nat) : Nat := 0x1180 + i * 0x200 + j * 0x4
/-- MSI-X pending bits -/
def msixPba (i : Nat) : Nat := 0x11C0 + i * 0x200
/-- LIFE_MODE -/
def lifeMode : Nat := 0x10000
/-- LIFE_CTL -/
def lifeCtl : Nat := 0x10004
/-- LIFE_STAT -/
def lifeStat : Nat := 0x10008
/-- LIFE_HEALTH -/
def lifeHealth : Nat := 0x10010
/-- LIFE_MARGIN0 -/
def lifeMargin0 : Nat := 0x10014
/-- LIFE_MARGIN1 -/
def lifeMargin1 : Nat := 0x10018
/-- LIFE_SAG_CFG -/
def lifeSagCfg : Nat := 0x10020
/-- LIFE_HUC_CFG -/
def lifeHucCfg : Nat := 0x10024
/-- LIFE_HUC_STAT -/
def lifeHucStat : Nat := 0x10028
/-- LIFE_HUC_E -/
def lifeHucE : Nat := 0x1002C
/-- LIFE_WD_CFG -/
def lifeWdCfg : Nat := 0x10030
/-- LIFE_SAG_CNT -/
def lifeSagCnt : Nat := 0x10040
/-- LIFE_DIP_CNT -/
def lifeDipCnt : Nat := 0x10044
/-- LIFE_WD_DISCARD_CNT -/
def lifeWdDiscardCnt : Nat := 0x10048
/-- EVT_STAT -/
def evtStat : Nat := 0x20000
/-- EVT_ALQ_STAT -/
def alqStat : Nat := 0x20004
/-- EVT_ALQ_W0..W7 -/
def alqW (i : Nat) : Nat := 0x20010 + i * 0x4
/-- EVT_LOG_CFG -/
def logCfg : Nat := 0x20040
/-- EVT_LOG_WPTR -/
def logWptr : Nat := 0x20044
/-- EVT_TRC_CFG -/
def trcCfg : Nat := 0x20050
/-- EVT_TRC_WPTR -/
def trcWptr : Nat := 0x20054
/-- EVT_TRC_RPTR -/
def trcRptr : Nat := 0x20058
/-- EVT_TRC_MARK -/
def trcMark : Nat := 0x2005C
/-- EVT_MSIX_MOD v=0 -/
def msixMod0 : Nat := 0x20080
/-- EVT_MSIX_MOD v=2 -/
def msixMod2 : Nat := 0x20088
/-- EVT_MSIX_MOD v=3 -/
def msixMod3 : Nat := 0x2008C
/-- EVT_ATTN_CFG -/
def attnCfg : Nat := 0x200C0
/-- EVT_WDREQ_STAT -/
def wdreqStat : Nat := 0x200C4
/-- EVT_COALESCE_CNT -/
def evtCoalesceCnt : Nat := 0x20100
/-- EVT_LOG_DROP_CNT -/
def evtLogDropCnt : Nat := 0x20104
/-- EVT_TRC_DROP_CNT -/
def evtTrcDropCnt : Nat := 0x20108
/-- EVT_MBX_LATE_CNT -/
def evtMbxLateCnt : Nat := 0x2010C
/-- EVT_ATTN_MIS_CNT -/
def evtAttnMisCnt : Nat := 0x20110
/-- EVT_SB_RECOVER_CNT -/
def evtSbRecoverCnt : Nat := 0x20114
/-- LEDG_CAP -/
def ledgCap : Nat := 0x30000
/-- LEDG_RESERVE -/
def ledgReserve : Nat := 0x30004
/-- LEDG_THERM -/
def ledgTherm : Nat := 0x30008
/-- LEDG_GOV -/
def ledgGov : Nat := 0x3000C
/-- LEDG_STAT -/
def ledgStat : Nat := 0x30010
/-- LEDG_PARK -/
def ledgPark : Nat := 0x30020
/-- LEDG_ISL_SEL -/
def ledgIslSel : Nat := 0x30040
/-- LEDG_HEAD_LO -/
def ledgHeadLo : Nat := 0x30018
/-- LEDG_HEAD_HI -/
def ledgHeadHi : Nat := 0x3001C
/-- LEDG_ISL_CFG -/
def ledgIslCfg (i : Nat) : Nat := 0x4A0000 + i * 0x8
/-- LEDG_ISL_E -/
def ledgIslE (i : Nat) : Nat := 0x4A0004 + i * 0x8
/-- LEDG_ACCT_CFG -/
def acctCfg (i : Nat) : Nat := 0x30100 + i * 0x10
/-- LEDG_ACCT_BAL_LO -/
def acctBalLo (i : Nat) : Nat := 0x30104 + i * 0x10
/-- LEDG_ACCT_BAL_HI -/
def acctBalHi (i : Nat) : Nat := 0x30108 + i * 0x10
/-- LEDG_ACCT_HOLD -/
def acctHold (i : Nat) : Nat := 0x3010C + i * 0x10
/-- LEDG_PARK_ABORT_CNT -/
def ledgParkAbortCnt : Nat := 0x30060
/-- LEDG_CEIL_CNT -/
def ledgCeilCnt : Nat := 0x30064
/-- LEDG_METER_REJ_CNT -/
def ledgMeterRejCnt : Nat := 0x30068
/-- TIME_SRC_CFG -/
def timeSrcCfg : Nat := 0x40000
/-- TIME_STATUS -/
def timeStatus : Nat := 0x40004
/-- TIME_STEP -/
def timeStepR : Nat := 0x40010
/-- TIME_TOD_SEC_LO -/
def todLo : Nat := 0x40018
/-- TIME_TOD_SEC_HI -/
def todHi : Nat := 0x4001C
/-- TIME_IN_CFG -/
def timeInCfg : Nat := 0x40020
/-- TIME_OUT_CFG -/
def timeOutCfg : Nat := 0x40024
/-- TIME_OUT_OFS -/
def timeOutOfs : Nat := 0x40028
/-- TIME_IN_OFF_CNT -/
def timeInOffCnt : Nat := 0x40030
/-- TIME_IN_GLITCH_CNT -/
def timeInGlitchCnt : Nat := 0x40034
/-- TIME_PTP_CFG -/
def ptpCfg (i : Nat) : Nat := 0x40400 + i * 0x40
/-- TEN_CTL -/
def tenCtl : Nat := 0x50000
/-- TEN_STAT -/
def tenStat : Nat := 0x50004
/-- TEN_STATUS -/
def tenStatus (i : Nat) : Nat := 0x50100 + i * 0x4
/-- TEN_DRAM_CFG -/
def tenDramCfg (i : Nat) : Nat := 0x50200 + i * 0x4
/-- TEN_DRAM_BASE -/
def tenDramBase (i : Nat) : Nat := 0x50240 + i * 0x4
/-- TEN_PORT_MAP -/
def tenPortMap (i : Nat) : Nat := 0x50400 + i * 0x4
/-- TEN_PORT_ACT -/
def tenPortAct (i : Nat) : Nat := 0x50500 + i * 0x4
/-- TEN_KSLOT_CFG -/
def kslotCfg : Nat := 0x50600
/-- TEN_KSLOT_INFO -/
def kslotInfo : Nat := 0x50604
/-- TEN_KSLOT_DATA0..15 -/
def kslotData (i : Nat) : Nat := 0x50610 + i * 0x4
/-- TEN_DENY_CNT -/
def tenDenyCnt : Nat := 0x50700
/-- KEY_RING_CFG -/
def keyRingCfg (i : Nat) : Nat := 0x60000 + i * 0x4
/-- KEY_SEL -/
def keySel : Nat := 0x60100
/-- KEY_STATE -/
def keyState : Nat := 0x60104
/-- KEY_HOST_OP -/
def keyHostOp : Nat := 0x60110
/-- KEY_HOST_RES -/
def keyHostRes : Nat := 0x60114
/-- KEY_RING_HOST -/
def keyRingHost : Nat := 0x60118
/-- KEY_STATUS -/
def keyStatus : Nat := 0x60120
/-- KEY_DENY_CNT -/
def keyDenyCnt : Nat := 0x60130
/-- KEY_QFULL_CNT -/
def keyQfullCnt : Nat := 0x60134
/-- KEY_ABANDON_CNT -/
def keyAbandonCnt : Nat := 0x60138
/-- KEY_RING_DENY_CNT -/
def keyRingDenyCnt : Nat := 0x6013C
/-- CELL_CKPT_CFG -/
def ckptCfg : Nat := 0x70000
/-- CELL_STAT -/
def cellStat : Nat := 0x70004
/-- CELL_PREV_SEQ_LO -/
def prevSeqLo : Nat := 0x70008
/-- CELL_PREV_SEQ_HI -/
def prevSeqHi : Nat := 0x7000C
/-- CELL_PREV_PM_LO -/
def prevPmLo : Nat := 0x70010
/-- CELL_PREV_PM_HI -/
def prevPmHi : Nat := 0x70014
/-- CELL_CKPT_FAIL_CNT -/
def ckptFailCnt : Nat := 0x70040
/-- CELL_REMAP_CNT -/
def cellRemapCnt : Nat := 0x70044
/-- PORT_LANE_CFG -/
def laneCfg (i : Nat) : Nat := 0x80000 + i * 0x1000
/-- PORT_LANE_STAT -/
def laneStat (i : Nat) : Nat := 0x80004 + i * 0x1000
/-- PORT_MAC_CFG -/
def portMacCfg (i : Nat) (j : Nat) : Nat := 0x80100 + i * 0x1000 + j * 0x100
/-- PORT_CT_CFG -/
def portCtCfg (i : Nat) (j : Nat) : Nat := 0x80104 + i * 0x1000 + j * 0x100
/-- PORT_STALL_CFG -/
def portStallCfg (i : Nat) (j : Nat) : Nat := 0x80108 + i * 0x1000 + j * 0x100
/-- PORT_PREEMPT_CFG -/
def portPreemptCfg (i : Nat) (j : Nat) : Nat := 0x8010C + i * 0x1000 + j * 0x100
/-- PORT_PREEMPT_STAT -/
def portPreemptStat (i : Nat) (j : Nat) : Nat := 0x80110 + i * 0x1000 + j * 0x100
/-- PORT_TS_ADJ -/
def portTsAdj (i : Nat) (j : Nat) : Nat := 0x80114 + i * 0x1000 + j * 0x100
/-- PORT_SAMPLE_CFG -/
def portSampleCfg (i : Nat) (j : Nat) : Nat := 0x80118 + i * 0x1000 + j * 0x100
/-- PORT_EDIT_CFG -/
def portEditCfg (i : Nat) (j : Nat) : Nat := 0x80180 + i * 0x1000 + j * 0x100
/-- PORT_XPOL_CFG -/
def portXpolCfg (i : Nat) (j : Nat) : Nat := 0x80188 + i * 0x1000 + j * 0x100
/-- PORT_XLAT_CFG -/
def portXlatCfg (i : Nat) (j : Nat) : Nat := 0x80190 + i * 0x1000 + j * 0x100
/-- PORT_XLAT_MAX -/
def portXlatMax (i : Nat) (j : Nat) : Nat := 0x80194 + i * 0x1000 + j * 0x100
/-- PORT_MACSEC_CFG -/
def portMacsecCfg (i : Nat) (j : Nat) : Nat := 0x801A0 + i * 0x1000 + j * 0x100
/-- PORT_TSQ_W0 -/
def tsqW0 (i : Nat) (j : Nat) : Nat := 0x80120 + i * 0x1000 + j * 0x100
/-- PORT_TSQ_W1 -/
def tsqW1 (i : Nat) (j : Nat) : Nat := 0x80124 + i * 0x1000 + j * 0x100
/-- PORT_TSQ_W2 -/
def tsqW2 (i : Nat) (j : Nat) : Nat := 0x80128 + i * 0x1000 + j * 0x100
/-- PORT_TSQ_W3 -/
def tsqW3 (i : Nat) (j : Nat) : Nat := 0x8012C + i * 0x1000 + j * 0x100
/-- PORT_STALL_CNT -/
def portStallCnt (i : Nat) (j : Nat) : Nat := 0x80140 + i * 0x1000 + j * 0x100
/-- PORT_RESYNC_CNT -/
def portResyncCnt (i : Nat) (j : Nat) : Nat := 0x80144 + i * 0x1000 + j * 0x100
/-- PORT_EGR_ABORT_CNT -/
def portEgrAbortCnt (i : Nat) (j : Nat) : Nat := 0x80148 + i * 0x1000 + j * 0x100
/-- PORT_UNDERRUN_CNT -/
def portUnderrunCnt (i : Nat) (j : Nat) : Nat := 0x8014C + i * 0x1000 + j * 0x100
/-- PORT_RUNT_CNT -/
def portRuntCnt (i : Nat) (j : Nat) : Nat := 0x80150 + i * 0x1000 + j * 0x100
/-- PORT_OVERSIZE_CNT -/
def portOversizeCnt (i : Nat) (j : Nat) : Nat := 0x80154 + i * 0x1000 + j * 0x100
/-- PORT_MACCTL_CNT -/
def portMacctlCnt (i : Nat) (j : Nat) : Nat := 0x80158 + i * 0x1000 + j * 0x100
/-- PORT_LINKDOWN_DROP_CNT -/
def portLinkdownDropCnt (i : Nat) (j : Nat) : Nat := 0x8015C + i * 0x1000 + j * 0x100
/-- PORT_TSQ_OVF_CNT -/
def portTsqOvfCnt (i : Nat) (j : Nat) : Nat := 0x80160 + i * 0x1000 + j * 0x100
/-- PORT_FRAG_ERR_CNT -/
def portFragErrCnt (i : Nat) (j : Nat) : Nat := 0x80164 + i * 0x1000 + j * 0x100
/-- PORT_XPOL_CNT -/
def portXpolCnt (i : Nat) (j : Nat) : Nat := 0x8018C + i * 0x1000 + j * 0x100
/-- PORT_XLAT_OVER_CNT -/
def portXlatOverCnt (i : Nat) (j : Nat) : Nat := 0x80198 + i * 0x1000 + j * 0x100
/-- PORT_MACSEC_ICV_CNT -/
def portMacsecIcvCnt (i : Nat) (j : Nat) : Nat := 0x801A4 + i * 0x1000 + j * 0x100
/-- PORT_MACSEC_REPLAY_CNT -/
def portMacsecReplayCnt (i : Nat) (j : Nat) : Nat := 0x801A8 + i * 0x1000 + j * 0x100
/-- PORT_MACSEC_NOSA_CNT -/
def portMacsecNosaCnt (i : Nat) (j : Nat) : Nat := 0x801AC + i * 0x1000 + j * 0x100
/-- PORT_MACSEC_UNTAG_CNT -/
def portMacsecUntagCnt (i : Nat) (j : Nat) : Nat := 0x801B0 + i * 0x1000 + j * 0x100
/-- PORT_MACSEC_PN_CNT -/
def portMacsecPnCnt (i : Nat) (j : Nat) : Nat := 0x801B4 + i * 0x1000 + j * 0x100
/-- SORT_STAT -/
def sortStat (i : Nat) : Nat := 0x100004 + i * 0x8000
/-- SORT_PARSE_ERR_CNT -/
def sortParseErrCnt (i : Nat) : Nat := 0x100008 + i * 0x8000
/-- SORT_ADMIT_CFG -/
def sortAdmitCfg (i : Nat) : Nat := 0x100010 + i * 0x8000
/-- SORT_PROTO_CLASS -/
def sortProtoClass (i : Nat) : Nat := 0x100014 + i * 0x8000
/-- SORT_ADMIT_LIM -/
def sortAdmitLim (i : Nat) (j : Nat) : Nat := 0x100020 + i * 0x8000 + j * 0x4
/-- SORT_PORT_CFG -/
def sortPortCfg (i : Nat) (j : Nat) : Nat := 0x100400 + i * 0x8000 + j * 0x10
/-- SORT_PORT_CLASS -/
def sortPortClass (i : Nat) (j : Nat) : Nat := 0x100404 + i * 0x8000 + j * 0x10
/-- SORT_PORT_CT -/
def sortPortCt (i : Nat) (j : Nat) : Nat := 0x100408 + i * 0x8000 + j * 0x10
/-- SORT_REFUSE_CNT -/
def sortRefuseCnt (i : Nat) (j : Nat) (k : Nat) : Nat := 0x101000 + i * 0x8000 + j * 0x20 + k * 0x4
/-- DIR_CMD_KEY0 -/
def dirKey0 (i : Nat) : Nat := 0x102000 + i * 0x8000
/-- DIR_CMD_KEY1 -/
def dirKey1 (i : Nat) : Nat := 0x102004 + i * 0x8000
/-- DIR_CMD_KEY2 -/
def dirKey2 (i : Nat) : Nat := 0x102008 + i * 0x8000
/-- DIR_CMD_KEY3 -/
def dirKey3 (i : Nat) : Nat := 0x10200C + i * 0x8000
/-- DIR_CMD_KEY4 -/
def dirKey4 (i : Nat) : Nat := 0x102010 + i * 0x8000
/-- DIR_CMD_KEY5 -/
def dirKey5 (i : Nat) : Nat := 0x102014 + i * 0x8000
/-- DIR_CMD_MASK0 -/
def dirMask0 (i : Nat) : Nat := 0x102018 + i * 0x8000
/-- DIR_CMD_MASK1 -/
def dirMask1 (i : Nat) : Nat := 0x10201C + i * 0x8000
/-- DIR_CMD_MASK2 -/
def dirMask2 (i : Nat) : Nat := 0x102020 + i * 0x8000
/-- DIR_CMD_MASK3 -/
def dirMask3 (i : Nat) : Nat := 0x102024 + i * 0x8000
/-- DIR_CMD_MASK4 -/
def dirMask4 (i : Nat) : Nat := 0x102028 + i * 0x8000
/-- DIR_CMD_MASK5 -/
def dirMask5 (i : Nat) : Nat := 0x10202C + i * 0x8000
/-- DIR_CMD_DATA0 -/
def dirData0 (i : Nat) : Nat := 0x102030 + i * 0x8000
/-- DIR_CMD_DATA1 -/
def dirData1 (i : Nat) : Nat := 0x102034 + i * 0x8000
/-- DIR_CMD -/
def dirCmd (i : Nat) : Nat := 0x102040 + i * 0x8000
/-- DIR_CMD_STAT -/
def dirCmdStat (i : Nat) : Nat := 0x102044 + i * 0x8000
/-- DIR_HASH_CFG (STATIC) -/
def dirHashCfgStatic (i : Nat) : Nat := 0x102110 + i * 0x8000
/-- DIR_HASH_SEED (STATIC) -/
def dirHashSeedStatic (i : Nat) : Nat := 0x102114 + i * 0x8000
/-- DIR_HASH_NEW_SEED (STATIC) -/
def dirNewSeedStatic (i : Nat) : Nat := 0x102118 + i * 0x8000
/-- DIR_REHASH (STATIC) -/
def dirRehashStatic (i : Nat) : Nat := 0x10211C + i * 0x8000
/-- DIR_HASH_CFG (LEARN) -/
def dirHashCfgLearn (i : Nat) : Nat := 0x102120 + i * 0x8000
/-- DIR_HASH_SEED (LEARN) -/
def dirHashSeedLearn (i : Nat) : Nat := 0x102124 + i * 0x8000
/-- DIR_HASH_NEW_SEED (LEARN) -/
def dirNewSeedLearn (i : Nat) : Nat := 0x102128 + i * 0x8000
/-- DIR_REHASH (LEARN) -/
def dirRehashLearn (i : Nat) : Nat := 0x10212C + i * 0x8000
/-- DIR_HASH_CFG (EXT) -/
def dirHashCfgExt (i : Nat) : Nat := 0x102160 + i * 0x8000
/-- DIR_HASH_SEED (EXT) -/
def dirHashSeedExt (i : Nat) : Nat := 0x102164 + i * 0x8000
/-- DIR_HASH_NEW_SEED (EXT) -/
def dirNewSeedExt (i : Nat) : Nat := 0x102168 + i * 0x8000
/-- DIR_REHASH (EXT) -/
def dirRehashExt (i : Nat) : Nat := 0x10216C + i * 0x8000
/-- DIR_LEARN_CFG -/
def dirLearnCfg (i : Nat) : Nat := 0x102200 + i * 0x8000
/-- DIR_AGE_NOW -/
def dirAgeNow (i : Nat) : Nat := 0x102204 + i * 0x8000
/-- DIR_TERN_SEL -/
def dirTernSel (i : Nat) : Nat := 0x102300 + i * 0x8000
/-- DIR_LPM_USE -/
def dirLpmUse (i : Nat) : Nat := 0x102308 + i * 0x8000
/-- DIR_LPM_BLK -/
def dirLpmBlk (i : Nat) : Nat := 0x10230C + i * 0x8000
/-- DIR_INS_FAIL_CNT -/
def dirInsFailCnt (i : Nat) : Nat := 0x102500 + i * 0x8000
/-- DIR_LEARN_DROP_CNT -/
def dirLearnDropCnt (i : Nat) : Nat := 0x102504 + i * 0x8000
/-- DIR_LEARN_LIMIT_CNT -/
def dirLearnLimitCnt (i : Nat) : Nat := 0x102508 + i * 0x8000
/-- DIR_MOVE_CNT -/
def dirMoveCnt (i : Nat) : Nat := 0x10250C + i * 0x8000
/-- DIR_AGE_OUT_CNT -/
def dirAgeOutCnt (i : Nat) : Nat := 0x102510 + i * 0x8000
/-- DIR_EXT_TIMEOUT_CNT -/
def dirExtTimeoutCnt (i : Nat) : Nat := 0x102514 + i * 0x8000
/-- DIR_EXT_POOL_FULL_CNT -/
def dirExtPoolFullCnt (i : Nat) : Nat := 0x102518 + i * 0x8000
/-- DIR_EXT_ERR_CNT -/
def dirExtErrCnt (i : Nat) : Nat := 0x10251C + i * 0x8000
/-- DIR_EPOCH_LATE_CNT -/
def dirEpochLateCnt (i : Nat) : Nat := 0x102520 + i * 0x8000
/-- DIR_TEN_LIMIT -/
def dirTenLimit (i : Nat) (j : Nat) : Nat := 0x102600 + i * 0x8000 + j * 0x4
/-- STN_GATE_CFG -/
def gateCfg (i : Nat) (j : Nat) : Nat := 0x104100 + i * 0x8000 + j * 0x1000
/-- STN_GATE_STAT -/
def gateStat (i : Nat) (j : Nat) : Nat := 0x104104 + i * 0x8000 + j * 0x1000
/-- STN_VOID_CNT -/
def stnVoidCnt (i : Nat) (j : Nat) : Nat := 0x104108 + i * 0x8000 + j * 0x1000
/-- STN_RSV_FIX_CNT -/
def stnRsvFixCnt (i : Nat) (j : Nat) : Nat := 0x10410C + i * 0x8000 + j * 0x1000
/-- STN_LATE_REL_CNT -/
def stnLateRelCnt (i : Nat) (j : Nat) : Nat := 0x104110 + i * 0x8000 + j * 0x1000
/-- STN_STANDBY -/
def standby (i : Nat) (j : Nat) : Nat := 0x104120 + i * 0x8000 + j * 0x1000
/-- STN_TAP_COLL_CNT -/
def tapCollCnt (i : Nat) (j : Nat) : Nat := 0x104130 + i * 0x8000 + j * 0x1000
/-- STN_TAP_DEC_ERR_CNT -/
def tapDecErrCnt (i : Nat) (j : Nat) : Nat := 0x104134 + i * 0x8000 + j * 0x1000
/-- STN_PAGE_OWN0..1 -/
def pageOwn (i : Nat) (j : Nat) (k : Nat) : Nat := 0x104140 + i * 0x8000 + j * 0x1000 + k * 0x4
/-- STN_ENG_SLOT0..3 -/
def engSlotStn (i : Nat) (j : Nat) (k : Nat) (l : Nat) : Nat := 0x104200 + i * 0x8000 + j * 0x1000 + k * 0x40 + l * 0x4
/-- STN_ENG_SHADOW0..3 -/
def engShadowStn (i : Nat) (j : Nat) (k : Nat) (l : Nat) : Nat := 0x104210 + i * 0x8000 + j * 0x1000 + k * 0x40 + l * 0x4
/-- STN_ENG_CTL -/
def engCtlStn (i : Nat) (j : Nat) (k : Nat) : Nat := 0x104220 + i * 0x8000 + j * 0x1000 + k * 0x40
/-- STN_ENG_STAT -/
def engStatStn (i : Nat) (j : Nat) (k : Nat) : Nat := 0x104224 + i * 0x8000 + j * 0x1000 + k * 0x40
/-- STN_ENG_NP_DISC_CNT -/
def npDiscCntStn (i : Nat) (j : Nat) (k : Nat) : Nat := 0x104228 + i * 0x8000 + j * 0x1000 + k * 0x40
/-- STN_ENG_ECC_CNT -/
def eccCntStn (i : Nat) (j : Nat) (k : Nat) : Nat := 0x10422C + i * 0x8000 + j * 0x1000 + k * 0x40
/-- STN_THR_CFG -/
def thrCfgStn (i : Nat) (j : Nat) (k : Nat) : Nat := 0x104400 + i * 0x8000 + j * 0x1000 + k * 0x10
/-- STN_THR_CTL -/
def thrCtlStn (i : Nat) (j : Nat) (k : Nat) : Nat := 0x104404 + i * 0x8000 + j * 0x1000 + k * 0x10
/-- STN_THR_STAT -/
def thrStatStn (i : Nat) (j : Nat) (k : Nat) : Nat := 0x104408 + i * 0x8000 + j * 0x1000 + k * 0x10
/-- STN_THR_PC -/
def thrPcStn (i : Nat) (j : Nat) (k : Nat) : Nat := 0x10440C + i * 0x8000 + j * 0x1000 + k * 0x10
/-- WSHOP_ENG_SLOT0..3 -/
def engSlotBench (i : Nat) (j : Nat) (k : Nat) : Nat := 0x1A8200 + i * 0x1000 + j * 0x40 + k * 0x4
/-- WSHOP_ENG_SHADOW0..3 -/
def engShadowBench (i : Nat) (j : Nat) (k : Nat) : Nat := 0x1A8210 + i * 0x1000 + j * 0x40 + k * 0x4
/-- WSHOP_ENG_CTL -/
def engCtlBench (i : Nat) (j : Nat) : Nat := 0x1A8220 + i * 0x1000 + j * 0x40
/-- WSHOP_ENG_STAT -/
def engStatBench (i : Nat) (j : Nat) : Nat := 0x1A8224 + i * 0x1000 + j * 0x40
/-- WSHOP_ENG_NP_DISC_CNT -/
def npDiscCntBench (i : Nat) (j : Nat) : Nat := 0x1A8228 + i * 0x1000 + j * 0x40
/-- WSHOP_ENG_ECC_CNT -/
def eccCntBench (i : Nat) (j : Nat) : Nat := 0x1A822C + i * 0x1000 + j * 0x40
/-- WSHOP_THR_CFG -/
def thrCfgBench (i : Nat) (j : Nat) : Nat := 0x1A8400 + i * 0x1000 + j * 0x10
/-- WSHOP_THR_CTL -/
def thrCtlBench (i : Nat) (j : Nat) : Nat := 0x1A8404 + i * 0x1000 + j * 0x10
/-- WSHOP_THR_STAT -/
def thrStatBench (i : Nat) (j : Nat) : Nat := 0x1A8408 + i * 0x1000 + j * 0x10
/-- WSHOP_THR_PC -/
def thrPcBench (i : Nat) (j : Nat) : Nat := 0x1A840C + i * 0x1000 + j * 0x10
/-- HALL_ENG_SLOT0..3 -/
def engSlotHall (i : Nat) (j : Nat) : Nat := 0x8200 + i * 0x40 + j * 0x4
/-- HALL_ENG_SHADOW0..3 -/
def engShadowHall (i : Nat) (j : Nat) : Nat := 0x8210 + i * 0x40 + j * 0x4
/-- HALL_ENG_CTL -/
def engCtlHall (i : Nat) : Nat := 0x8220 + i * 0x40
/-- HALL_ENG_STAT -/
def engStatHall (i : Nat) : Nat := 0x8224 + i * 0x40
/-- HALL_ENG_NP_DISC_CNT -/
def npDiscCntHall (i : Nat) : Nat := 0x8228 + i * 0x40
/-- HALL_ENG_ECC_CNT -/
def eccCntHall (i : Nat) : Nat := 0x822C + i * 0x40
/-- HALL_THR_CFG -/
def thrCfgHall (i : Nat) : Nat := 0x8400 + i * 0x10
/-- HALL_THR_CTL -/
def thrCtlHall (i : Nat) : Nat := 0x8404 + i * 0x10
/-- HALL_THR_STAT -/
def thrStatHall (i : Nat) : Nat := 0x8408 + i * 0x10
/-- HALL_THR_PC -/
def thrPcHall (i : Nat) : Nat := 0x840C + i * 0x10
/-- WSHOP_PAGE_OWN0..7 -/
def benchPageOwn (i : Nat) (j : Nat) : Nat := 0x1A8140 + i * 0x1000 + j * 0x4
/-- HELP_STAT -/
def helpStat (i : Nat) : Nat := 0x107000 + i * 0x8000
/-- HELP_VOID_CNT -/
def helpVoidCnt (i : Nat) : Nat := 0x107100 + i * 0x8000
/-- HELP_ERR_CNT -/
def helpErrCnt (i : Nat) : Nat := 0x107104 + i * 0x8000
/-- HELP_AUTH_FAIL_CNT -/
def helpAuthFailCnt (i : Nat) : Nat := 0x107108 + i * 0x8000
/-- HELP_YIELD_CNT -/
def helpYieldCnt (i : Nat) : Nat := 0x10710C + i * 0x8000
/-- HELP_LATE_CNT -/
def helpLateCnt (i : Nat) : Nat := 0x107110 + i * 0x8000
/-- DEPOT_STAT -/
def depotStat : Nat := 0x180000
/-- DEPOT_POOL_CFG -/
def depotPoolCfg : Nat := 0x180004
/-- DEPOT_LAND_CFG -/
def depotLandCfg : Nat := 0x180008
/-- DEPOT_PH_SEL -/
def depotPhSel : Nat := 0x180100
/-- DEPOT_PORT_SEL -/
def depotPortSel : Nat := 0x180200
/-- DEPOT_SAMPLE_CFG -/
def depotSampleCfg : Nat := 0x180420
/-- DEPOT_POOL_STAT -/
def depotPoolStat : Nat := 0x18000C
/-- DEPOT_XPOOL_STAT -/
def depotXpoolStat : Nat := 0x180010
/-- DEPOT_PH_CFG -/
def phCfg (i : Nat) : Nat := 0x400000 + i * 0x40
/-- DEPOT_PH_WRED colour 0 -/
def phWred0 (i : Nat) : Nat := 0x400004 + i * 0x40
/-- DEPOT_PH_WRED colour 1 -/
def phWred1 (i : Nat) : Nat := 0x400008 + i * 0x40
/-- DEPOT_PH_WRED colour 2 -/
def phWred2 (i : Nat) : Nat := 0x40000C + i * 0x40
/-- DEPOT_PH_OCC -/
def phOcc (i : Nat) : Nat := 0x400010 + i * 0x40
/-- DEPOT_PH_AVG -/
def phAvg (i : Nat) : Nat := 0x400014 + i * 0x40
/-- DEPOT_PH_DROP_CNT -/
def phDropCnt (i : Nat) : Nat := 0x400018 + i * 0x40
/-- DEPOT_PH_WRED_CNT -/
def phWredCnt (i : Nat) : Nat := 0x40001C + i * 0x40
/-- DEPOT_PH_ECN_CNT -/
def phEcnCnt (i : Nat) : Nat := 0x400020 + i * 0x40
/-- DEPOT_PORT_SCHED -/
def portSched (i : Nat) : Nat := 0x480004 + i * 0x20
/-- DEPOT_PORT_QUANT0 -/
def portQuant0 (i : Nat) : Nat := 0x480008 + i * 0x20
/-- DEPOT_PORT_QUANT1 -/
def portQuant1 (i : Nat) : Nat := 0x48000C + i * 0x20
/-- DEPOT_PORT_GATE_CTL -/
def portGateCtl (i : Nat) : Nat := 0x480010 + i * 0x20
/-- DEPOT_PORT_GATE_BASE_LO -/
def portGateBaseLo (i : Nat) : Nat := 0x480014 + i * 0x20
/-- DEPOT_PORT_GATE_BASE_HI -/
def portGateBaseHi (i : Nat) : Nat := 0x480018 + i * 0x20
/-- DEPOT_MIR_CFG -/
def mirCfg (i : Nat) : Nat := 0x180400 + i * 0x4
/-- DEPOT_MC_SEL -/
def mcSel : Nat := 0x180600
/-- DEPOT_MC_DATA0..17 -/
def mcData (i : Nat) : Nat := 0x180604 + i * 0x4
/-- DEPOT_VOID_CNT -/
def depotVoidCnt (i : Nat) : Nat := 0x180804 + i * 0x4
/-- DEPOT_VOID_FW_CNT -/
def depotVoidFwCnt : Nat := 0x180824
/-- DEPOT_LAND_FULL_CNT -/
def depotLandFullCnt : Nat := 0x180830
/-- DEPOT_NOPORT_CNT -/
def depotNoportCnt : Nat := 0x180834
/-- DEPOT_MC_BAD_CNT -/
def depotMcBadCnt : Nat := 0x180838
/-- DEPOT_CELL_ECC_CNT -/
def depotCellEccCnt : Nat := 0x18083C
/-- DEPOT_LEAK_CELLS -/
def depotLeakCells : Nat := 0x180840
/-- DEPOT_RED_CFG word 0 -/
def redCfg0 (i : Nat) : Nat := 0x180A00 + i * 0x10
/-- DEPOT_RED_CFG word 1 -/
def redCfg1 (i : Nat) : Nat := 0x180A04 + i * 0x10
/-- DEPOT_RED DUP_CNT -/
def redDupCnt (i : Nat) : Nat := 0x180A08 + i * 0x10
/-- DEPOT_RED SAME_LAN_CNT -/
def redSameLanCnt (i : Nat) : Nat := 0x180A0C + i * 0x10
/-- DEPOT_RED NOTAG_CNT -/
def redNotagCnt (i : Nat) : Nat := 0x180B00 + i * 0x8
/-- DEPOT_RED EVICT_CNT -/
def redEvictCnt (i : Nat) : Nat := 0x180B04 + i * 0x8
/-- DEPOT_INT_CFG word 0 -/
def intCfg0 (i : Nat) : Nat := 0x180C00 + i * 0x8
/-- DEPOT_INT_CFG word 1 -/
def intCfg1 (i : Nat) : Nat := 0x180C04 + i * 0x8
/-- WSHOP_GRAPH_CMD -/
def graphCmd : Nat := 0x1A0000
/-- WSHOP_GRAPH_SRC_LO -/
def graphSrcLo : Nat := 0x1A0004
/-- WSHOP_GRAPH_SRC_HI -/
def graphSrcHi : Nat := 0x1A0008
/-- WSHOP_CMD_STAT -/
def wshopCmdStat : Nat := 0x1A000C
/-- WSHOP_LOG_CFG -/
def wshopLogCfg : Nat := 0x1A0010
/-- WSHOP_EMIT_UTC -/
def emitUtc : Nat := 0x1A0014
/-- WSHOP_TSTORE -/
def tstore : Nat := 0x1A0018
/-- WSHOP_GRAPH_STAT -/
def graphStat (i : Nat) : Nat := 0x1A0100 + i * 0x4
/-- WSHOP_TAP_BAD_CNT -/
def wshopTapBadCnt : Nat := 0x1A0200
/-- WSHOP_TAP_DROP_CNT -/
def wshopTapDropCnt : Nat := 0x1A0204
/-- WSHOP_ALIGN_DROP_CNT -/
def wshopAlignDropCnt : Nat := 0x1A0208
/-- WSHOP_ALIGN_FILL_CNT -/
def wshopAlignFillCnt : Nat := 0x1A020C
/-- WSHOP_TOKEN_BAD_CNT -/
def wshopTokenBadCnt : Nat := 0x1A0210
/-- WSHOP_NODE_TIMEOUT_CNT -/
def wshopNodeTimeoutCnt : Nat := 0x1A0214
/-- WSHOP_LATE_REL_CNT -/
def wshopLateRelCnt : Nat := 0x1A0218
/-- WSHOP_EMIT_DROP_CNT -/
def wshopEmitDropCnt : Nat := 0x1A021C
/-- WSHOP_REC_DROP_CNT -/
def wshopRecDropCnt : Nat := 0x1A0220
/-- WSHOP_LOG_DROP_CNT -/
def wshopLogDropCnt : Nat := 0x1A0224
/-- DRAM_STAT -/
def dramStat : Nat := 0x1C0000
/-- DRAM_SPARE_CFG -/
def spareCfg : Nat := 0x1C0020
/-- DRAM_RANK_CTL -/
def rankCtl : Nat := 0x1C0024
/-- DRAM_REF_CFG -/
def refCfg : Nat := 0x1C0030
/-- DRAM_QOS_CFG -/
def qosCfg (i : Nat) : Nat := 0x1C0100 + i * 0x10
/-- DRAM_QOS_MAX -/
def qosMax (i : Nat) : Nat := 0x1C0104 + i * 0x10
/-- DRAM_QOS_OVER_CNT -/
def qosOverCnt (i : Nat) : Nat := 0x1C0108 + i * 0x10
/-- DRAM_CH_STAT -/
def chStat (i : Nat) : Nat := 0x1C0200 + i * 0x10
/-- DRAM_MIG_PTR -/
def migPtr (i : Nat) : Nat := 0x1C0204 + i * 0x10
/-- DRAM_CE_CNT -/
def ceCnt (i : Nat) : Nat := 0x1C0300 + i * 0x8
/-- DRAM_UE_CNT -/
def ueCnt (i : Nat) : Nat := 0x1C0304 + i * 0x8
/-- DRAM_POISON_RD_CNT -/
def poisonRdCnt : Nat := 0x1C0380
/-- DRAM_LATE_ERR_CNT -/
def dramLateErrCnt : Nat := 0x1C0384
/-- DRAM_REC_CFG -/
def recCfg : Nat := 0x1C0400
/-- DRAM_REC_BASE_LO -/
def recBaseLo : Nat := 0x1C0404
/-- DRAM_REC_BASE_HI -/
def recBaseHi : Nat := 0x1C0408
/-- DRAM_REC_SIZE -/
def recSize : Nat := 0x1C040C
/-- DRAM_REC_WPTR -/
def recWptr : Nat := 0x1C0410
/-- DRAM_REC_TRIG_PM_LO -/
def recTrigLo : Nat := 0x1C0414
/-- DRAM_REC_TRIG_PM_HI -/
def recTrigHi : Nat := 0x1C0418
/-- COUR_ID -/
def courId : Nat := 0x1D0000
/-- COUR_SYSTEM -/
def courSystem : Nat := 0x1D0004
/-- COUR_STAT -/
def courStat : Nat := 0x1D0008
/-- COUR_MP_CFG -/
def courMpCfg : Nat := 0x1D0010
/-- COUR_SEAL_CFG -/
def courSealCfg : Nat := 0x1D0014
/-- COUR_SEAL_STAT -/
def courSealStat : Nat := 0x1D0018
/-- COUR_TIME_CFG -/
def courTimeCfg : Nat := 0x1D0030
/-- COUR_ALARM_CFG -/
def courAlarmCfg : Nat := 0x1D0034
/-- COUR_SEAL_TAG_LO -/
def sealTagLo : Nat := 0x1D0020
/-- COUR_SEAL_TAG_HI -/
def sealTagHi : Nat := 0x1D0024
/-- COUR_PSEAL_TAG_LO -/
def psealTagLo : Nat := 0x1D0028
/-- COUR_PSEAL_TAG_HI -/
def psealTagHi : Nat := 0x1D002C
/-- COUR_ROUTE_SEL -/
def routeSel : Nat := 0x1D0040
/-- COUR_ROUTE_DATA -/
def routeData : Nat := 0x1D0044
/-- COUR_GRP_SEL -/
def grpSel : Nat := 0x1D0050
/-- COUR_GRP_WAYS0 -/
def grpWays0 : Nat := 0x1D0054
/-- COUR_GRP_WAYS1 -/
def grpWays1 : Nat := 0x1D0058
/-- COUR_LINK_CFG -/
def linkCfg (i : Nat) : Nat := 0x1D0100 + i * 0x20
/-- COUR_LINK_ADJ -/
def linkAdj (i : Nat) : Nat := 0x1D0104 + i * 0x20
/-- COUR_LINK_STAT -/
def linkStat (i : Nat) : Nat := 0x1D0108 + i * 0x20
/-- COUR_REPLAY_CNT -/
def courReplayCnt (i : Nat) : Nat := 0x1D010C + i * 0x20
/-- COUR_DUP_CNT -/
def courDupCnt (i : Nat) : Nat := 0x1D0110 + i * 0x20
/-- COUR_CRC_ERR_CNT -/
def courCrcErrCnt (i : Nat) : Nat := 0x1D0114 + i * 0x20
/-- COUR_LOST_CNT -/
def courLostCnt (i : Nat) : Nat := 0x1D0118 + i * 0x20
/-- COUR_XSEAL_DROP_CNT -/
def courXsealDropCnt (i : Nat) : Nat := 0x1D011C + i * 0x20
/-- COUR_NOADDR_CNT -/
def courNoaddrCnt : Nat := 0x1D0500
/-- COUR_NOROUTE_CNT -/
def courNorouteCnt : Nat := 0x1D0504
/-- COUR_GMAX_CNT -/
def courGmaxCnt : Nat := 0x1D0508
/-- COUR_HOPS_CNT -/
def courHopsCnt : Nat := 0x1D050C
/-- COUR_RSV_CNT -/
def courRsvCnt : Nat := 0x1D0510
/-- COUR_BADACK_CNT -/
def courBadackCnt : Nat := 0x1D0514
/-- COUR_ORDER_RISK_CNT -/
def courOrderRiskCnt : Nat := 0x1D0518
/-- COUR_PEER_SEAL -/
def peerSeal (i : Nat) : Nat := 0x1D0600 + i * 0x4
/-- COUR + 0x0620 -/
def peerSealSel : Nat := 0x1D0620
/-- port statistics SNAP -/
def portSetSnap (i : Nat) (j : Nat) : Nat := 0x80800 + i * 0x1000 + j * 0x100
/-- port statistics WRAP -/
def portSetWrap (i : Nat) (j : Nat) : Nat := 0x80804 + i * 0x1000 + j * 0x100
/-- lane statistics SNAP -/
def laneSetSnap (i : Nat) : Nat := 0x80C00 + i * 0x1000
/-- lane statistics WRAP -/
def laneSetWrap (i : Nat) : Nat := 0x80C04 + i * 0x1000
/-- Courier link statistics SNAP -/
def linkSetSnap (i : Nat) : Nat := 0x1D0800 + i * 0x40
/-- Courier link statistics WRAP -/
def linkSetWrap (i : Nat) : Nat := 0x1D0804 + i * 0x40
/-- redundancy statistics SNAP -/
def redSetSnap (i : Nat) : Nat := 0x180E00 + i * 0x40
/-- redundancy statistics WRAP -/
def redSetWrap (i : Nat) : Nat := 0x180E04 + i * 0x40
/-- port statistics counters (snapshot) -/
def portSetCtr (i : Nat) (j : Nat) (k : Nat) : Nat := 0x80810 + i * 0x1000 + j * 0x100 + k * 0x4
/-- lane statistics counters (snapshot) -/
def laneSetCtr (i : Nat) (j : Nat) : Nat := 0x80C10 + i * 0x1000 + j * 0x4
/-- link statistics counters (snapshot) -/
def linkSetCtr (i : Nat) (j : Nat) : Nat := 0x1D0810 + i * 0x40 + j * 0x4
/-- redundancy statistics counters (snapshot) -/
def redSetCtr (i : Nat) (j : Nat) : Nat := 0x180E10 + i * 0x40 + j * 0x4

end Sys2Proof.Machine.Reg
end

