-- ==== Sys2Proof/Machine/RegTable.lean ====
section
/-! DEFINITION. The description of every register: its places in BAR0, its reset value, and the masks of its
rw, w1c, wo and readable bits with the ranges R577 holds its fields to, each from the register table of its chapter. -/

namespace Sys2Proof.Machine

/-- Registers, part 0. Columns: name, first offset, (stride, count) of each index, reset, rw, w1c, wo and readable masks, own command row, event counter, field ranges (hi, lo, least, greatest). -/
def regTable0 : List RegDesc := [
  ⟨"HALL_ID", 0x0, [], 0x512B001, 0x0, 0x0, 0x0, 0xFFFFFFFF, false, false, []⟩,
  ⟨"HALL_DEVID0..3", 0x10, [(4,4)], 0x0, 0x0, 0x0, 0x0, 0xFFFFFFFF, false, false, []⟩,
  ⟨"HALL_STAT", 0x20, [], 0x0, 0x0, 0x80000000, 0x0, 0x80000000, false, false, []⟩,
  ⟨"HALL_EPOCH_AT_LO", 0x100, [], 0x0, 0xFFFFFFFF, 0x0, 0x0, 0xFFFFFFFF, false, false, []⟩,
  ⟨"HALL_EPOCH_AT_HI", 0x104, [], 0x0, 0xFFFFFFFF, 0x0, 0x0, 0xFFFFFFFF, true, false, []⟩,
  ⟨"HALL_EPOCH_CTL", 0x108, [], 0x0, 0x10000, 0x0, 0x3, 0x10000, false, false, []⟩,
  ⟨"HALL_EPOCH_STATUS", 0x10C, [], 0xFF100100, 0x0, 0x80000, 0x0, 0xFF1FFFFF, false, false, []⟩,
  ⟨"HALL_HATCH_SEL", 0x200, [], 0x0, 0xFFF, 0x0, 0x10000, 0x3000FFF, false, false, []⟩,
  ⟨"HALL_HATCH_STAT", 0x204, [], 0x0, 0x0, 0x0, 0x0, 0xFFFFFF, false, false, []⟩,
  ⟨"HALL_HATCH_PEAK", 0x208, [], 0x0, 0x0, 0x0, 0x0, 0x1F00FF, false, false, []⟩,
  ⟨"HALL_HATCH_WAIT", 0x20C, [], 0x0, 0x0, 0x0, 0x0, 0xFFFFFFFF, false, false, []⟩,
  ⟨"HALL_HATCH_XSTAT", 0x210, [], 0x0, 0x0, 0x0, 0x0, 0x1F1F1F, false, false, []⟩,
  ⟨"HALL_BOOT_STAT", 0x300, [], 0x1100000, 0x0, 0x0, 0x0, 0xCFFFFF03, false, false, []⟩,
  ⟨"HALL_BOOT_CTL", 0x304, [], 0x0, 0x3, 0x0, 0xC0000000, 0x3, false, false, []⟩,
  ⟨"HALL_SB_CFG", 0x400, [], 0x0, 0xC0000000, 0x0, 0x0, 0xF0000000, false, false, []⟩,
  ⟨"HALL_SB_CMD", 0x410, [(64,2)], 0x0, 0x7FE0FFFF, 0x0, 0x80000000, 0x7FE0FFFF, false, false, [(30,29,0,2), (15,8,0,32), (7,0,0,32)]⟩,
  ⟨"HALL_SB_STAT", 0x414, [(64,2)], 0x0, 0x0, 0x0, 0x0, 0xC000000F, false, false, []⟩,
  ⟨"HALL_SB_DATA0..7", 0x418, [(64,2), (4,8)], 0x0, 0xFFFFFFFF, 0x0, 0x0, 0xFFFFFFFF, false, false, []⟩,
  ⟨"HALL_MDIO_CFG", 0x500, [(16,4)], 0xC8, 0xC00001FF, 0x0, 0x0, 0xC00001FF, false, false, [(8,0,40,500)]⟩,
  ⟨"HALL_MDIO_CMD", 0x504, [(16,4)], 0x0, 0x71F1F00, 0x0, 0x80000000, 0x7F1F1F00, false, false, []⟩,
  ⟨"HALL_MDIO_DATA", 0x508, [(16,4)], 0x0, 0xFFFF, 0x0, 0x0, 0xFFFF, false, false, []⟩,
  ⟨"HALL_PF_WIN", 0x600, [(4,16)], 0x0, 0xFF, 0x0, 0x0, 0xFF, false, false, []⟩,
  ⟨"HALL_CNT_CLR", 0x700, [], 0x0, 0x2000007F, 0x0, 0x80000000, 0x6000007F, false, false, [(6,0,0,83)]⟩,
  ⟨"HALL_MBX_CFG", 0x800, [], 0x640E00, 0xFFFFFF, 0x0, 0x0, 0x3FFFFFF, false, false, [(23,16,1,255), (15,0,3584,3647)]⟩,
  ⟨"HALL_IW_ENG", 0xA00, [], 0x0, 0xFF, 0x0, 0x0, 0xFF, false, false, [(7,0,0,227)]⟩,
  ⟨"HALL_IW_SHM", 0xA04, [], 0x0, 0x3F0F, 0x0, 0x0, 0x3F0F, false, false, [(13,8,0,56)]⟩,
  ⟨"HALL_IW_SLICE", 0xA08, [], 0x0, 0xF, 0x0, 0x0, 0xF, false, false, []⟩,
  ⟨"HALL_IW_PORT", 0xA0C, [], 0x0, 0x1FF, 0x0, 0x0, 0x1FF, false, false, []⟩,
  ⟨"HALL_IW_STRONG", 0xA10, [], 0x0, 0x3, 0x0, 0x0, 0x3, false, false, []⟩,
  ⟨"HALL_IW_TAG", 0xA14, [], 0x0, 0xF, 0x0, 0x0, 0xFF, false, false, [(3,0,0,7)]⟩,
  ⟨"HALL_STRAY_CNT", 0xB00, [], 0x0, 0x0, 0x0, 0x0, 0xFFFFFFFF, false, true, []⟩,
  ⟨"HALL_STRAY_ADDR", 0xB04, [], 0x0, 0x0, 0x80000000, 0x0, 0xFC3FFFFF, false, false, []⟩,
  ⟨"HALL_MBX_HDR", 0x1000, [(512,16)], 0x0, 0xFFFFFF00, 0x0, 0x0, 0xFFFFFF00, false, false, [(23,16,0,128)]⟩,
  ⟨"HALL_MBX_CTL", 0x1004, [(512,16)], 0x0, 0x0, 0x0, 0x80000000, 0x0, false, false, []⟩,
  ⟨"HALL_MBX_STAT", 0x1008, [(512,16)], 0x0, 0x0, 0x20000000, 0x0, 0xE0FFFFFF, false, false, []⟩,
  ⟨"HALL_MBX_RHDR", 0x100C, [(512,16)], 0x0, 0x0, 0x0, 0x0, 0x80FFFFFF, false, false, []⟩,
  ⟨"HALL_MBX_REQ", 0x1040, [(512,16), (4,32)], 0x0, 0xFFFFFFFF, 0x0, 0x0, 0xFFFFFFFF, false, false, []⟩,
  ⟨"HALL_MBX_RSP", 0x10C0, [(512,16), (4,32)], 0x0, 0x0, 0x0, 0x0, 0xFFFFFFFF, false, false, []⟩,
  ⟨"MSI-X table", 0x1180, [(512,16), (4,16)], 0x0, 0xFFFFFFFF, 0x0, 0x0, 0xFFFFFFFF, false, false, []⟩,
  ⟨"MSI-X pending bits", 0x11C0, [(512,16)], 0x0, 0x0, 0x0, 0x0, 0xF, false, false, []⟩
]

/-- Registers, part 1. Columns: name, first offset, (stride, count) of each index, reset, rw, w1c, wo and readable masks, own command row, event counter, field ranges (hi, lo, least, greatest). -/
def regTable1 : List RegDesc := [
  ⟨"LIFE_MODE", 0x10000, [], 0x0, 0x0, 0x0, 0x0, 0xFF0F0177, false, false, []⟩,
  ⟨"LIFE_CTL", 0x10004, [], 0x0, 0x1, 0x0, 0xF0000000, 0x1, false, false, []⟩,
  ⟨"LIFE_STAT", 0x10008, [], 0x0, 0x0, 0x80000000, 0x0, 0x80000000, false, false, []⟩,
  ⟨"LIFE_HEALTH", 0x10010, [], 0x0, 0x0, 0x0, 0x0, 0x8000007F, false, false, []⟩,
  ⟨"LIFE_MARGIN0", 0x10014, [], 0x418, 0x0, 0x0, 0x0, 0xFFFF0F1F, false, false, []⟩,
  ⟨"LIFE_MARGIN1", 0x10018, [], 0x7000, 0x0, 0x0, 0x0, 0xFF00FFFF, false, false, []⟩,
  ⟨"LIFE_SAG_CFG", 0x10020, [], 0x64, 0xFF, 0x0, 0x0, 0xFF, false, false, [(7,0,96,106)]⟩,
  ⟨"LIFE_HUC_CFG", 0x10024, [], 0x18F0, 0xFFFF, 0x0, 0x80000000, 0xFFFF, false, false, [(15,8,1,168), (7,0,200,260)]⟩,
  ⟨"LIFE_HUC_STAT", 0x10028, [], 0x0, 0x0, 0x0, 0x0, 0xC0FFFFFF, false, false, []⟩,
  ⟨"LIFE_HUC_E", 0x1002C, [], 0x0, 0x0, 0x0, 0x0, 0xFFFFFFFF, false, false, []⟩,
  ⟨"LIFE_WD_CFG", 0x10030, [], 0x64000A, 0xFFFFFFFF, 0x0, 0x0, 0xFFFFFFFF, false, false, [(31,16,1,10000), (15,0,0,1000)]⟩,
  ⟨"LIFE_SAG_CNT", 0x10040, [], 0x0, 0x0, 0x0, 0x0, 0xFFFFFFFF, false, true, []⟩,
  ⟨"LIFE_DIP_CNT", 0x10044, [], 0x0, 0x0, 0x0, 0x0, 0xFFFFFFFF, false, true, []⟩,
  ⟨"LIFE_WD_DISCARD_CNT", 0x10048, [], 0x0, 0x0, 0x0, 0x0, 0xFFFFFFFF, false, true, []⟩,
  ⟨"EVT_STAT", 0x20000, [], 0x0, 0x0, 0x80000000, 0x0, 0x80000000, false, false, []⟩,
  ⟨"EVT_ALQ_STAT", 0x20004, [], 0x0, 0x0, 0x0, 0x0, 0x7FF01FF, false, false, []⟩,
  ⟨"EVT_ALQ_W0..W7", 0x20010, [(4,8)], 0x0, 0x0, 0x0, 0x0, 0xFFFFFFFF, false, false, []⟩,
  ⟨"EVT_LOG_CFG", 0x20040, [], 0xC000000, 0x8C00FFFF, 0x0, 0x0, 0x8C00FFFF, false, false, []⟩,
  ⟨"EVT_LOG_WPTR", 0x20044, [], 0x0, 0x0, 0x0, 0x0, 0x801FFFFF, false, false, []⟩,
  ⟨"EVT_TRC_CFG", 0x20050, [], 0xA0000, 0x800FFFFF, 0x0, 0x0, 0x800FFFFF, false, false, [(19,16,0,10)]⟩,
  ⟨"EVT_TRC_WPTR", 0x20054, [], 0x0, 0x0, 0x0, 0x0, 0x3FFFFFF, false, false, []⟩,
  ⟨"EVT_TRC_RPTR", 0x20058, [], 0x0, 0x3FFFFFF, 0x0, 0x0, 0x3FFFFFF, false, false, []⟩,
  ⟨"EVT_TRC_MARK", 0x2005C, [], 0x0, 0x0, 0x0, 0xFFFFFFF, 0x0, true, false, []⟩,
  ⟨"EVT_MSIX_MOD v=0", 0x20080, [], 0x80100064, 0x80FFFFFF, 0x0, 0x0, 0x80FFFFFF, false, false, [(23,16,1,255)]⟩,
  ⟨"EVT_MSIX_MOD v=2", 0x20088, [], 0x100064, 0xFFFFFF, 0x0, 0x0, 0xFFFFFF, false, false, [(23,16,1,255)]⟩,
  ⟨"EVT_MSIX_MOD v=3", 0x2008C, [], 0x1100064, 0x7FFFFFFF, 0x0, 0x0, 0x7FFFFFFF, false, false, [(30,24,1,127), (23,16,1,255)]⟩,
  ⟨"EVT_ATTN_CFG", 0x200C0, [], 0x10000001, 0xC0000003, 0x0, 0x0, 0xF0000003, false, false, []⟩,
  ⟨"EVT_WDREQ_STAT", 0x200C4, [], 0x80000000, 0x0, 0x40000000, 0x0, 0xE0000000, false, false, []⟩,
  ⟨"EVT_COALESCE_CNT", 0x20100, [], 0x0, 0x0, 0x0, 0x0, 0xFFFFFFFF, false, true, []⟩,
  ⟨"EVT_LOG_DROP_CNT", 0x20104, [], 0x0, 0x0, 0x0, 0x0, 0xFFFFFFFF, false, true, []⟩,
  ⟨"EVT_TRC_DROP_CNT", 0x20108, [], 0x0, 0x0, 0x0, 0x0, 0xFFFFFFFF, false, true, []⟩,
  ⟨"EVT_MBX_LATE_CNT", 0x2010C, [], 0x0, 0x0, 0x0, 0x0, 0xFFFFFFFF, false, true, []⟩,
  ⟨"EVT_ATTN_MIS_CNT", 0x20110, [], 0x0, 0x0, 0x0, 0x0, 0xFFFFFFFF, false, true, []⟩,
  ⟨"EVT_SB_RECOVER_CNT", 0x20114, [], 0x0, 0x0, 0x0, 0x0, 0xFFFFFFFF, false, true, []⟩,
  ⟨"LEDG_CAP", 0x30000, [], 0xDC, 0xFF, 0x0, 0x0, 0xFF, false, false, [(7,0,60,220)]⟩,
  ⟨"LEDG_RESERVE", 0x30004, [], 0xC0C, 0x80FF1F1F, 0x0, 0x0, 0x80FF1F1F, false, false, [(23,16,0,60), (12,8,4,18), (4,0,4,18)]⟩,
  ⟨"LEDG_THERM", 0x30008, [], 0x5F, 0xFF, 0x0, 0x0, 0x9FFFFFFF, false, false, [(7,0,85,104)]⟩,
  ⟨"LEDG_GOV", 0x3000C, [], 0x100802, 0xFFFFFF, 0x0, 0x0, 0xFFFFFF, false, false, [(23,16,1,255), (15,8,1,16), (7,0,0,15)]⟩,
  ⟨"LEDG_STAT", 0x30010, [], 0x0, 0x0, 0xE0000000, 0x0, 0xE0000000, false, false, []⟩,
  ⟨"LEDG_PARK", 0x30020, [], 0x0, 0x300FF, 0x0, 0x80000000, 0x300FF, false, false, [(17,16,1,3), (7,0,0,223)]⟩
]

/-- Registers, part 2. Columns: name, first offset, (stride, count) of each index, reset, rw, w1c, wo and readable masks, own command row, event counter, field ranges (hi, lo, least, greatest). -/
def regTable2 : List RegDesc := [
  ⟨"LEDG_ISL_SEL", 0x30040, [], 0x0, 0x7F, 0x0, 0x0, 0x7F, false, false, [(6,0,0,82)]⟩,
  ⟨"LEDG_HEAD_LO", 0x30018, [], 0x0, 0x0, 0x0, 0x0, 0xFFFFFFFF, false, false, []⟩,
  ⟨"LEDG_HEAD_HI", 0x3001C, [], 0x0, 0x0, 0x0, 0x0, 0xFFFFFFFF, false, false, []⟩,
  ⟨"LEDG_ISL_CFG", 0x4A0000, [(8,84)], 0x1212, 0x1F, 0x0, 0x0, 0x1F1F, false, false, [(4,0,4,18)]⟩,
  ⟨"LEDG_ISL_E", 0x4A0004, [(8,84)], 0x0, 0x0, 0x0, 0x0, 0xFFFFFFFF, false, false, []⟩,
  ⟨"LEDG_ACCT_CFG", 0x30100, [(16,32)], 0x400, 0x80FFFFFF, 0x0, 0x0, 0x80FFFFFF, false, false, []⟩,
  ⟨"LEDG_ACCT_BAL_LO", 0x30104, [(16,32)], 0x0, 0x0, 0x0, 0x0, 0xFFFFFFFF, false, false, []⟩,
  ⟨"LEDG_ACCT_BAL_HI", 0x30108, [(16,32)], 0x0, 0x0, 0x0, 0x0, 0xFFFFFFFF, false, false, []⟩,
  ⟨"LEDG_ACCT_HOLD", 0x3010C, [(16,32)], 0x0, 0x0, 0x0, 0x0, 0xFFFFFFFF, false, false, []⟩,
  ⟨"LEDG_PARK_ABORT_CNT", 0x30060, [], 0x0, 0x0, 0x0, 0x0, 0xFFFFFFFF, false, true, []⟩,
  ⟨"LEDG_CEIL_CNT", 0x30064, [], 0x0, 0x0, 0x0, 0x0, 0xFFFFFFFF, false, true, []⟩,
  ⟨"LEDG_METER_REJ_CNT", 0x30068, [], 0x0, 0x0, 0x0, 0x0, 0xFFFFFFFF, false, true, []⟩,
  ⟨"TIME_SRC_CFG", 0x40000, [], 0x0, 0xF7F70, 0x0, 0x0, 0xF7F70, false, false, [(14,12,0,3), (6,4,0,3)]⟩,
  ⟨"TIME_STATUS", 0x40004, [], 0x0, 0x0, 0xC0000000, 0x0, 0xC0FFF701, false, false, []⟩,
  ⟨"TIME_STEP", 0x40010, [], 0x0, 0x0, 0x0, 0xFFFFFFFF, 0x0, true, false, []⟩,
  ⟨"TIME_TOD_SEC_LO", 0x40018, [], 0x0, 0xFFFFFFFF, 0x0, 0x0, 0xFFFFFFFF, false, false, []⟩,
  ⟨"TIME_TOD_SEC_HI", 0x4001C, [], 0x0, 0x3, 0x0, 0x0, 0x3, true, false, []⟩,
  ⟨"TIME_IN_CFG", 0x40020, [], 0x0, 0xFFFF, 0x0, 0x0, 0xFFFF, false, false, []⟩,
  ⟨"TIME_OUT_CFG", 0x40024, [], 0x800186A0, 0xC007FFFF, 0x0, 0x0, 0xC007FFFF, false, false, [(18,0,1,500000)]⟩,
  ⟨"TIME_OUT_OFS", 0x40028, [], 0x0, 0xFFFFFFFF, 0x0, 0x0, 0xFFFFFFFF, false, false, []⟩,
  ⟨"TIME_IN_OFF_CNT", 0x40030, [], 0x0, 0x0, 0x0, 0x0, 0xFFFFFFFF, false, true, []⟩,
  ⟨"TIME_IN_GLITCH_CNT", 0x40034, [], 0x0, 0x0, 0x0, 0x0, 0xFFFFFFFF, false, true, []⟩,
  ⟨"TIME_PTP_CFG", 0x40400, [(64,16)], 0x0, 0xFFFF0000, 0x0, 0x0, 0xFFFF0000, false, false, [(30,28,0,3), (26,25,0,2)]⟩,
  ⟨"TEN_CTL", 0x50000, [], 0x0, 0xF, 0x0, 0xC0000000, 0xF, false, false, []⟩,
  ⟨"TEN_STAT", 0x50004, [], 0x0, 0x0, 0x80000000, 0x0, 0x80000000, false, false, []⟩,
  ⟨"TEN_STATUS", 0x50100, [(4,16)], 0x0, 0x0, 0x20000000, 0x0, 0xE0000000, false, false, []⟩,
  ⟨"TEN_DRAM_CFG", 0x50200, [(4,16)], 0x0, 0xFFFF8000, 0x0, 0x0, 0xFFFF8000, false, false, [(31,15,0,65536)]⟩,
  ⟨"TEN_DRAM_BASE", 0x50240, [(4,16)], 0x0, 0xFFFF, 0x0, 0x0, 0xFFFF, false, false, []⟩,
  ⟨"TEN_PORT_MAP", 0x50400, [(4,64)], 0x0, 0xFFFFFFFF, 0x0, 0x0, 0xFFFFFFFF, false, false, []⟩,
  ⟨"TEN_PORT_ACT", 0x50500, [(4,64)], 0x0, 0x0, 0x0, 0x0, 0xFFFFFFFF, false, false, []⟩,
  ⟨"TEN_KSLOT_CFG", 0x50600, [], 0x0, 0x2FC7FFFF, 0x0, 0xC0000000, 0x2FC7FFFF, false, false, []⟩,
  ⟨"TEN_KSLOT_INFO", 0x50604, [], 0x0, 0x0, 0x0, 0x0, 0xCFC7F000, false, false, []⟩,
  ⟨"TEN_KSLOT_DATA0..15", 0x50610, [(4,16)], 0x0, 0xFFFFFFFF, 0x0, 0x0, 0x0, false, false, []⟩,
  ⟨"TEN_DENY_CNT", 0x50700, [], 0x0, 0x0, 0x0, 0x0, 0xFFFFFFFF, false, true, []⟩,
  ⟨"KEY_RING_CFG", 0x60000, [(4,64)], 0x51, 0x8F3F00FF, 0x0, 0x0, 0x8F3F00FF, true, false, []⟩,
  ⟨"KEY_SEL", 0x60100, [], 0x0, 0xFFF, 0x0, 0x80000000, 0x40000FFF, false, false, []⟩,
  ⟨"KEY_STATE", 0x60104, [], 0xFFFF, 0x0, 0x0, 0x0, 0xE07FFFFF, false, false, []⟩,
  ⟨"KEY_HOST_OP", 0x60110, [], 0x0, 0x30FFF, 0x0, 0x80000000, 0x30FFF, false, false, [(17,16,0,1)]⟩,
  ⟨"KEY_HOST_RES", 0x60114, [], 0x0, 0x0, 0x0, 0x0, 0xC00001FF, false, false, []⟩,
  ⟨"KEY_RING_HOST", 0x60118, [], 0x0, 0x7FFFF, 0x0, 0x80000000, 0x7FFFF, false, false, [(18,16,2,7)]⟩
]

/-- Registers, part 3. Columns: name, first offset, (stride, count) of each index, reset, rw, w1c, wo and readable masks, own command row, event counter, field ranges (hi, lo, least, greatest). -/
def regTable3 : List RegDesc := [
  ⟨"KEY_STATUS", 0x60120, [], 0x0, 0x0, 0x80000000, 0x0, 0x80000000, false, false, []⟩,
  ⟨"KEY_DENY_CNT", 0x60130, [], 0x0, 0x0, 0x0, 0x0, 0xFFFFFFFF, false, true, []⟩,
  ⟨"KEY_QFULL_CNT", 0x60134, [], 0x0, 0x0, 0x0, 0x0, 0xFFFFFFFF, false, true, []⟩,
  ⟨"KEY_ABANDON_CNT", 0x60138, [], 0x0, 0x0, 0x0, 0x0, 0xFFFFFFFF, false, true, []⟩,
  ⟨"KEY_RING_DENY_CNT", 0x6013C, [], 0x0, 0x0, 0x0, 0x0, 0xFFFFFFFF, false, true, []⟩,
  ⟨"CELL_CKPT_CFG", 0x70000, [], 0x80000060, 0x800000FF, 0x0, 0x0, 0x800000FF, false, false, [(7,0,1,112)]⟩,
  ⟨"CELL_STAT", 0x70004, [], 0x0, 0x0, 0x0, 0x0, 0xF80F00FF, false, false, []⟩,
  ⟨"CELL_PREV_SEQ_LO", 0x70008, [], 0x0, 0x0, 0x0, 0x0, 0xFFFFFFFF, false, false, []⟩,
  ⟨"CELL_PREV_SEQ_HI", 0x7000C, [], 0x0, 0x0, 0x0, 0x0, 0xFFFFFFFF, false, false, []⟩,
  ⟨"CELL_PREV_PM_LO", 0x70010, [], 0x0, 0x0, 0x0, 0x0, 0xFFFFFFFF, false, false, []⟩,
  ⟨"CELL_PREV_PM_HI", 0x70014, [], 0x0, 0x0, 0x0, 0x0, 0xFFFFFFFF, false, false, []⟩,
  ⟨"CELL_CKPT_FAIL_CNT", 0x70040, [], 0x0, 0x0, 0x0, 0x0, 0xFFFFFFFF, false, true, []⟩,
  ⟨"CELL_REMAP_CNT", 0x70044, [], 0x0, 0x0, 0x0, 0x0, 0xFFFFFFFF, false, true, []⟩,
  ⟨"PORT_LANE_CFG", 0x80000, [(4096,128)], 0x0, 0xF900FF, 0x0, 0x0, 0xF900FF, true, false, [(6,4,0,2)]⟩,
  ⟨"PORT_LANE_STAT", 0x80004, [(4096,128)], 0x0, 0x0, 0x80000000, 0x0, 0x800000FF, false, false, []⟩,
  ⟨"PORT_MAC_CFG", 0x80100, [(4096,128), (256,4)], 0x5F2, 0x393FFF, 0x0, 0x0, 0x393FFF, false, false, [(21,20,0,2), (13,0,1518,9216)]⟩,
  ⟨"PORT_CT_CFG", 0x80104, [(4096,128), (256,4)], 0x0, 0xFF, 0x0, 0x0, 0xFF, false, false, []⟩,
  ⟨"PORT_STALL_CFG", 0x80108, [(4096,128), (256,4)], 0x0, 0xFFFF, 0x0, 0x0, 0xFFFF, false, false, []⟩,
  ⟨"PORT_PREEMPT_CFG", 0x8010C, [(4096,128), (256,4)], 0xA00, 0xFF0F, 0x0, 0x0, 0xFF0F, false, false, [(15,8,1,128)]⟩,
  ⟨"PORT_PREEMPT_STAT", 0x80110, [(4096,128), (256,4)], 0x0, 0x0, 0x0, 0x0, 0x17, false, false, []⟩,
  ⟨"PORT_TS_ADJ", 0x80114, [(4096,128), (256,4)], 0x0, 0xFFFFFFFF, 0x0, 0x0, 0xFFFFFFFF, false, false, []⟩,
  ⟨"PORT_SAMPLE_CFG", 0x80118, [(4096,128), (256,4)], 0x0, 0xFFFF, 0x0, 0x0, 0xFFFF, false, false, []⟩,
  ⟨"PORT_EDIT_CFG", 0x80180, [(4096,128), (256,4)], 0x1800, 0xFFFFF800, 0x0, 0x0, 0xFFFFF800, false, false, [(23,12,1,4094)]⟩,
  ⟨"PORT_XPOL_CFG", 0x80188, [(4096,128), (256,4)], 0x864, 0x8FFFFF7F, 0x0, 0x0, 0x8FFFFF7F, true, false, [(27,12,1,65535), (11,8,1,8), (6,0,1,100)]⟩,
  ⟨"PORT_XLAT_CFG", 0x80190, [(4096,128), (256,4)], 0x0, 0x80FFFFFF, 0x0, 0x0, 0x80FFFFFF, false, false, []⟩,
  ⟨"PORT_XLAT_MAX", 0x80194, [(4096,128), (256,4)], 0x0, 0x0, 0x0, 0x0, 0xFFFFFFFF, false, false, []⟩,
  ⟨"PORT_MACSEC_CFG", 0x801A0, [(4096,128), (256,4)], 0x12000000, 0xFFC0FFFF, 0x0, 0x0, 0xFFC0FFFF, false, false, [(27,26,0,2), (25,24,0,2)]⟩,
  ⟨"PORT_TSQ_W0", 0x80120, [(4096,128), (256,4)], 0x0, 0x0, 0x0, 0x0, 0xFFFFFFFF, false, false, []⟩,
  ⟨"PORT_TSQ_W1", 0x80124, [(4096,128), (256,4)], 0x0, 0x0, 0x0, 0x0, 0xFFFFFFFF, false, false, []⟩,
  ⟨"PORT_TSQ_W2", 0x80128, [(4096,128), (256,4)], 0x0, 0x0, 0x0, 0x0, 0xFFFFFFFF, false, false, []⟩,
  ⟨"PORT_TSQ_W3", 0x8012C, [(4096,128), (256,4)], 0x0, 0x0, 0x0, 0x0, 0x80000FFF, false, false, []⟩,
  ⟨"PORT_STALL_CNT", 0x80140, [(4096,128), (256,4)], 0x0, 0x0, 0x0, 0x0, 0xFFFFFFFF, false, true, []⟩,
  ⟨"PORT_RESYNC_CNT", 0x80144, [(4096,128), (256,4)], 0x0, 0x0, 0x0, 0x0, 0xFFFFFFFF, false, true, []⟩,
  ⟨"PORT_EGR_ABORT_CNT", 0x80148, [(4096,128), (256,4)], 0x0, 0x0, 0x0, 0x0, 0xFFFFFFFF, false, true, []⟩,
  ⟨"PORT_UNDERRUN_CNT", 0x8014C, [(4096,128), (256,4)], 0x0, 0x0, 0x0, 0x0, 0xFFFFFFFF, false, true, []⟩,
  ⟨"PORT_RUNT_CNT", 0x80150, [(4096,128), (256,4)], 0x0, 0x0, 0x0, 0x0, 0xFFFFFFFF, false, true, []⟩,
  ⟨"PORT_OVERSIZE_CNT", 0x80154, [(4096,128), (256,4)], 0x0, 0x0, 0x0, 0x0, 0xFFFFFFFF, false, true, []⟩,
  ⟨"PORT_MACCTL_CNT", 0x80158, [(4096,128), (256,4)], 0x0, 0x0, 0x0, 0x0, 0xFFFFFFFF, false, true, []⟩,
  ⟨"PORT_LINKDOWN_DROP_CNT", 0x8015C, [(4096,128), (256,4)], 0x0, 0x0, 0x0, 0x0, 0xFFFFFFFF, false, true, []⟩,
  ⟨"PORT_TSQ_OVF_CNT", 0x80160, [(4096,128), (256,4)], 0x0, 0x0, 0x0, 0x0, 0xFFFFFFFF, false, true, []⟩
]

/-- Registers, part 4. Columns: name, first offset, (stride, count) of each index, reset, rw, w1c, wo and readable masks, own command row, event counter, field ranges (hi, lo, least, greatest). -/
def regTable4 : List RegDesc := [
  ⟨"PORT_FRAG_ERR_CNT", 0x80164, [(4096,128), (256,4)], 0x0, 0x0, 0x0, 0x0, 0xFFFFFFFF, false, true, []⟩,
  ⟨"PORT_XPOL_CNT", 0x8018C, [(4096,128), (256,4)], 0x0, 0x0, 0x0, 0x0, 0xFFFFFFFF, false, true, []⟩,
  ⟨"PORT_XLAT_OVER_CNT", 0x80198, [(4096,128), (256,4)], 0x0, 0x0, 0x0, 0x0, 0xFFFFFFFF, false, true, []⟩,
  ⟨"PORT_MACSEC_ICV_CNT", 0x801A4, [(4096,128), (256,4)], 0x0, 0x0, 0x0, 0x0, 0xFFFFFFFF, false, true, []⟩,
  ⟨"PORT_MACSEC_REPLAY_CNT", 0x801A8, [(4096,128), (256,4)], 0x0, 0x0, 0x0, 0x0, 0xFFFFFFFF, false, true, []⟩,
  ⟨"PORT_MACSEC_NOSA_CNT", 0x801AC, [(4096,128), (256,4)], 0x0, 0x0, 0x0, 0x0, 0xFFFFFFFF, false, true, []⟩,
  ⟨"PORT_MACSEC_UNTAG_CNT", 0x801B0, [(4096,128), (256,4)], 0x0, 0x0, 0x0, 0x0, 0xFFFFFFFF, false, true, []⟩,
  ⟨"PORT_MACSEC_PN_CNT", 0x801B4, [(4096,128), (256,4)], 0x0, 0x0, 0x0, 0x0, 0xFFFFFFFF, false, true, []⟩,
  ⟨"SORT_STAT", 0x100004, [(32768,16)], 0x0, 0x0, 0x80000000, 0x0, 0x80000000, false, false, []⟩,
  ⟨"SORT_PARSE_ERR_CNT", 0x100008, [(32768,16)], 0x0, 0x0, 0x0, 0x0, 0xFFFFFFFF, false, true, []⟩,
  ⟨"SORT_ADMIT_CFG", 0x100010, [(32768,16)], 0x400000, 0x1FF0000, 0x0, 0x0, 0x1FF0000, false, false, [(24,16,0,256)]⟩,
  ⟨"SORT_PROTO_CLASS", 0x100014, [(32768,16)], 0xFFE, 0xFFFFFF, 0x0, 0x0, 0xFFFFFF, false, false, []⟩,
  ⟨"SORT_ADMIT_LIM", 0x100020, [(32768,16), (4,8)], 0x200, 0x3FF, 0x0, 0x0, 0x3FF, false, false, [(9,0,1,512)]⟩,
  ⟨"SORT_PORT_CFG", 0x100400, [(32768,16), (16,32)], 0x1, 0xFE380FFF, 0x0, 0x0, 0xFE380FFF, false, false, [(31,30,0,2), (11,0,1,4094)]⟩,
  ⟨"SORT_PORT_CLASS", 0x100404, [(32768,16), (16,32)], 0xFAC688, 0xFFFFFF, 0x0, 0x0, 0xFFFFFF, false, false, []⟩,
  ⟨"SORT_PORT_CT", 0x100408, [(32768,16), (16,32)], 0x0, 0xFFFF, 0x0, 0x0, 0xFFFF, false, false, []⟩,
  ⟨"SORT_REFUSE_CNT", 0x101000, [(32768,16), (32,32), (4,8)], 0x0, 0x0, 0x0, 0x0, 0xFFFFFFFF, false, true, []⟩,
  ⟨"DIR_CMD_KEY0", 0x102000, [(32768,16)], 0x0, 0xFFFFFFFF, 0x0, 0x0, 0xFFFFFFFF, false, false, []⟩,
  ⟨"DIR_CMD_KEY1", 0x102004, [(32768,16)], 0x0, 0xFFFFFFFF, 0x0, 0x0, 0xFFFFFFFF, false, false, []⟩,
  ⟨"DIR_CMD_KEY2", 0x102008, [(32768,16)], 0x0, 0xFFFFFFFF, 0x0, 0x0, 0xFFFFFFFF, false, false, []⟩,
  ⟨"DIR_CMD_KEY3", 0x10200C, [(32768,16)], 0x0, 0xFFFFFFFF, 0x0, 0x0, 0xFFFFFFFF, false, false, []⟩,
  ⟨"DIR_CMD_KEY4", 0x102010, [(32768,16)], 0x0, 0xFFFFFFFF, 0x0, 0x0, 0xFFFFFFFF, false, false, []⟩,
  ⟨"DIR_CMD_KEY5", 0x102014, [(32768,16)], 0x0, 0xFFFFFFFF, 0x0, 0x0, 0xFFFFFFFF, false, false, []⟩,
  ⟨"DIR_CMD_MASK0", 0x102018, [(32768,16)], 0x0, 0xFFFFFFFF, 0x0, 0x0, 0xFFFFFFFF, false, false, []⟩,
  ⟨"DIR_CMD_MASK1", 0x10201C, [(32768,16)], 0x0, 0xFFFFFFFF, 0x0, 0x0, 0xFFFFFFFF, false, false, []⟩,
  ⟨"DIR_CMD_MASK2", 0x102020, [(32768,16)], 0x0, 0xFFFFFFFF, 0x0, 0x0, 0xFFFFFFFF, false, false, []⟩,
  ⟨"DIR_CMD_MASK3", 0x102024, [(32768,16)], 0x0, 0xFFFFFFFF, 0x0, 0x0, 0xFFFFFFFF, false, false, []⟩,
  ⟨"DIR_CMD_MASK4", 0x102028, [(32768,16)], 0x0, 0xFFFFFFFF, 0x0, 0x0, 0xFFFFFFFF, false, false, []⟩,
  ⟨"DIR_CMD_MASK5", 0x10202C, [(32768,16)], 0x0, 0xFFFFFFFF, 0x0, 0x0, 0xFFFFFFFF, false, false, []⟩,
  ⟨"DIR_CMD_DATA0", 0x102030, [(32768,16)], 0x0, 0xFFFFFFFF, 0x0, 0x0, 0xFFFFFFFF, false, false, []⟩,
  ⟨"DIR_CMD_DATA1", 0x102034, [(32768,16)], 0x0, 0xFFFFFFFF, 0x0, 0x0, 0xFFFFFFFF, false, false, []⟩,
  ⟨"DIR_CMD", 0x102040, [(32768,16)], 0x0, 0x30F0F, 0x0, 0x80000000, 0x30F0F, false, false, []⟩,
  ⟨"DIR_CMD_STAT", 0x102044, [(32768,16)], 0x0, 0x0, 0x10000000, 0x0, 0xFFFFFFFF, false, false, []⟩,
  ⟨"DIR_HASH_CFG (STATIC)", 0x102110, [(32768,16)], 0x8, 0x10F, 0x0, 0x0, 0x10F, false, false, []⟩,
  ⟨"DIR_HASH_SEED (STATIC)", 0x102114, [(32768,16)], 0x0, 0x0, 0x0, 0x0, 0xFFFFFFFF, false, false, []⟩,
  ⟨"DIR_HASH_NEW_SEED (STATIC)", 0x102118, [(32768,16)], 0x0, 0xFFFFFFFF, 0x0, 0x0, 0xFFFFFFFF, false, false, []⟩,
  ⟨"DIR_REHASH (STATIC)", 0x10211C, [(32768,16)], 0x0, 0x0, 0x0, 0x3, 0xE0000000, false, false, []⟩,
  ⟨"DIR_HASH_CFG (LEARN)", 0x102120, [(32768,16)], 0x8, 0x10F, 0x0, 0x0, 0x10F, false, false, []⟩,
  ⟨"DIR_HASH_SEED (LEARN)", 0x102124, [(32768,16)], 0x0, 0x0, 0x0, 0x0, 0xFFFFFFFF, false, false, []⟩,
  ⟨"DIR_HASH_NEW_SEED (LEARN)", 0x102128, [(32768,16)], 0x0, 0xFFFFFFFF, 0x0, 0x0, 0xFFFFFFFF, false, false, []⟩
]

/-- Registers, part 5. Columns: name, first offset, (stride, count) of each index, reset, rw, w1c, wo and readable masks, own command row, event counter, field ranges (hi, lo, least, greatest). -/
def regTable5 : List RegDesc := [
  ⟨"DIR_REHASH (LEARN)", 0x10212C, [(32768,16)], 0x0, 0x0, 0x0, 0x3, 0xE0000000, false, false, []⟩,
  ⟨"DIR_HASH_CFG (EXT)", 0x102160, [(32768,16)], 0x4, 0x10F, 0x0, 0x0, 0x10F, false, false, []⟩,
  ⟨"DIR_HASH_SEED (EXT)", 0x102164, [(32768,16)], 0x0, 0x0, 0x0, 0x0, 0xFFFFFFFF, false, false, []⟩,
  ⟨"DIR_HASH_NEW_SEED (EXT)", 0x102168, [(32768,16)], 0x0, 0xFFFFFFFF, 0x0, 0x0, 0xFFFFFFFF, false, false, []⟩,
  ⟨"DIR_REHASH (EXT)", 0x10216C, [(32768,16)], 0x0, 0x0, 0x0, 0x3, 0xE0000000, false, false, []⟩,
  ⟨"DIR_LEARN_CFG", 0x102200, [(32768,16)], 0xC000012C, 0xC000FFFF, 0x0, 0x0, 0xC000FFFF, false, false, [(15,0,1,32000)]⟩,
  ⟨"DIR_AGE_NOW", 0x102204, [(32768,16)], 0x0, 0x0, 0x0, 0x0, 0xFFFF, false, false, []⟩,
  ⟨"DIR_TERN_SEL", 0x102300, [(32768,16)], 0x0, 0xFFFFFFFF, 0x0, 0x0, 0xFFFFFFFF, false, false, []⟩,
  ⟨"DIR_LPM_USE", 0x102308, [(32768,16)], 0x0, 0x0, 0x0, 0x0, 0x7FFFFF, false, false, []⟩,
  ⟨"DIR_LPM_BLK", 0x10230C, [(32768,16)], 0x0, 0x0, 0x0, 0x0, 0xFFFFF, false, false, []⟩,
  ⟨"DIR_INS_FAIL_CNT", 0x102500, [(32768,16)], 0x0, 0x0, 0x0, 0x0, 0xFFFFFFFF, false, true, []⟩,
  ⟨"DIR_LEARN_DROP_CNT", 0x102504, [(32768,16)], 0x0, 0x0, 0x0, 0x0, 0xFFFFFFFF, false, true, []⟩,
  ⟨"DIR_LEARN_LIMIT_CNT", 0x102508, [(32768,16)], 0x0, 0x0, 0x0, 0x0, 0xFFFFFFFF, false, true, []⟩,
  ⟨"DIR_MOVE_CNT", 0x10250C, [(32768,16)], 0x0, 0x0, 0x0, 0x0, 0xFFFFFFFF, false, true, []⟩,
  ⟨"DIR_AGE_OUT_CNT", 0x102510, [(32768,16)], 0x0, 0x0, 0x0, 0x0, 0xFFFFFFFF, false, true, []⟩,
  ⟨"DIR_EXT_TIMEOUT_CNT", 0x102514, [(32768,16)], 0x0, 0x0, 0x0, 0x0, 0xFFFFFFFF, false, true, []⟩,
  ⟨"DIR_EXT_POOL_FULL_CNT", 0x102518, [(32768,16)], 0x0, 0x0, 0x0, 0x0, 0xFFFFFFFF, false, true, []⟩,
  ⟨"DIR_EXT_ERR_CNT", 0x10251C, [(32768,16)], 0x0, 0x0, 0x0, 0x0, 0xFFFFFFFF, false, true, []⟩,
  ⟨"DIR_EPOCH_LATE_CNT", 0x102520, [(32768,16)], 0x0, 0x0, 0x0, 0x0, 0xFFFFFFFF, false, true, []⟩,
  ⟨"DIR_TEN_LIMIT", 0x102600, [(32768,16), (4,16)], 0x40000, 0x7FFFF, 0x0, 0x0, 0x7FFFF, false, false, [(18,0,0,262144)]⟩,
  ⟨"STN_GATE_CFG", 0x104100, [(32768,16), (4096,3)], 0x32, 0x3FF, 0x0, 0x0, 0x3FF, false, false, [(9,0,1,1000)]⟩,
  ⟨"STN_GATE_STAT", 0x104104, [(32768,16), (4096,3)], 0x0, 0x0, 0x80000000, 0x0, 0x8000007F, false, false, []⟩,
  ⟨"STN_VOID_CNT", 0x104108, [(32768,16), (4096,3)], 0x0, 0x0, 0x0, 0x0, 0xFFFFFFFF, false, true, []⟩,
  ⟨"STN_RSV_FIX_CNT", 0x10410C, [(32768,16), (4096,3)], 0x0, 0x0, 0x0, 0x0, 0xFFFFFFFF, false, true, []⟩,
  ⟨"STN_LATE_REL_CNT", 0x104110, [(32768,16), (4096,3)], 0x0, 0x0, 0x0, 0x0, 0xFFFFFFFF, false, true, []⟩,
  ⟨"STN_STANDBY", 0x104120, [(32768,16), (4096,3)], 0x0, 0x7, 0x80000000, 0x0, 0x800000B7, true, false, []⟩,
  ⟨"STN_TAP_COLL_CNT", 0x104130, [(32768,16), (4096,3)], 0x0, 0x0, 0x0, 0x0, 0xFFFFFFFF, false, true, []⟩,
  ⟨"STN_TAP_DEC_ERR_CNT", 0x104134, [(32768,16), (4096,3)], 0x0, 0x0, 0x0, 0x0, 0xFFFFFFFF, false, true, []⟩,
  ⟨"STN_PAGE_OWN0..1", 0x104140, [(32768,16), (4096,3), (4,2)], 0x0, 0xFFFFFFFF, 0x0, 0x0, 0xFFFFFFFF, false, false, []⟩,
  ⟨"STN_ENG_SLOT0..3", 0x104200, [(32768,16), (4096,3), (64,4), (4,4)], 0x0, 0x0, 0x0, 0x0, 0xFFFFFFFF, false, false, []⟩,
  ⟨"STN_ENG_SHADOW0..3", 0x104210, [(32768,16), (4096,3), (64,4), (4,4)], 0x0, 0xFFFFFFFF, 0x0, 0x0, 0xFFFFFFFF, false, false, []⟩,
  ⟨"STN_ENG_CTL", 0x104220, [(32768,16), (4096,3), (64,4)], 0x0, 0x0, 0x0, 0x103, 0x0, false, false, []⟩,
  ⟨"STN_ENG_STAT", 0x104224, [(32768,16), (4096,3), (64,4)], 0x0, 0x0, 0x80000000, 0x0, 0xFEC00000, false, false, []⟩,
  ⟨"STN_ENG_NP_DISC_CNT", 0x104228, [(32768,16), (4096,3), (64,4)], 0x0, 0x0, 0x0, 0x0, 0xFFFFFFFF, false, true, []⟩,
  ⟨"STN_ENG_ECC_CNT", 0x10422C, [(32768,16), (4096,3), (64,4)], 0x0, 0x0, 0x0, 0x0, 0xFFFFFFFF, false, true, []⟩,
  ⟨"STN_THR_CFG", 0x104400, [(32768,16), (4096,3), (16,64)], 0x0, 0xEF00FFFF, 0x0, 0x0, 0xEF00FFFF, true, false, []⟩,
  ⟨"STN_THR_CTL", 0x104404, [(32768,16), (4096,3), (16,64)], 0x0, 0x0, 0x0, 0xF, 0x0, false, false, []⟩,
  ⟨"STN_THR_STAT", 0x104408, [(32768,16), (4096,3), (16,64)], 0x0, 0x0, 0x10000000, 0x0, 0xF0FF0000, false, false, []⟩,
  ⟨"STN_THR_PC", 0x10440C, [(32768,16), (4096,3), (16,64)], 0x0, 0x0, 0x0, 0x0, 0xFFFF, false, false, []⟩,
  ⟨"WSHOP_ENG_SLOT0..3", 0x1A8200, [(4096,8), (64,4), (4,4)], 0x0, 0x0, 0x0, 0x0, 0xFFFFFFFF, false, false, []⟩
]

/-- Registers, part 6. Columns: name, first offset, (stride, count) of each index, reset, rw, w1c, wo and readable masks, own command row, event counter, field ranges (hi, lo, least, greatest). -/
def regTable6 : List RegDesc := [
  ⟨"WSHOP_ENG_SHADOW0..3", 0x1A8210, [(4096,8), (64,4), (4,4)], 0x0, 0xFFFFFFFF, 0x0, 0x0, 0xFFFFFFFF, false, false, []⟩,
  ⟨"WSHOP_ENG_CTL", 0x1A8220, [(4096,8), (64,4)], 0x0, 0x0, 0x0, 0x103, 0x0, false, false, []⟩,
  ⟨"WSHOP_ENG_STAT", 0x1A8224, [(4096,8), (64,4)], 0x0, 0x0, 0x80000000, 0x0, 0xFEC00000, false, false, []⟩,
  ⟨"WSHOP_ENG_NP_DISC_CNT", 0x1A8228, [(4096,8), (64,4)], 0x0, 0x0, 0x0, 0x0, 0xFFFFFFFF, false, true, []⟩,
  ⟨"WSHOP_ENG_ECC_CNT", 0x1A822C, [(4096,8), (64,4)], 0x0, 0x0, 0x0, 0x0, 0xFFFFFFFF, false, true, []⟩,
  ⟨"WSHOP_THR_CFG", 0x1A8400, [(4096,8), (16,64)], 0x0, 0xEF00FFFF, 0x0, 0x0, 0xEF00FFFF, true, false, []⟩,
  ⟨"WSHOP_THR_CTL", 0x1A8404, [(4096,8), (16,64)], 0x0, 0x0, 0x0, 0xF, 0x0, false, false, []⟩,
  ⟨"WSHOP_THR_STAT", 0x1A8408, [(4096,8), (16,64)], 0x0, 0x0, 0x10000000, 0x0, 0xF0FF0000, false, false, []⟩,
  ⟨"WSHOP_THR_PC", 0x1A840C, [(4096,8), (16,64)], 0x0, 0x0, 0x0, 0x0, 0xFFFF, false, false, []⟩,
  ⟨"HALL_ENG_SLOT0..3", 0x8200, [(64,4), (4,4)], 0x0, 0x0, 0x0, 0x0, 0xFFFFFFFF, false, false, []⟩,
  ⟨"HALL_ENG_SHADOW0..3", 0x8210, [(64,4), (4,4)], 0x0, 0xFFFFFFFF, 0x0, 0x0, 0xFFFFFFFF, false, false, []⟩,
  ⟨"HALL_ENG_CTL", 0x8220, [(64,4)], 0x0, 0x0, 0x0, 0x103, 0x0, false, false, []⟩,
  ⟨"HALL_ENG_STAT", 0x8224, [(64,4)], 0x0, 0x0, 0x80000000, 0x0, 0xFEC00000, false, false, []⟩,
  ⟨"HALL_ENG_NP_DISC_CNT", 0x8228, [(64,4)], 0x0, 0x0, 0x0, 0x0, 0xFFFFFFFF, false, true, []⟩,
  ⟨"HALL_ENG_ECC_CNT", 0x822C, [(64,4)], 0x0, 0x0, 0x0, 0x0, 0xFFFFFFFF, false, true, []⟩,
  ⟨"HALL_THR_CFG", 0x8400, [(16,64)], 0x0, 0xEF00FFFF, 0x0, 0x0, 0xEF00FFFF, true, false, []⟩,
  ⟨"HALL_THR_CTL", 0x8404, [(16,64)], 0x0, 0x0, 0x0, 0xF, 0x0, false, false, []⟩,
  ⟨"HALL_THR_STAT", 0x8408, [(16,64)], 0x0, 0x0, 0x10000000, 0x0, 0xF0FF0000, false, false, []⟩,
  ⟨"HALL_THR_PC", 0x840C, [(16,64)], 0x0, 0x0, 0x0, 0x0, 0xFFFF, false, false, []⟩,
  ⟨"WSHOP_PAGE_OWN0..7", 0x1A8140, [(4096,8), (4,8)], 0x0, 0xFFFFFFFF, 0x0, 0x0, 0xFFFFFFFF, false, false, []⟩,
  ⟨"HELP_STAT", 0x107000, [(32768,16)], 0x0, 0x0, 0x0, 0x0, 0xF, false, false, []⟩,
  ⟨"HELP_VOID_CNT", 0x107100, [(32768,16)], 0x0, 0x0, 0x0, 0x0, 0xFFFFFFFF, false, true, []⟩,
  ⟨"HELP_ERR_CNT", 0x107104, [(32768,16)], 0x0, 0x0, 0x0, 0x0, 0xFFFFFFFF, false, true, []⟩,
  ⟨"HELP_AUTH_FAIL_CNT", 0x107108, [(32768,16)], 0x0, 0x0, 0x0, 0x0, 0xFFFFFFFF, false, true, []⟩,
  ⟨"HELP_YIELD_CNT", 0x10710C, [(32768,16)], 0x0, 0x0, 0x0, 0x0, 0xFFFFFFFF, false, true, []⟩,
  ⟨"HELP_LATE_CNT", 0x107110, [(32768,16)], 0x0, 0x0, 0x0, 0x0, 0xFFFFFFFF, false, true, []⟩,
  ⟨"DEPOT_STAT", 0x180000, [], 0x0, 0x0, 0x80000000, 0x0, 0x80000000, false, false, []⟩,
  ⟨"DEPOT_POOL_CFG", 0x180004, [], 0x4000, 0x7FFFF, 0x0, 0x0, 0x7FFFF, false, false, [(18,0,0,393216)]⟩,
  ⟨"DEPOT_LAND_CFG", 0x180008, [], 0x2000, 0xFFFF, 0x0, 0x0, 0xFFFF, false, false, [(15,0,256,24576)]⟩,
  ⟨"DEPOT_PH_SEL", 0x180100, [], 0x0, 0x1FFF, 0x0, 0x0, 0x1FFF, false, false, [(12,0,0,4415)]⟩,
  ⟨"DEPOT_PORT_SEL", 0x180200, [], 0x0, 0x1FF, 0x0, 0x0, 0x1FF, false, false, []⟩,
  ⟨"DEPOT_SAMPLE_CFG", 0x180420, [], 0x0, 0x3F, 0x0, 0x0, 0x3F, false, false, []⟩,
  ⟨"DEPOT_POOL_STAT", 0x18000C, [], 0x0, 0x0, 0x0, 0x0, 0x7FFFF, false, false, []⟩,
  ⟨"DEPOT_XPOOL_STAT", 0x180010, [], 0x0, 0x0, 0x0, 0x0, 0x7FFFF, false, false, []⟩,
  ⟨"DEPOT_PH_CFG", 0x400000, [(64,4416)], 0x9600020, 0xFF0FFFF, 0x0, 0x0, 0xFF0FFFF, false, false, [(23,20,0,9)]⟩,
  ⟨"DEPOT_PH_WRED colour 0", 0x400004, [(64,4416)], 0x0, 0xFFFFFFFF, 0x0, 0x0, 0xFFFFFFFF, false, false, []⟩,
  ⟨"DEPOT_PH_WRED colour 1", 0x400008, [(64,4416)], 0x0, 0xFFFFFFFF, 0x0, 0x0, 0xFFFFFFFF, false, false, []⟩,
  ⟨"DEPOT_PH_WRED colour 2", 0x40000C, [(64,4416)], 0x0, 0xFFFFFFFF, 0x0, 0x0, 0xFFFFFFFF, false, false, []⟩,
  ⟨"DEPOT_PH_OCC", 0x400010, [(64,4416)], 0x0, 0x0, 0x0, 0x0, 0x7FFFF, false, false, []⟩,
  ⟨"DEPOT_PH_AVG", 0x400014, [(64,4416)], 0x0, 0x0, 0x0, 0x0, 0x7FFFF, false, false, []⟩
]

/-- Registers, part 7. Columns: name, first offset, (stride, count) of each index, reset, rw, w1c, wo and readable masks, own command row, event counter, field ranges (hi, lo, least, greatest). -/
def regTable7 : List RegDesc := [
  ⟨"DEPOT_PH_DROP_CNT", 0x400018, [(64,4416)], 0x0, 0x0, 0x0, 0x0, 0xFFFFFFFF, false, true, []⟩,
  ⟨"DEPOT_PH_WRED_CNT", 0x40001C, [(64,4416)], 0x0, 0x0, 0x0, 0x0, 0xFFFFFFFF, false, true, []⟩,
  ⟨"DEPOT_PH_ECN_CNT", 0x400020, [(64,4416)], 0x0, 0x0, 0x0, 0x0, 0xFFFFFFFF, false, true, []⟩,
  ⟨"DEPOT_PORT_SCHED", 0x480004, [(32,512)], 0x4010, 0x7FFF, 0x0, 0x0, 0x7FFF, false, false, [(7,0,2,64)]⟩,
  ⟨"DEPOT_PORT_QUANT0", 0x480008, [(32,512)], 0x18181818, 0xFFFFFFFF, 0x0, 0x0, 0xFFFFFFFF, false, false, []⟩,
  ⟨"DEPOT_PORT_QUANT1", 0x48000C, [(32,512)], 0x181818, 0xFFFFFF, 0x0, 0x0, 0xFFFFFF, false, false, []⟩,
  ⟨"DEPOT_PORT_GATE_CTL", 0x480010, [(32,512)], 0x1, 0x8000003F, 0x0, 0x40000000, 0xA0003F3F, false, false, [(5,0,1,32)]⟩,
  ⟨"DEPOT_PORT_GATE_BASE_LO", 0x480014, [(32,512)], 0x0, 0xFFFFFFFF, 0x0, 0x0, 0xFFFFFFFF, false, false, []⟩,
  ⟨"DEPOT_PORT_GATE_BASE_HI", 0x480018, [(32,512)], 0x0, 0xFFFFFFFF, 0x0, 0x0, 0xFFFFFFFF, false, false, []⟩,
  ⟨"DEPOT_MIR_CFG", 0x180400, [(4,8)], 0x0, 0xF03FFFFF, 0x0, 0x0, 0xF03FFFFF, false, false, [(30,29,0,2)]⟩,
  ⟨"DEPOT_MC_SEL", 0x180600, [], 0x0, 0x3FFF, 0x0, 0xC0000000, 0x3FFF, false, false, []⟩,
  ⟨"DEPOT_MC_DATA0..17", 0x180604, [(4,18)], 0x0, 0xFFFFFFFF, 0x0, 0x0, 0xFFFFFFFF, false, false, []⟩,
  ⟨"DEPOT_VOID_CNT", 0x180804, [(4,8)], 0x0, 0x0, 0x0, 0x0, 0xFFFFFFFF, false, true, []⟩,
  ⟨"DEPOT_VOID_FW_CNT", 0x180824, [], 0x0, 0x0, 0x0, 0x0, 0xFFFFFFFF, false, true, []⟩,
  ⟨"DEPOT_LAND_FULL_CNT", 0x180830, [], 0x0, 0x0, 0x0, 0x0, 0xFFFFFFFF, false, true, []⟩,
  ⟨"DEPOT_NOPORT_CNT", 0x180834, [], 0x0, 0x0, 0x0, 0x0, 0xFFFFFFFF, false, true, []⟩,
  ⟨"DEPOT_MC_BAD_CNT", 0x180838, [], 0x0, 0x0, 0x0, 0x0, 0xFFFFFFFF, false, true, []⟩,
  ⟨"DEPOT_CELL_ECC_CNT", 0x18083C, [], 0x0, 0x0, 0x0, 0x0, 0xFFFFFFFF, false, true, []⟩,
  ⟨"DEPOT_LEAK_CELLS", 0x180840, [], 0x0, 0x0, 0x0, 0x0, 0xFFFFFFFF, false, true, []⟩,
  ⟨"DEPOT_RED_CFG word 0", 0x180A00, [(16,16)], 0x0, 0xF7FFFFFF, 0x0, 0x0, 0xF7FFFFFF, false, false, []⟩,
  ⟨"DEPOT_RED_CFG word 1", 0x180A04, [(16,16)], 0x1900000, 0xFFFF000F, 0x0, 0x0, 0xFFFF000F, false, false, [(31,16,1,65535)]⟩,
  ⟨"DEPOT_RED DUP_CNT", 0x180A08, [(16,16)], 0x0, 0x0, 0x0, 0x0, 0xFFFFFFFF, false, true, []⟩,
  ⟨"DEPOT_RED SAME_LAN_CNT", 0x180A0C, [(16,16)], 0x0, 0x0, 0x0, 0x0, 0xFFFFFFFF, false, true, []⟩,
  ⟨"DEPOT_RED NOTAG_CNT", 0x180B00, [(8,16)], 0x0, 0x0, 0x0, 0x0, 0xFFFFFFFF, false, true, []⟩,
  ⟨"DEPOT_RED EVICT_CNT", 0x180B04, [(8,16)], 0x0, 0x0, 0x0, 0x0, 0xFFFFFFFF, false, true, []⟩,
  ⟨"DEPOT_INT_CFG word 0", 0x180C00, [(8,64)], 0x2000000, 0xFF00FFFF, 0x0, 0x0, 0xFF00FFFF, false, false, [(30,27,1,12), (26,24,2,7)]⟩,
  ⟨"DEPOT_INT_CFG word 1", 0x180C04, [(8,64)], 0x0, 0xFFFFFFFF, 0x0, 0x0, 0xFFFFFFFF, false, false, []⟩,
  ⟨"WSHOP_GRAPH_CMD", 0x1A0000, [], 0x0, 0x70F3F, 0x0, 0x80000000, 0x70F3F, false, false, [(18,16,1,4)]⟩,
  ⟨"WSHOP_GRAPH_SRC_LO", 0x1A0004, [], 0x0, 0xFFFFFFFF, 0x0, 0x0, 0xFFFFFFFF, false, false, []⟩,
  ⟨"WSHOP_GRAPH_SRC_HI", 0x1A0008, [], 0x0, 0xFF, 0x0, 0x0, 0xFF, false, false, []⟩,
  ⟨"WSHOP_CMD_STAT", 0x1A000C, [], 0x0, 0x0, 0x20000000, 0x0, 0xE0FF0000, false, false, []⟩,
  ⟨"WSHOP_LOG_CFG", 0x1A0010, [], 0x0, 0x80000000, 0x0, 0x0, 0x80000000, false, false, []⟩,
  ⟨"WSHOP_EMIT_UTC", 0x1A0014, [], 0x25, 0xFF, 0x0, 0x0, 0xFF, false, false, []⟩,
  ⟨"WSHOP_TSTORE", 0x1A0018, [], 0x0, 0x0, 0x0, 0x0, 0x1FFF, false, false, []⟩,
  ⟨"WSHOP_GRAPH_STAT", 0x1A0100, [(4,64)], 0x0, 0x0, 0x0, 0x0, 0xFFFFFFFF, false, false, []⟩,
  ⟨"WSHOP_TAP_BAD_CNT", 0x1A0200, [], 0x0, 0x0, 0x0, 0x0, 0xFFFFFFFF, false, true, []⟩,
  ⟨"WSHOP_TAP_DROP_CNT", 0x1A0204, [], 0x0, 0x0, 0x0, 0x0, 0xFFFFFFFF, false, true, []⟩,
  ⟨"WSHOP_ALIGN_DROP_CNT", 0x1A0208, [], 0x0, 0x0, 0x0, 0x0, 0xFFFFFFFF, false, true, []⟩,
  ⟨"WSHOP_ALIGN_FILL_CNT", 0x1A020C, [], 0x0, 0x0, 0x0, 0x0, 0xFFFFFFFF, false, true, []⟩,
  ⟨"WSHOP_TOKEN_BAD_CNT", 0x1A0210, [], 0x0, 0x0, 0x0, 0x0, 0xFFFFFFFF, false, true, []⟩
]

/-- Registers, part 8. Columns: name, first offset, (stride, count) of each index, reset, rw, w1c, wo and readable masks, own command row, event counter, field ranges (hi, lo, least, greatest). -/
def regTable8 : List RegDesc := [
  ⟨"WSHOP_NODE_TIMEOUT_CNT", 0x1A0214, [], 0x0, 0x0, 0x0, 0x0, 0xFFFFFFFF, false, true, []⟩,
  ⟨"WSHOP_LATE_REL_CNT", 0x1A0218, [], 0x0, 0x0, 0x0, 0x0, 0xFFFFFFFF, false, true, []⟩,
  ⟨"WSHOP_EMIT_DROP_CNT", 0x1A021C, [], 0x0, 0x0, 0x0, 0x0, 0xFFFFFFFF, false, true, []⟩,
  ⟨"WSHOP_REC_DROP_CNT", 0x1A0220, [], 0x0, 0x0, 0x0, 0x0, 0xFFFFFFFF, false, true, []⟩,
  ⟨"WSHOP_LOG_DROP_CNT", 0x1A0224, [], 0x0, 0x0, 0x0, 0x0, 0xFFFFFFFF, false, true, []⟩,
  ⟨"DRAM_STAT", 0x1C0000, [], 0x0, 0x0, 0x80000000, 0x0, 0xE0000000, false, false, []⟩,
  ⟨"DRAM_SPARE_CFG", 0x1C0020, [], 0x44, 0xFFFF00FF, 0x0, 0x0, 0xFFFF00FF, false, false, [(7,0,8,255)]⟩,
  ⟨"DRAM_RANK_CTL", 0x1C0024, [], 0x0, 0xF, 0x0, 0x80000000, 0xF, false, false, [(1,0,0,1)]⟩,
  ⟨"DRAM_REF_CFG", 0x1C0030, [], 0x18, 0x800000FF, 0x0, 0x0, 0x800000FF, false, false, []⟩,
  ⟨"DRAM_QOS_CFG", 0x1C0100, [(16,8)], 0x0, 0xFFFF, 0x0, 0x0, 0x3FFFF, false, false, [(15,0,100,65535)]⟩,
  ⟨"DRAM_QOS_MAX", 0x1C0104, [(16,8)], 0x0, 0x0, 0x0, 0x0, 0xFFFFFFFF, false, false, []⟩,
  ⟨"DRAM_QOS_OVER_CNT", 0x1C0108, [(16,8)], 0x0, 0x0, 0x0, 0x0, 0xFFFFFFFF, false, true, []⟩,
  ⟨"DRAM_CH_STAT", 0x1C0200, [(16,4)], 0x4, 0x0, 0x0, 0x0, 0xFE00000F, false, false, []⟩,
  ⟨"DRAM_MIG_PTR", 0x1C0204, [(16,4)], 0x0, 0x0, 0x0, 0x0, 0xFFFFFFF, false, false, []⟩,
  ⟨"DRAM_CE_CNT", 0x1C0300, [(8,12)], 0x0, 0x0, 0x0, 0x0, 0xFFFFFFFF, false, true, []⟩,
  ⟨"DRAM_UE_CNT", 0x1C0304, [(8,12)], 0x0, 0x0, 0x0, 0x0, 0xFFFFFFFF, false, true, []⟩,
  ⟨"DRAM_POISON_RD_CNT", 0x1C0380, [], 0x0, 0x0, 0x0, 0x0, 0xFFFFFFFF, false, true, []⟩,
  ⟨"DRAM_LATE_ERR_CNT", 0x1C0384, [], 0x0, 0x0, 0x0, 0x0, 0xFFFFFFFF, false, true, []⟩,
  ⟨"DRAM_REC_CFG", 0x1C0400, [], 0x3E8, 0x8000FFFF, 0x0, 0x60000000, 0x9800FFFF, false, false, []⟩,
  ⟨"DRAM_REC_BASE_LO", 0x1C0404, [], 0x0, 0xFFFFFFFF, 0x0, 0x0, 0xFFFFFFFF, false, false, []⟩,
  ⟨"DRAM_REC_BASE_HI", 0x1C0408, [], 0x0, 0xFF, 0x0, 0x0, 0xFF, false, false, []⟩,
  ⟨"DRAM_REC_SIZE", 0x1C040C, [], 0x400, 0x1FFF, 0x0, 0x0, 0x1FFF, false, false, [(12,0,1,4096)]⟩,
  ⟨"DRAM_REC_WPTR", 0x1C0410, [], 0x0, 0x0, 0x0, 0x0, 0x87FFFFFF, false, false, []⟩,
  ⟨"DRAM_REC_TRIG_PM_LO", 0x1C0414, [], 0x0, 0x0, 0x0, 0x0, 0xFFFFFFFF, false, false, []⟩,
  ⟨"DRAM_REC_TRIG_PM_HI", 0x1C0418, [], 0x0, 0x0, 0x0, 0x0, 0xFFFFFFFF, false, false, []⟩,
  ⟨"COUR_ID", 0x1D0000, [], 0x0, 0x3FF, 0x0, 0x0, 0x800003FF, false, false, []⟩,
  ⟨"COUR_SYSTEM", 0x1D0004, [], 0x0, 0xFFFFFFFF, 0x0, 0x0, 0xFFFFFFFF, false, false, []⟩,
  ⟨"COUR_STAT", 0x1D0008, [], 0x0, 0x0, 0x80000000, 0x0, 0x80000000, false, false, []⟩,
  ⟨"COUR_MP_CFG", 0x1D0010, [], 0xA3C1401, 0x7FFFFFFF, 0x0, 0x80000000, 0x7FFFFFFF, false, false, [(30,24,1,100), (15,8,1,49), (7,0,1,255)]⟩,
  ⟨"COUR_SEAL_CFG", 0x1D0014, [], 0x3, 0xF, 0x0, 0x0, 0xF, false, false, []⟩,
  ⟨"COUR_SEAL_STAT", 0x1D0018, [], 0x0, 0x0, 0x0, 0x0, 0xC000FFFF, false, false, []⟩,
  ⟨"COUR_TIME_CFG", 0x1D0030, [], 0x1000, 0x1F, 0x0, 0x0, 0x1F1F, false, false, []⟩,
  ⟨"COUR_ALARM_CFG", 0x1D0034, [], 0x1000, 0x800033FF, 0x0, 0x0, 0x800033FF, false, false, []⟩,
  ⟨"COUR_SEAL_TAG_LO", 0x1D0020, [], 0x0, 0x0, 0x0, 0x0, 0xFFFFFFFF, false, false, []⟩,
  ⟨"COUR_SEAL_TAG_HI", 0x1D0024, [], 0x0, 0x0, 0x0, 0x0, 0xFFFFFFFF, false, false, []⟩,
  ⟨"COUR_PSEAL_TAG_LO", 0x1D0028, [], 0x0, 0x0, 0x0, 0x0, 0xFFFFFFFF, false, false, []⟩,
  ⟨"COUR_PSEAL_TAG_HI", 0x1D002C, [], 0x0, 0x0, 0x0, 0x0, 0xFFFFFFFF, false, false, []⟩,
  ⟨"COUR_ROUTE_SEL", 0x1D0040, [], 0x0, 0x3FF, 0x0, 0xC0000000, 0x3FF, false, false, []⟩,
  ⟨"COUR_ROUTE_DATA", 0x1D0044, [], 0x0, 0xFFFFFFFF, 0x0, 0x0, 0xFFFFFFFF, false, false, []⟩,
  ⟨"COUR_GRP_SEL", 0x1D0050, [], 0x0, 0xFF, 0x0, 0xC0000000, 0xFF, false, false, []⟩
]

/-- Registers, part 9. Columns: name, first offset, (stride, count) of each index, reset, rw, w1c, wo and readable masks, own command row, event counter, field ranges (hi, lo, least, greatest). -/
def regTable9 : List RegDesc := [
  ⟨"COUR_GRP_WAYS0", 0x1D0054, [], 0x0, 0xFFFFFFFF, 0x0, 0x0, 0xFFFFFFFF, false, false, []⟩,
  ⟨"COUR_GRP_WAYS1", 0x1D0058, [], 0x0, 0xFFFFFFFF, 0x0, 0x0, 0xFFFFFFFF, false, false, []⟩,
  ⟨"COUR_LINK_CFG", 0x1D0100, [(32,32)], 0x23FC1400, 0xBFFFFF00, 0x0, 0x0, 0xBFFFFF00, false, false, [(29,16,60,9212), (15,8,1,255)]⟩,
  ⟨"COUR_LINK_ADJ", 0x1D0104, [(32,32)], 0x0, 0xFFFFFFFF, 0x0, 0x0, 0xFFFFFFFF, false, false, []⟩,
  ⟨"COUR_LINK_STAT", 0x1D0108, [(32,32)], 0x0, 0x0, 0x0, 0x0, 0xFFFFE000, false, false, []⟩,
  ⟨"COUR_REPLAY_CNT", 0x1D010C, [(32,32)], 0x0, 0x0, 0x0, 0x0, 0xFFFFFFFF, false, true, []⟩,
  ⟨"COUR_DUP_CNT", 0x1D0110, [(32,32)], 0x0, 0x0, 0x0, 0x0, 0xFFFFFFFF, false, true, []⟩,
  ⟨"COUR_CRC_ERR_CNT", 0x1D0114, [(32,32)], 0x0, 0x0, 0x0, 0x0, 0xFFFFFFFF, false, true, []⟩,
  ⟨"COUR_LOST_CNT", 0x1D0118, [(32,32)], 0x0, 0x0, 0x0, 0x0, 0xFFFFFFFF, false, true, []⟩,
  ⟨"COUR_XSEAL_DROP_CNT", 0x1D011C, [(32,32)], 0x0, 0x0, 0x0, 0x0, 0xFFFFFFFF, false, true, []⟩,
  ⟨"COUR_NOADDR_CNT", 0x1D0500, [], 0x0, 0x0, 0x0, 0x0, 0xFFFFFFFF, false, true, []⟩,
  ⟨"COUR_NOROUTE_CNT", 0x1D0504, [], 0x0, 0x0, 0x0, 0x0, 0xFFFFFFFF, false, true, []⟩,
  ⟨"COUR_GMAX_CNT", 0x1D0508, [], 0x0, 0x0, 0x0, 0x0, 0xFFFFFFFF, false, true, []⟩,
  ⟨"COUR_HOPS_CNT", 0x1D050C, [], 0x0, 0x0, 0x0, 0x0, 0xFFFFFFFF, false, true, []⟩,
  ⟨"COUR_RSV_CNT", 0x1D0510, [], 0x0, 0x0, 0x0, 0x0, 0xFFFFFFFF, false, true, []⟩,
  ⟨"COUR_BADACK_CNT", 0x1D0514, [], 0x0, 0x0, 0x0, 0x0, 0xFFFFFFFF, false, true, []⟩,
  ⟨"COUR_ORDER_RISK_CNT", 0x1D0518, [], 0x0, 0x0, 0x0, 0x0, 0xFFFFFFFF, false, true, []⟩,
  ⟨"COUR_PEER_SEAL", 0x1D0600, [(4,8)], 0x0, 0x0, 0x0, 0x0, 0xFFFFFFFF, false, false, []⟩,
  ⟨"COUR + 0x0620", 0x1D0620, [], 0x0, 0x1F, 0x0, 0x80000000, 0x1F, false, false, []⟩,
  ⟨"port statistics SNAP", 0x80800, [(4096,128), (256,4)], 0x0, 0x0, 0x0, 0xC0000000, 0x20000000, false, false, []⟩,
  ⟨"port statistics WRAP", 0x80804, [(4096,128), (256,4)], 0x0, 0x0, 0x1FFFFFF, 0x0, 0x1FFFFFF, false, false, []⟩,
  ⟨"lane statistics SNAP", 0x80C00, [(4096,128)], 0x0, 0x0, 0x0, 0xC0000000, 0x20000000, false, false, []⟩,
  ⟨"lane statistics WRAP", 0x80C04, [(4096,128)], 0x0, 0x0, 0x3F, 0x0, 0x3F, false, false, []⟩,
  ⟨"Courier link statistics SNAP", 0x1D0800, [(64,32)], 0x0, 0x0, 0x0, 0xC0000000, 0x20000000, false, false, []⟩,
  ⟨"Courier link statistics WRAP", 0x1D0804, [(64,32)], 0x0, 0x0, 0x3F, 0x0, 0x3F, false, false, []⟩,
  ⟨"redundancy statistics SNAP", 0x180E00, [(64,16)], 0x0, 0x0, 0x0, 0xC0000000, 0x20000000, false, false, []⟩,
  ⟨"redundancy statistics WRAP", 0x180E04, [(64,16)], 0x0, 0x0, 0x3F, 0x0, 0x3F, false, false, []⟩,
  ⟨"port statistics counters (snapshot)", 0x80810, [(4096,128), (256,4), (4,50)], 0x0, 0x0, 0x0, 0x0, 0xFFFFFFFF, false, false, []⟩,
  ⟨"lane statistics counters (snapshot)", 0x80C10, [(4096,128), (4,12)], 0x0, 0x0, 0x0, 0x0, 0xFFFFFFFF, false, false, []⟩,
  ⟨"link statistics counters (snapshot)", 0x1D0810, [(64,32), (4,12)], 0x0, 0x0, 0x0, 0x0, 0xFFFFFFFF, false, false, []⟩,
  ⟨"redundancy statistics counters (snapshot)", 0x180E10, [(64,16), (4,12)], 0x0, 0x0, 0x0, 0x0, 0xFFFFFFFF, false, false, []⟩
]

/-- Every register of the map (R566). -/
def regTable : List RegDesc :=
  regTable0 ++ regTable1 ++ regTable2 ++ regTable3 ++ regTable4 ++ regTable5 ++ regTable6 ++ regTable7 ++ regTable8 ++ regTable9

end Sys2Proof.Machine
end

