-- ==== Sys2Proof/Config.lean ====
section
/-! DEFINITION. What a part fixes (its device identity and what follows from it) and the free values: what the
specification leaves open. Each is a constant with no body, so no proof can see what it is. -/

namespace Sys2Proof.Config

/-- The device identity in OTP, as HALL_DEVID0 to DEVID3 give it (word w = 0 to 3). -/
opaque deviceId : Nat → Word

/-- The seeds of the hash functions, "per slice, from the OTP device identity": slice, table code. -/
opaque otpSeed : Nat → Nat → Word

/-- The two hash functions of a Directory table (R128): table code, which hash, seed, key. The specification names
the seeds and not the functions (log entry 8). -/
opaque dirHash : Nat → Nat → Nat → Nat → Nat

/-- The size of the extension table, 2^n buckets (R124 gives n = 10 to 24 and no register that sets it): the n of a part is
10 plus this number modulo 15. -/
opaque extSize : Nat

/-- The line of DRAM that holds a bucket of the extension table, in either of the two places that a rehash exchanges: place, bucket (the specification gives no place). -/
opaque extLine : Nat → Nat → Nat

/-- The 64 bytes by which a bucket's entries (key and result) stand in its line, and the entries that a line's bytes are read as (the specification gives no layout). -/
opaque extEncode : List (Nat × Nat) → List Byte
opaque extDecode : List Byte → List (Nat × Nat)

/-- The hash by which a source address and sequence number choose a bucket of a receipt book (the specification names none). -/
opaque bookHash : Nat → Nat → Nat

/-- The hash that spreads flows over the buckets of a multipath group, and flowlets (R445): seed, key. -/
opaque courHash : Nat → Nat → Nat

/-- Draw number n of the module's random generators (WRED, R338, and the reseeding of groups, R446). -/
opaque draw : Nat → Nat

/-- The contents of boot flash as shipped, by byte address (the specification gives the layout and not the image). -/
opaque flashAsShipped : Nat → Byte

/-- What an erased byte of the boot flash reads (R540 gives the command and not the value). -/
opaque erasedByte : Byte

/-- The public-key hash in OTP key slot 0 as shipped (R488), as a number. -/
opaque zaildenKeyHash : Nat

/-- Whether the n-th low pulse of SYS_RESET_N lasting between 1 and 10 microseconds is taken (R508 leaves it open). -/
opaque resetTaken : Nat → Bool

/-- The device key by which the Cellar's key records are encrypted (R486). -/
opaque deviceKey : Nat

/-- The rail rating of an island for one tick, in nJ (the specification speaks of it and gives no number). -/
opaque railRating : Nat → Nat

/-- The measured link delay of an ingress port, in 2⁻¹⁶ ns, at a time of the module's running (R101): port, time. -/
opaque linkDelay : Nat → Nat → Nat

/-- What the line of a lane has brought for counter i of its statistics since they were last asked for (R581): lane, counter, draw. -/
opaque lineEvents : Nat → Nat → Nat → Nat

/-- The seed of a multipath group (R446): how often the groups have been reseeded, and the group; the specification gives no first seed. -/
opaque courSeed : Nat → Nat → Nat

/-! ### Constants that no command of the table reads -/

/-- What the configuration space of function f presents (R592): vendor, device, revision, class code, subsystem vendor and subsystem. -/
def pciIdentity (f : Nat) : List Nat := [0x1F3C, if f = 0 then 0x0512 else 0x0513, 0xB0, 0x028000, 0x1F3C, 0x0001]

/-- The IDCODE of the test access port (R614). -/
def jtagIdcode : BitVec 32 := 0x10512F79

end Sys2Proof.Config
end

