-- ==== Sys2Proof/Machine/State.lean ====
section
/-! DEFINITION. The state of the block as plain data, the reasons a step can stop, and the state after reset. Registers
that a master can read are held in one register file, `regs`, keyed by their BAR0 offset (a register reads its reset value
until something writes it); what the specification gives the block beside them is held in the fields named for it. -/

namespace Sys2Proof.Machine

/-- No command stops with a fault: the specification gives every event of this block an effect, and a command whose event
cannot occur in the state leaves it as it is (log entry 2). The one name is kept for a step that would have no meaning; nothing raises it, so it is
safe. -/
inductive Fault where
  | none
deriving DecidableEq, Repr

/-- The refusals of a step. -/
inductive Refusal where
  /-- Raised by exec for a command that has no meaning yet: safe, the machine stops. -/
  | notModelled (mnemonic : String)
deriving DecidableEq, Repr

/-! ### Hatches, registers and events -/

/-- A hatch (R17 to R23): the entries the producer holds, those in transit and those visible to the consumer in each
sub-channel, the entry taken and not yet consumed, the flows of the entries sent and not yet seen as removed, the
removals not yet seen by the producer, the peaks since the last snapshot, the WAIT count, the corrected errors, and
what a METER or ALARM producer carries over (R21). -/
structure Hatch where
  held : List HEntry := []
  gTransit : List HEntry := []
  gFifo : List HEntry := []
  xTransit : List HEntry := []
  xFifo : List HEntry := []
  taken : List HEntry := []
  gOut : List Nat := []
  xOut : List Nat := []
  gUnseen : Nat := 0
  xUnseen : Nat := 0
  gSent : Nat := 0
  xSent : Nat := 0
  gRemoved : Nat := 0
  xRemoved : Nat := 0
  peak : Nat := 0
  xpeak : Nat := 0
  waits : Nat := 0
  eccFixed : Nat := 0
  carry : Nat := 0
  carryPm : Nat := 0
  carryLast : Nat := 0
deriving DecidableEq, Repr, Inhabited

/-- An open summary slot (R552). -/
structure Summary where
  code : Nat
  modn : Nat
  island : Nat
  inst : Nat
  sev : Nat
  seq : Nat
  count : Nat
  first : Nat
  last : Nat
deriving DecidableEq, Repr, Inhabited

/-- A run of records lost on the way to a DRAM ring (R555, R556): how many, and the first and last postmark. -/
structure Gap where
  count : Nat := 0
  first : Nat := 0
  last : Nat := 0
deriving DecidableEq, Repr, Inhabited

/-- The EVT block (R548 to R560): records that have reached EVT and wait to be taken (from the Hall itself and from
Courier links), the last 1,536 records (R526), the sequence number, the alarm queue in order of entry, the open summary slots in order of opening
(the ALARM_LOST summary among them, marked by island 0xFF), the records queued for the LOG and TRACE ports of the DRAM, the runs
lost, the records put in the log ring since its EN was set, the logbook records on their way to the trace ring (R310), the MSI-X events pending and their first postmark per vector, the messages sent per vector, and whether the last
sample of ATTN_N was a mismatch. -/
structure EvtSt where
  inbox : List Alarm := []
  recent : List Alarm := []
  seq : Nat := 0
  queue : List Alarm := []
  slots : List Summary := []
  logQ : List (Nat × List Byte) := []
  logGap : Gap := ⟨0, 0, 0⟩
  logDone : Nat := 0
  trcQ : List (Nat × List Byte) := []
  trcGap : Gap := ⟨0, 0, 0⟩
  trcIn : List (List Word) := []
  msixPend : NMap Nat := []
  msixSince : NMap Nat := []
  msixSent : NMap Nat := []
  attnMismatch : Bool := false
deriving DecidableEq, Repr, Inhabited

/-- The epoch unit (R30 to R38): the latched epoch postmark, the scheduled one, whether it is cross-module,
whether the old copy is still readable, the seal epoch (R67), the last epoch postmark and the seal epoch before it, the
accesses to the TEN block held behind a staging write while the copies are not ready (R37; a block of the Hall has no CFG hatch), and the active and staging
copies of the system block (R453, R590). -/
structure EpochSt where
  atLatched : Nat := 0
  atSched : Nat := 0
  xmod : Bool := false
  oldReadable : Bool := false
  sealEpoch : Nat := 0
  lastAt : Nat := 0
  prevSeal : Nat := 0
  heldAcc : List HEntry := []
  sysA : NMap Word := []
  sysS : NMap Word := []
deriving DecidableEq, Repr, Inhabited

/-! ### Ports and slices -/

/-- An egress postmark awaiting the host (R98). -/
structure Tsq where
  pm : Nat
  frac : Nat
  seqId : Nat
  msgType : Nat
  domain : Nat
deriving DecidableEq, Repr, Inhabited

/-- A frame being received by a port: the number of its first cell, the time of its postmark, its class, the bytes received,
whether it was admitted, its forwarding mode, whether its envelope has been formed, whether it is chosen for sampling, and when it began by the module's running time. -/
structure RxFrame where
  cell : Nat
  pm : Nat
  cls : Nat
  bytes : List Byte
  admitted : Bool
  ct : Bool
  formed : Bool
  sample : Bool
  began : Nat := 0
deriving DecidableEq, Repr, Inhabited

/-- A frame in an Editor output buffer or being sent by a MAC: the number of its first cell, its pigeonhole, its envelope, its
bytes as edited with their FCS, whether they are all present (until they are, the Editor has not read all its cells), the places
of its PTP and UDP headers (0 for none), its PTP header, its length as received, the time of its egress postmark once it has one, and whether it is to be closed with an inverted FCS (R319). -/
structure OutFrame where
  cell : Nat
  ph : Nat
  env : Env
  bytes : List Byte
  whole : Bool
  ptp : Nat
  hdr : List Byte
  udp : Nat
  rxLen : Nat
  txPm : Nat
  bad : Bool := false
deriving DecidableEq, Repr, Inhabited

/-- The state of one port number: link, reception (the frame in progress, and a preempted one that it interrupts, R89), discarding until a start of frame (R84), transmission (the frame
the MAC sends; an express frame sent while a preemptable one waits between fragments; the fragments of that one so far, and when its present fragment has its least length, R87, R90) and the
Editor's output buffer (R348), preemption attempts and when the next is due (R88), egress postmarks (R98), sampling count (R344), the express
meter (what its buckets lack of being full, in units of 2⁻¹⁶ ÷ 8,000,000 of a byte and of the 2⁻¹⁶ ns a frame takes to refill), when they were last brought up to date and its breach mark (R363), the latency monitor's mark (R370),
bytes in flight (cell and bytes of each frame), deficits and visit position of the egress scheduler (R334, R340), the gate lists,
the time a scheduled swap is due, the base of the active list, the list and base scheduled, and the time the interval in force
ends (R341, R342), the MACsec SA entries applied (R493), the residence times awaiting their Follow_Up (R101: domain, sequenceId, time), and the
last frame the MAC has sent, as it left. -/
structure PortSt where
  linkUp : Bool := false
  rx : Option RxFrame := none
  rxPre : Option RxFrame := none
  discarding : Bool := false
  tx : Option OutFrame := none
  txx : Option OutFrame := none
  frags : Nat := 0
  fragAt : Nat := 0
  outBuf : List OutFrame := []
  attempts : Nat := 0
  verifyAt : Nat := 0
  tsq : List Tsq := []
  sampled : Nat := 0
  byteMissing : Nat := 0
  frameMissing : Nat := 0
  meterAt : Nat := 0
  breach : Bool := false
  xlatOver : Bool := false
  inflight : List (Nat × Nat) := []
  deficits : List Nat := []
  visit : Nat := 0
  gclActive : List Word := []
  gclStaging : NMap Word := []
  gclSwapAt : Nat := 0
  gclBase : Nat := 0
  gclNext : List Word := []
  gclNextBase : Nat := 0
  gateEnd : Nat := 0
  tcPend : List (Nat × Nat × Int) := []
  lastTx : List Byte := []
  sas : NMap (List Word) := []
deriving DecidableEq, Repr, Inhabited

/-- A slot of the ingress envelope store (R113): port, class, postmark, first cell, the envelope and head once formed, and the
extension lookup in progress: its key and the fills it waits for (R142). -/
structure StoreItem where
  port : Nat
  cls : Nat
  pm : Nat
  cell : Nat
  env : Option Env
  head : List Byte
  extKey : Nat
  waiting : List Nat
deriving DecidableEq, Repr, Inhabited

/-- A queued learning insertion (R128): key, port, and the first cell of the frame that caused it while that frame's slot stands in the store (R133). -/
structure LearnReq where
  key : Nat
  port : Nat
  cell : Option Nat
deriving DecidableEq, Repr, Inhabited

/-- A DIR command as latched by GO: operation, table, options, operands. -/
structure DirCmd where
  op : Nat
  table : Nat
  bcast : Bool
  active : Bool
  keys : List Word
  masks : List Word
  data : List Word
deriving DecidableEq, Repr, Inhabited

/-- A hash-table entry: its key and its data word (result, or PORT and STAMP). -/
structure DirEntry where
  key : Nat
  data : Nat
deriving DecidableEq, Repr, Inhabited

/-- An extension fill in flight (R142, R143): its number, bucket, stale mark and start, the reference of its DRAM request, and the bucket as its lookups find it (R141). -/
structure ExtFill where
  no : Nat
  bucket : Nat
  stale : Bool
  since : Nat
  ref : Nat
  data : List DirEntry
deriving DecidableEq, Repr, Inhabited

/-- What a DIR command has come to and not yet published: STATUS, INDEX and the result words, and for a BCAST command whose Rooms differ the STATUS and INDEX of each. -/
structure CmdRes where
  status : Nat
  index : Nat
  data : List Word
  each : List (Nat × Nat) := []
deriving DecidableEq, Repr, Inhabited

/-- Work on the host side of an insertion unit (R131): a host command on LEARN or TERN (1 INSERT, 2 DELETE, 5 WRITE_IDX, 7 FLUSH), or a helper's DIR_LEARN with its helper
reference (0 for the host). -/
structure HostWork where
  op : Nat
  key : Nat
  port : Nat
  ref : Nat
deriving DecidableEq, Repr, Inhabited

/-- The state of one slice front: the ingress store in order of first flit, the next SEQ of each order domain, the
parse and transition tables, the learning table with its shadow, the ternary rules, the extension hot cache and the fills
in flight, the queues of the insertion unit and which side it served last, the running host command and its result, the
tables whose shadow is being built, whose shadow could not hold every entry, and whose tables have exchanged and await the
release of the old one (R134), and the times of the last sweeps. -/
structure SliceSt where
  store : List StoreItem := []
  nextSeq : NMap Nat := []
  parse : NMap (Nat × Nat) := []
  trans : NMap (Nat × Nat) := []
  learn : NMap (List DirEntry) := []
  learnShadow : NMap (List DirEntry) := []
  tern : NMap (List Word) := []
  cache : NMap (List DirEntry × Nat) := []
  fills : List ExtFill := []
  fillNo : Nat := 0
  learnQ : List LearnReq := []
  hostQ : List HostWork := []
  lastHost : Bool := false
  cmd : Option DirCmd := none
  cmdRes : Option CmdRes := none
  building : List Nat := []
  shadowBad : List Nat := []
  swapped : List Nat := []
  statA : NMap (List DirEntry) := []
  statS : NMap (List DirEntry) := []
  statShadow : NMap (List DirEntry) := []
  sweepAt : Nat := 0
  hotAt : Nat := 0
  edtpl : NMap Word := []
deriving DecidableEq, Repr, Inhabited

/-- An LPM prefix (R136): family, root, address, length, result. -/
structure Prefix4 where
  v6 : Bool
  root : Nat
  addr : Nat
  plen : Nat
  result : Nat
deriving DecidableEq, Repr, Inhabited

/-- The tables that are the same in every Directory: VLAN, the LPM images with their root maps, and the extension
table in DRAM with its shadow, and which of its two places in DRAM it takes; active and staging copies of the epoch-class ones (R30, R124). -/
structure DirShared where
  vlanA : NMap Word := []
  vlanS : NMap Word := []
  lpmA : List Prefix4 := []
  lpmS : List Prefix4 := []
  rootA : NMap Nat := []
  rootS : NMap Nat := []
  ext : NMap (List DirEntry) := []
  extShadow : NMap (List DirEntry) := []
  extPlace : Bool := false
  bcastLeft : List Nat := []
deriving DecidableEq, Repr, Inhabited

/-! ### Stations -/

/-- An envelope in a station, in distributor order (R55): the envelope and its head, its order flow, the thread that
holds it, whether it has been released, whether it arrived void, when it was handed out and the TIMEOUT then in force, and the
helper commands (thread and tag) outstanding on its frame (R247). -/
structure GateItem where
  env : Env
  head : List Byte
  flow : Nat
  xpr : Bool
  thread : Option Nat
  released : Bool
  wasVoid : Bool
  since : Nat
  limit : Nat
  cmds : List (Nat × Nat)
deriving DecidableEq, Repr, Inhabited

/-- One station: its envelopes in order, the distributor's rotation, and the failed engine whose takeover is under way (R186). -/
structure StationSt where
  gate : List GateItem := []
  rotate : Nat := 0
  takeover : Option Nat := none
deriving DecidableEq, Repr, Inhabited

/-! ### Depot -/

/-- A frame in the cell memory (R316 to R318): its cells in chain order, the bytes received so far, the pool it draws
on, the slice for which it is landing, how it ended (0 still arriving, 1 whole, 2 errored), the envelopes that name it,
and the redundancy fields of its frame record. -/
structure Frame where
  cells : List Nat := []
  bytes : List Byte := []
  xpr : Bool := false
  landing : Option Nat := none
  ended : Nat := 0
  refs : Nat := 0
  rctOk : Bool := false
  rlan : Bool := false
  rseqV : Bool := false
  rseq : Nat := 0
  leak : Bool := false
  inPort : Nat := 0
  charges : List Nat := []
deriving DecidableEq, Repr, Inhabited

/-- An entry of a virtual output queue: the envelope, its order of arrival, for a multicast entry the first port not yet copied
to, and whether mirror and sample copies are made as it is moved. -/
structure VoqEntry where
  env : Env
  arr : Nat
  next : Nat
  lead : Bool
deriving DecidableEq, Repr, Inhabited

/-- An entry of a receipt book (R351). -/
structure Receipt where
  mac : Nat
  seq : Nat
  self : Bool
  seenA : Bool
  seenB : Bool
  stamp : Nat
deriving DecidableEq, Repr, Inhabited

/-- The Depot: virtual output queues (R323), pigeonholes, average occupancies (in 2⁻³² cells, R338), cells withheld (R319), the order
of arrival, the pointers of the matching scheduler and the matching computed last (R329 to R332), multicast groups (R327), the
expected SEQ of each order domain (R61), receipt books and RSEQ counters (R351), the next slot of each internal ring (R326), and the
next SEQ of the domains of sources 1 to 3 (R50). How many cells land and how many are charged to a pigeonhole follows from the
frames. -/
structure DepotSt where
  voq : NMap (List VoqEntry) := []
  ph : NMap (List Env) := []
  phAvg : NMap Nat := []
  leaked : List Nat := []
  arrivals : Nat := 0
  grantPtr : NMap Nat := []
  acceptPtr : NMap Nat := []
  classPtr : NMap Nat := []
  matched : List (Nat × Nat) := []
  mc : NMap (List Word) := []
  expSeq : NMap Nat := []
  books : NMap (List Receipt) := []
  rseqCtr : NMap Nat := []
  ringPos : NMap Nat := []
  srcSeq : NMap Nat := []
deriving DecidableEq, Repr, Inhabited

/-! ### Time -/

/-- The TIME block (R103 to R112): sources locked (primary, secondary), seconds value armed, TIME_IN (lock, last edge, edges spaced 1 s
apart, phases of the last edges off time, its second, the last edge in phase), when correction words were sent last, the
correction still to be slewed in 2⁻¹⁶ ns with the slew not yet used, when holdover began, the level of TIME_OUT, and the newest
correction word each island has taken. -/
structure TimeSt where
  priLocked : Bool := false
  secLocked : Bool := false
  tod : Option Nat := none
  inLocked : Bool := false
  lastEdge : Option Nat := none
  goodEdges : Nat := 0
  offEdges : List Int := []
  inSec : Nat := 0
  goodUp : Nat := 0
  wordAt : Nat := 0
  slew : Int := 0
  slewCredit : Nat := 0
  holdSince : Nat := 0
  outHigh : Bool := false
  words : NMap (Nat × Nat × Nat) := []
deriving DecidableEq, Repr, Inhabited

/-! ### Engines and helpers -/

/-- A helper command that has started (R245): the command, its number in order of arrival, when it started, its status, the result words, the results to
be written (address, bytes, whether the words are POISON), the first DRAM reference and the count of DRAM requests it
waits for, the reference of its DIR_LEARN (0 none), and the fills an extension query waits for with its key (R145). -/
structure HelpJob where
  cmd : HelpCmd
  arr : Nat := 0
  since : Nat := 0
  status : Nat := 0
  res0 : Nat := 0
  res1 : Nat := 0
  writes : List (Nat × List Byte × Bool) := []
  ref : Nat := 0
  refs : Nat := 0
  learn : Nat := 0
  waits : List Nat := []
  extKey : Nat := 0
deriving DecidableEq, Repr, Inhabited

/-- A function unit of a helper block (R255): the command it runs, an S-thread's that has yielded to a T-thread's, one waiting from a T-thread and one
from an S-thread with their arrival numbers, and the commands that wait for bytes of a cut-through frame (R247). -/
structure HelpUnit where
  run : Option HelpJob := none
  yielded : Option HelpJob := none
  waitT : Option (HelpCmd × Nat) := none
  waitS : Option (HelpCmd × Nat) := none
  parked : List (HelpCmd × Nat) := []
deriving DecidableEq, Repr, Inhabited

/-- A helper block (R255): its four units (0 cipher, 1 hash, 2 checksum and move, 3 directory), where its rotation over stations or threads stands,
and the commands taken so far. -/
structure Helper where
  units : NMap HelpUnit := []
  rotate : Nat := 0
  arrivals : Nat := 0
deriving DecidableEq, Repr, Inhabited

/-- The helper blocks, 0 to 15 of the slices, 16 to 23 of the benches and 24 of the Hall; results of DIR_LEARN that an insertion unit has performed, by helper reference
(result code + 1); and the next reference. -/
structure HelpSt where
  helpers : NMap Helper := []
  learned : NMap Nat := []
  nextRef : Nat := 1
deriving DecidableEq, Repr, Inhabited

/-- The side bus (R561 to R563): the slot whose transfer runs, the slot served last, recovery attempts made, and the time of the
last attempt. -/
structure SbSt where
  active : Option Nat := none
  last : Nat := 1
  tries : Nat := 0
  triedAt : Nat := 0
deriving DecidableEq, Repr, Inhabited

/-- A result in flight (R153): what it writes (0 a general register, 1 an accumulator, 2 a bank register, 3 no register, 4 the poison
bit of an accumulator, 5 the clearing of flags), the register, the value, the flags it sets, the cycle in which it lands, the priority of its unit (R154), the bundle that
issued it, the first bundle of an S-thread that may see it (R159), and whether it comes from the divide-and-root unit. -/
structure Landing where
  kind : Nat
  reg : Nat
  val : TWord
  acc : AccV
  flags : Nat
  land : Nat
  prio : Nat
  seq : Nat
  minSeq : Nat
  div : Bool
deriving DecidableEq, Repr, Inhabited

/-- A node dispatch held by a bench thread (R299): the dispatch, its OUTMASK, its window words, and SLOTS of the thread when it began. -/
structure DispHold where
  d : NodeDisp
  outmask : Nat
  words : List Word
  slots : Nat
deriving DecidableEq, Repr, Inhabited

/-- A loop context (R223): start, exit, count, whether the body fits the alcove, and whether this is its second or a later iteration. -/
structure LoopCtx where
  start : Nat
  exit : Nat
  count : Nat
  fits : Bool
  again : Bool
deriving DecidableEq, Repr, Inhabited

/-- A thread (R147, R197, R223): general, accumulator and bank registers, flags, results in flight; bundles issued, the cycle and count of the last,
the syllables of a bundle in progress with its address, that of the bundle it goes to, that of the bundle after it and how it branches (0 not, 1 a branch, 2 a
call, 3 a LOOP); loop context and alcove; the doorbell mask
waited on (0 none), a key wait (key, destination of the status) with the mask of a WAIT beside it and its number, the address of the waiting bundle, doorbells, the
cycle in which its last WAIT completed and that WAIT's mask (R258), the cycle from which it is READY, a halt to come, the cycle until which the divide-and-root unit holds it, the words of the control space (R175), a T-thread's
or S-thread's completion ring, helper tags outstanding in order of issue and those whose command has started, commands queued (bench and Hall), whether a reset still has commands to end and holds a RESUME till then (R254), a bench dispatch, the state before
parking, and whether its claim to an envelope or dispatch has run out of time (R57, R302). -/
structure Thread where
  g : NMap TWord := []
  acc : NMap AccV := []
  bk : NMap Nat := []
  flags : Nat := 0
  land : List Landing := []
  seq : Nat := 0
  issueAt : Nat := 0
  count : Nat := 0
  todo : List Syl := []
  bundle : Nat := 0
  next : Nat := 0
  seqNext : Nat := 0
  jump : Nat := 0
  loopc : Option LoopCtx := none
  alcove : NMap Nat := []
  waitMask : Nat := 0
  keyWait : Option (Nat × Nat) := none
  keyMask : Nat := 0
  keyNo : Nat := 0
  waitPc : Nat := 0
  bells : Nat := 0
  clearAt : Nat := 0
  clearMask : Nat := 0
  readyAt : Nat := 0
  halt : Bool := false
  heldTo : Nat := 0
  slots : Nat := 0
  imask : Nat := 0
  ipend : Nat := 0
  epc : Nat := 0
  estat : Nat := 0
  ivec : Nat := 0
  timerCmp : Nat := 0
  timerAt : Nat := 0
  cycHi : Nat := 0
  timeHi : Nat := 0
  timeFrac : Nat := 0
  ring : Option Nat := none
  tags : List Nat := []
  begun : List Nat := []
  hq : List HelpCmd := []
  voiding : Bool := false
  resumeHeld : Bool := false
  disp : Option DispHold := none
  former : Nat := 0
  late : Bool := false
deriving DecidableEq, Repr, Inhabited

/-- A store in an engine's store buffer (R161): thread, address, size in bytes, the data with its tag, the cycle in which it reaches memory, and for the
held envelope or dispatch window that it goes there. -/
structure StoreEnt where
  thread : Nat
  addr : Nat
  size : Nat
  data : TWord
  due : Nat
deriving DecidableEq, Repr, Inhabited

/-- An engine (R147): instruction memory by byte, words of instruction memory and of data memory with an uncorrectable error, data memory by word,
store buffer, threads, the first cycle in which it may issue again, the S-thread that issued last, the divide-and-root unit (thread, the cycle it is busy until) and
an S-thread's operation waiting to be restarted (thread, its distance), the cycle of a swap to come, and the times of the last uncorrectable
instruction-memory errors. -/
structure Engine where
  imem : List Host.Cell := []
  imemBad : List Nat := []
  local_ : NMap TWord := []
  localBad : List Nat := []
  stores : List StoreEnt := []
  threads : NMap Thread := []
  freeAt : Nat := 0
  lastS : Nat := 15
  div : Option (Nat × Nat) := none
  divWait : Option (Nat × Nat) := none
  swapAt : Option Nat := none
  imemErrs : List Nat := []
deriving DecidableEq, Repr, Inhabited

/-- A tap slot pending (R279): thread, slot, and the envelope and head its thread held at the store of W0 (R281). -/
structure TapPend where
  thread : Nat
  slot : Nat
  held : Option (Env × List Byte)
deriving DecidableEq, Repr, Inhabited

/-- The shared memory of a station, bench or the Hall (R235) by word, and the taps pending in order of their W0 stores (R279). -/
structure Shared where
  words : NMap TWord := []
  taps : List TapPend := []
deriving DecidableEq, Repr, Inhabited

/-- The cycle count of an island (R149): the count at a time since ENTRY, from which it goes on at the island's frequency. -/
structure Clk where
  cyc : Nat := 0
  since : Nat := 0
deriving DecidableEq, Repr, Inhabited

/-- A key (R265, R266): its owner, its ABANDONED mark, its waiters with the number of each one's wait, and whether the last grant carried the mark and its status was
withdrawn (R268). -/
structure KeySt where
  owner : Option Nat := none
  mark : Bool := false
  waiters : List (Nat × Nat) := []
  lost : Bool := false
deriving DecidableEq, Repr, Inhabited

/-- A ring on its way within an island (R261): target thread, doorbell, and the cycle of the island in which the latch is set. -/
structure Ring where
  target : Nat
  bell : Nat
  due : Nat
deriving DecidableEq, Repr, Inhabited

/-- The key agents and doorbells: keys by number, statuses of queued local operations on their way (R267), key requests of Hall threads, and rings on their way within an island. -/
structure KeysSt where
  keys : NMap KeySt := []
  granted : List KeyRsp := []
  hallReqs : List KeyReq := []
  rings : List Ring := []
deriving DecidableEq, Repr, Inhabited

/-! ### Courier links -/

/-- A sequenced parcel in a link's replay buffer (R432): its sequence, bytes, class, and the bucket it was placed by (group × 256 + bucket + 1, 0 none). -/
structure Sent where
  seq : Nat
  bytes : List Byte
  cls : Nat
  tag : Nat
deriving DecidableEq, Repr, Inhabited

/-- A Courier link (R425 to R439, R454 to R467; its state stands in COUR_LINK_STAT): when it entered its state; NEXT and EXP; the replay buffer, oldest first, and when its
timer started; the peer's RFREE and the bytes of general parcels sent since the last ACK; whether a NAK has gone for this EXP, and since when an acknowledgement is due;
control parcels waiting (type, payload); the last parcel sent; when HELLO, HEARTBEAT and TIME were sent last and a HEARTBEAT received last; the last HEARTBEAT received
and the peer's time depth; the dissenting pair alarmed last, and whether a pending difference, and a refusal, have been alarmed; the number of the last TIME sent and the
times of the last ones; the last TIME received (number, time) and the delay measured; the last SEAL_RESP; what the alarm bucket lacks (in 2⁻²¹ bytes) and when, the
alarm records and summaries waiting, and the overflow summary; and the receive buffer, oldest first (R433): DATA parcels accepted and not yet forwarded into COUR_IN, each
with the postmark of its arrival. -/
structure CourLink where
  since : Nat := 0
  next : Nat := 0
  exp : Nat := 0
  unacked : List Sent := []
  timerAt : Nat := 0
  rfree : Nat := 60
  genSince : Nat := 0
  nakSent : Bool := false
  ackDue : Option Nat := none
  ctl : List (Nat × List Byte) := []
  lastTx : List Byte := []
  helloAt : Nat := 0
  hbSentAt : Nat := 0
  timeSentAt : Nat := 0
  hbAt : Nat := 0
  hb : List Byte := []
  depth : Nat := 16
  dissented : Nat := 0
  pendAlarmed : Bool := false
  refused : Bool := false
  timeNo : Nat := 0
  timesSent : List (Nat × Nat) := []
  timeRx : Option (Nat × Nat) := none
  delay : Int := 0
  peerSeal : List Byte := []
  alarmMissing : Nat := 0
  alarmAt : Nat := 0
  alarms : List Alarm := []
  sums : List Summary := []
  ovr : Option Summary := none
  rxBuf : List (Nat × List Byte) := []
deriving DecidableEq, Repr, Inhabited

/-- A bucket moving from one way of a group to another (R447): since when, since when nothing of it is left on the old way's link, and the envelopes held. -/
structure BucketMove where
  bucket : Nat
  old : Nat
  new : Nat
  since : Nat
  clearAt : Option Nat
  held : List Env
deriving DecidableEq, Repr, Inhabited

/-- A multipath group (R441, R445 to R450): the eight way slots, the way of each bucket (none before it is given any), the flowlet table (bucket + 1 and when it was used last), moves
under way, bytes by bucket in the monitor's interval, the interval of each bucket's last move (+ 1), intervals counted, and when the present one began. -/
structure CourGroup where
  ways : List Nat := []
  buckets : List Nat := []
  flowlets : NMap (Nat × Nat) := []
  moves : List BucketMove := []
  bytes : NMap Nat := []
  moved : NMap Nat := []
  intervals : Nat := 0
  monAt : Nat := 0
deriving DecidableEq, Repr, Inhabited

/-- The Courier block: links, route entries, groups, how often the groups have been reseeded and when last, and the current and pending seals (R454). -/
structure CourSt where
  links : NMap CourLink := []
  routes : NMap Word := []
  groups : NMap CourGroup := []
  seedGen : Nat := 0
  reseedAt : Nat := 0
  seal_ : List Byte := []
  pseal : List Byte := []
deriving DecidableEq, Repr, Inhabited


/-! ### Life cycle -/

/-- A key slot record (R484 to R486): type, tenancy, persistence, length in bytes and material. -/
structure KSlot where
  typ : Nat
  tenancy : Nat
  persist : Bool
  len : Nat
  data : List Byte
deriving DecidableEq, Repr, Inhabited

/-- The one-time-programmable contents that can change (R488, R490): key hashes programmed, slots revoked, and fuses of the security
version blown. -/
structure OtpSt where
  hashes : NMap Nat := []
  revoked : List Nat := []
  svn : Nat := 0
deriving DecidableEq, Repr, Inhabited

/-- A Cellar image (R521, R522): its header fields, the final snapshot, the key slot records, the strongbox, and whether its
commit record is present and every CRC matches. -/
structure Image where
  kind : Nat
  seq : Nat
  pm : Nat
  mode : Nat
  health : Nat
  timeStatus : Nat
  epochs : Nat
  hucStat : Nat
  vin : Nat
  snapshot : List Host.Cell
  records : List (Nat × List Byte)
  strong : List Host.Cell
  valid : Bool
deriving DecidableEq, Repr, Inhabited

/-- The pins and the life-cycle controller (R499 to R520, R529 to R531): the main rails, the levels of PRESENT_N, ENABLE and
SYS_RESET_N, VIN_12 in 10 mV, EJECT_OK_N asserted, whether the module is parked in HOLDUP or its Save island is without
power, whether a pin that R510 and R515 wait for has been cycled, a SYS_RESET_N held until the save is complete, the
image being saved, when WITHDRAW began and how far it has gone, the hold-up tester, failed lanes, and the filter of
WITHDRAW_REQ_N (R560). -/
structure LifeSt where
  rails : Bool := true
  presentHigh : Bool := false
  enableHigh : Bool := true
  sysResetHigh : Bool := true
  vin : Nat := 1200
  ejectOk : Bool := false
  parked : Bool := false
  dark : Bool := false
  holdCause : Nat := 0
  cycled : Bool := false
  resetHeld : Bool := false
  saving : Option (Nat × Image) := none
  wdAt : Nat := 0
  wdStopped : Bool := false
  wdDrained : Bool := false
  entryAt : Nat := 0
  chargeAt : Nat := 0
  testAt : Nat := 0
  goodTests : Nat := 0
  lanesFailed : List Nat := []
  sensorsGoodAt : Nat := 0
  meterFailed : Bool := false
  wdreqHigh : Bool := true
  wdreqSince : Nat := 0
  wdreqArmed : Bool := true
  wdreqStuck : Bool := false
deriving DecidableEq, Repr, Inhabited

/-- The Cellar and the strongbox (R521 to R528): the image slots, the highest SEQ written or found, the newest valid slot, the
blocks remapped to spares, the checkpoint being written (slot, when it began, image), the last checkpoint not yet
read back, the second of the last checkpoint, the strongbox, the snapshot of the image restored, and the counter from which each record of a key
slot has its IV (R486). -/
structure CellarSt where
  images : List (Nat × Image) := []
  seq : Nat := 0
  newest : Option Nat := none
  remapped : List (Nat × Nat) := []
  ckpt : Option (Nat × Nat × Image) := none
  unread : Option Nat := none
  ckptSec : Nat := 0
  strong : List Host.Cell := []
  prevSnap : List Host.Cell := []
  recIv : Nat := 0
deriving DecidableEq, Repr, Inhabited

/-! ### DRAM -/

/-- A request the DRAM controller has received (R373) and when. -/
structure DramWait where
  r : DramReq
  since : Nat
deriving DecidableEq, Repr, Inhabited

/-- The DRAM controller (R371 to R394): the bytes of DRAM and the poisoned lines, the 64 KiB blocks filled by writes before the background fill is
complete, whether training has ended, the requests received and not yet performed (a write is acknowledged as it is received), the row open in each bank, the
times of the last refresh, temperature read, calibration and retune of each rank (key kind × 16 + rank), refreshes postponed per rank, the last
temperature of each rank, ranks in a hot excursion, patrol pointers per logical rank, corrected errors per rank in the present 24-hour
window (window, count), when each channel's migration began, since when and from how many lines it advances at the present RATE, writes that could not be committed and await their late error (thread, tag,
module address), records queued for the recorder, records dropped since the last one written, and when the trigger was taken. -/
structure DramSt where
  mem : List Host.Cell := []
  poison : List Nat := []
  direct : List Nat := []
  filled : List Nat := []
  fillPtr : Nat := 0
  trained : Bool := false
  readyAt : Nat := 0
  queue : List DramWait := []
  rows : NMap Nat := []
  served : NMap Nat := []
  postponed : NMap Nat := []
  temps : NMap Nat := []
  hot : List Nat := []
  patrol : NMap Nat := []
  patrolAt : NMap Nat := []
  ceWin : NMap (Nat × Nat) := []
  migAt : NMap Nat := []
  migRate : NMap (Nat × Nat) := []
  migCopied : NMap Nat := []
  late : List (Nat × Nat × Nat) := []
  recQ : List (List Word) := []
  recGap : Nat := 0
  recDone : Nat := 0
  trigAt : Nat := 0
deriving DecidableEq, Repr, Inhabited


/-! ### The Workshop and the Ledger -/

/-- An edge of a graph (R275, R285): its ends, its depth, where its FIFO lies in bench memory (0 for one in the token store), the slot of its oldest token and how
many it holds, and the tokens of one in the token store. -/
structure GEdge where
  src : Nat
  out : Nat
  dst : Nat
  inp : Nat
  depth : Nat
  base : Nat
  head : Nat := 0
  count : Nat := 0
  toks : List (List Word) := []
deriving DecidableEq, Repr, Inhabited

/-- A node running (R299, R304): the thread that holds it (0xFFFF the bench helper), and when it times out. -/
structure NodeRun where
  thread : Nat
  limitAt : Nat
deriving DecidableEq, Repr, Inhabited

/-- A pending set of an ALIGN node (R293): its SMPCNT, when its first token arrived and that token's PM, and whether its hold has expired. -/
structure AlignSet where
  smp : Nat
  since : Nat
  pm : Word
  expired : Bool
deriving DecidableEq, Repr, Inhabited

/-- A node of a graph (R284): its entry; how it runs and how often it has been dispatched; the last set an ALIGN has released and its pending sets; a WINDOW's ring, the slot
written next, the tokens it holds (up to N) and those since its last DATA token; whether it waits for its account, and whether its deferral has been recorded. -/
structure GNode where
  kind : Nat
  nin : Nat
  nout : Nat
  prio : Nat
  log : Bool
  arg : Nat
  limit : Nat
  cost : Nat
  param : Nat
  run : Option NodeRun := none
  count : Nat := 0
  last : Option Nat := none
  sets : List AlignSet := []
  ring : Nat := 0
  slot : Nat := 0
  have_ : Nat := 0
  since : Nat := 0
  noAcct : Bool := false
  deferred : Bool := false
deriving DecidableEq, Repr, Inhabited

/-- A loaded graph (R283, R287): its nodes and edges, account, and its BUF and PARAM areas; its state, tenancy and bench stand in WSHOP_GRAPH_STAT. -/
structure Graph where
  nodes : List GNode := []
  edges : List GEdge := []
  account : Nat := 0
  bufBase : Nat := 0
  bufLen : Nat := 0
  paramDest : Nat := 0
  paramLen : Nat := 0
deriving DecidableEq, Repr, Inhabited

/-- A LOAD that runs: the graph slot, tenancy and offset, and the references of the DRAM reads of its image, from the first on (R286, R378). -/
structure LoadJob where
  graph : Nat
  ten : Nat
  ofs : Nat
  ref : Nat
  refs : Nat
deriving DecidableEq, Repr, Inhabited

/-- The Workshop (R286 to R309): the graphs, the ready nodes of unpinned graphs in order of becoming ready (graph, node), where the rotations over TAP hatches and over each
bench's engines stand, and the LOAD that runs (graph, tenancy, offset). -/
structure WshopSt where
  graphs : NMap Graph := []
  ready : List (Nat × Nat) := []
  tapNext : Nat := 0
  engNext : NMap Nat := []
  load : Option LoadJob := none
deriving DecidableEq, Repr, Inhabited

/-- The Ledger (R396 to R420): the energies accepted in the tick and the last sixteen reports of each island (nJ); the slots of each thread already charged and the cycles of
each island at the last tick; the nodes completed in the tick (account, bench, thread, slots); what is left of charges below 1 µJ (nJ); the
number of the last tick boundary in module time, and its time since ENTRY; the time of a boundary met before a step of module time and not yet acted on; ticks since ENTRY; ticks in a row of negative headroom at the floors, and of the cap unmet; engines being drained (since when, whether
by the host), engines out of Ledger control, the tick from which an engine may be chosen again, unpark requests, engines being unparked; clocks to take effect; sensors that have failed and
the ticks each has given no reading; and since when EST has stood at 125 °C or more. -/
structure LedgSt where
  energy : NMap Nat := []
  reports : NMap (List Nat) := []
  slotsAt : NMap Nat := []
  cycAt : NMap Nat := []
  nodes : List (Nat × Nat × Nat × Nat) := []
  rest : NMap Nat := []
  tickAt : Nat := 0
  tickUp : Nat := 0
  tickMet : Option Nat := none
  ticks : Nat := 0
  negTicks : Nat := 0
  capTicks : Nat := 0
  draining : NMap (Nat × Bool) := []
  hostHeld : List Nat := []
  notBefore : NMap Nat := []
  wanted : List Nat := []
  unparking : List Nat := []
  freqs : NMap Nat := []
  badSensors : List Nat := []
  silent : NMap Nat := []
  critSince : Option Nat := none
deriving DecidableEq, Repr, Inhabited


/-! ### The state -/

/-- The state of the CTM-512. -/
structure State where
  /-- The queue of commands waiting, first in, first out. -/
  pending : List Instr
  /-- Time since ENTRY began, in units of 2⁻¹⁶ ns; it only grows. -/
  up : Nat
  /-- Module time (R92, R93) as one number of 2⁻¹⁶ ns; the postmark is computed from it. -/
  now : Nat
  /-- The model's own counter of the free values drawn so far (log entry 5). -/
  draws : Nat
  /-- The register file: BAR0 offset (or internal key) to value; unlisted registers read their reset value. -/
  regs : NMap Word
  /-- What the last read of each master returned. -/
  resp : NMap Word
  /-- The masters whose last read completion carried the EP bit (R392). -/
  respEp : List Nat
  /-- LO words and window words held for a master until its HI write (R573, R586, R589): key master × 2²⁴ + offset. -/
  holds : NMap Word
  /-- HI words latched for a master by its read of LO (R544): key master × 2²⁴ + offset. -/
  latches : NMap Word
  /-- The live 64-bit statistics counters (R545): key (set base + counter number). -/
  stats : NMap Nat
  /-- The event block. -/
  evt : EvtSt
  /-- The hatches, keyed by hatch number (R26). -/
  hatches : NMap Hatch
  /-- Where a hatch's producer waits for credit: the cycle of its island in which the wait began, plus 1 (R27). -/
  hatchSince : NMap Nat
  /-- The epoch unit. -/
  epoch : EpochSt
  /-- The ports, keyed by port number. -/
  ports : NMap PortSt
  /-- The slice fronts, keyed by slice. -/
  slices : NMap SliceSt
  /-- The tables every Directory shares. -/
  dirs : DirShared
  /-- The stations' distributors and gates, keyed by station number. -/
  stations : NMap StationSt
  /-- The frames in cell memory, keyed by the number of their first cell. -/
  frames : NMap Frame
  /-- The Depot. -/
  depot : DepotSt
  /-- The TIME block. -/
  time : TimeSt
  /-- The hatch a snapshot has been asked of and not yet taken (R27). -/
  snapReq : Option Nat
  /-- The pins and the life-cycle controller. -/
  life : LifeSt
  /-- The Cellar and the strongbox. -/
  cellar : CellarSt
  /-- The helper blocks. -/
  help : HelpSt
  /-- The one-time-programmable fuses. -/
  otp : OtpSt
  /-- The boot flash: bytes written since the part was shipped. -/
  flash : List Host.Cell
  /-- The key store (R484), keyed by slot. -/
  keySlots : NMap KSlot
  /-- The side bus. -/
  sb : SbSt
  /-- The engines, keyed by engine number (R147). -/
  engines : NMap Engine
  /-- Shared memory, keyed by island. -/
  shared : NMap Shared
  /-- The cycle counts of the islands. -/
  clks : NMap Clk
  /-- The functions whose mailbox requests wait for the mailbox agent, in the order of their GO (R538, R542). -/
  mbxQ : List Nat
  /-- The functions whose requests wait for Hall firmware, and since when (R538, R541). -/
  mbxFw : NMap Nat
  /-- The functions whose firmware request has rung the target thread (R538). -/
  mbxRung : List Nat
  /-- The mailbox responses that Hall firmware has stored and the mailbox has not yet taken, by function (R538). -/
  mbxStored : List Nat
  /-- The keys and doorbells on their way. -/
  keys : KeysSt
  /-- The DRAM controller. -/
  dram : DramSt
  /-- The Workshop. -/
  wshop : WshopSt
  /-- The Ledger. -/
  ledg : LedgSt
  /-- The Courier block. -/
  cour : CourSt
deriving DecidableEq, Repr

/-- The block right after reset: at the start of ENTRY, with an empty queue, every register at its reset value,
every memory as it reads before anything is written, and every queue empty. -/
def State.reset : State :=
  { pending := []
    up := 0
    now := 0
    draws := 0
    regs := []
    resp := []
    respEp := []
    holds := []
    latches := []
    stats := []
    evt := default
    hatches := []
    hatchSince := []
    epoch := default
    ports := []
    slices := []
    dirs := default
    stations := []
    frames := []
    depot := default
    time := default
    snapReq := none
    life := default
    cellar := default
    help := default
    otp := default
    flash := []
    keySlots := []
    sb := default
    engines := []
    shared := []
    clks := []
    mbxQ := []
    mbxFw := []
    mbxRung := []
    mbxStored := []
    keys := default
    dram := default
    wshop := default
    ledg := default
    cour := default }

end Sys2Proof.Machine
end

