-- ==== Sys2Proof/Machine/Ops.lean ====
section
/-! DEFINITION. The named operations the meanings share: bits, sparse tables, module time, the register file, alarms,
event counters, statistics, free values, and the rules every access to BAR0 meets. -/

namespace Sys2Proof.Machine

/-! ### Bits and numbers -/

/-- Bits [hi:lo] of a number. -/
def bits (w hi lo : Nat) : Nat := (w >>> lo) % 2 ^ (hi + 1 - lo)

/-- The number w with bits [hi:lo] replaced by v. -/
def putBits (w hi lo v : Nat) : Nat :=
  w - (bits w hi lo <<< lo) + ((v % 2 ^ (hi + 1 - lo)) <<< lo)

/-- Bits [hi:lo] of a register word. -/
def fld (w : Word) (hi lo : Nat) : Nat := bits w.toNat hi lo

/-- A register word with bits [hi:lo] replaced by v. -/
def putFld (w : Word) (hi lo v : Nat) : Word := BitVec.ofNat 32 (putBits w.toNat hi lo v)

/-- Bit i of a register word. -/
def bitOf (w : Word) (i : Nat) : Bool := w.toNat.testBit i

/-- The two's complement reading of an n-bit field. -/
def signed (n w : Nat) : Int := if w % 2 ^ n < 2 ^ (n - 1) then (w % 2 ^ n : Int) else (w % 2 ^ n : Int) - 2 ^ n

/-- A truth value as a bit. -/
def b2n (b : Bool) : Nat := if b then 1 else 0

/-- A sum that sticks at a limit. -/
def satAdd (limit a b : Nat) : Nat := if a + b < limit then a + b else limit

/-- A number as n bytes, the least significant first. -/
def leBytes : Nat → Nat → List Byte
  | 0, _ => []
  | n + 1, w => BitVec.ofNat 8 w :: leBytes n (w / 256)

/-- The number n bytes hold, the least significant first. -/
def leNat : List Byte → Nat
  | [] => 0
  | b :: r => b.toNat + 256 * leNat r

/-- A number as n bytes, the most significant first. -/
def beBytes (n w : Nat) : List Byte := (leBytes n w).reverse

/-- The number bytes hold, the most significant first. -/
def beNat (l : List Byte) : Nat := leNat l.reverse

/-- n bytes of a list from an offset; bytes beyond its end read 0. -/
def slice (l : List Byte) (ofs n : Nat) : List Byte :=
  let p := (l.drop ofs).take n
  p ++ List.replicate (n - p.length) 0

/-- A list of bytes with n bytes from an offset overwritten, within the list's length. -/
def overwrite (l : List Byte) (ofs : Nat) (b : List Byte) : List Byte :=
  if ofs ≤ l.length then l.take ofs ++ (b.take (l.length - ofs)) ++ l.drop (ofs + b.length) else l

/-- The list without the element at an index. -/
def dropAt {α : Type} (l : List α) (i : Nat) : List α := l.take i ++ l.drop (i + 1)

/-- The list with the element at an index changed. -/
def modAt {α : Type} (l : List α) (i : Nat) (f : α → α) : List α :=
  match l, i with
  | [], _ => []
  | a :: r, 0 => f a :: r
  | a :: r, n + 1 => a :: modAt r n f

/-! ### Sparse tables -/

/-- What a sparse table holds at a key; an unlisted key reads the default. -/
def mapGet {α : Type} (d : α) : NMap α → Nat → α
  | [], _ => d
  | (k, v) :: r, i => if k = i then v else mapGet d r i

/-- The table without a key. -/
def mapErase {α : Type} (m : NMap α) (i : Nat) : NMap α := m.filter (fun p => p.1 != i)

/-- The pair put in its place among rising keys. -/
def mapInsert {α : Type} : NMap α → Nat → α → NMap α
  | [], i, v => [(i, v)]
  | (k, w) :: r, i, v => if i < k then (i, v) :: (k, w) :: r else (k, w) :: mapInsert r i v

/-- The table with a key set; setting the value an unlisted key reads as unlists the key. -/
def mapSet {α : Type} [DecidableEq α] (d : α) (m : NMap α) (i : Nat) (v : α) : NMap α :=
  if v = d then mapErase m i else mapInsert (mapErase m i) i v

/-- The table with every key of a range unlisted. -/
def mapClear {α : Type} (m : NMap α) (lo n : Nat) : NMap α :=
  m.filter (fun p => !(decide (lo ≤ p.1) && decide (p.1 < lo + n)))

/-- Keys strictly rising from a bound, and no value equal to the default: the canonical form of a sparse table. -/
def mapWfFrom {α : Type} [DecidableEq α] (d : α) : Nat → NMap α → Bool
  | _, [] => true
  | b, (k, v) :: r => decide (b ≤ k) && decide (v ≠ d) && mapWfFrom d (k + 1) r

/-- The canonical form. -/
def mapWf {α : Type} [DecidableEq α] (d : α) (m : NMap α) : Bool := mapWfFrom d 0 m

/-- The canonical form of a byte memory: addresses strictly rising, and no listed byte equal to what an unlisted address reads as. -/
def Memory.wf (m : List Host.Cell) : Bool := mapWf 0 m

/-- One byte of a sparse byte memory; a byte never written reads 0. -/
def memByte (m : List Host.Cell) (a : Nat) : Byte := mapGet 0 m a

/-- n bytes of a byte memory. -/
def memRead (m : List Host.Cell) (a n : Nat) : List Byte := (List.range n).map fun i => memByte m (a + i)

/-- A byte memory with bytes written from an address. -/
def memWrite (m : List Host.Cell) (a : Nat) : List Byte → List Host.Cell
  | [] => m
  | b :: r => memWrite (mapSet 0 m a b) (a + 1) r

/-! ### Module time (R92, R93) -/

/-- 2⁻¹⁶ ns in one nanosecond. -/
def nsUnit : Nat := 65536

/-- Units of time in a second. -/
def secUnit : Nat := 1000000000 * 65536

/-- The 64-bit postmark of a time: SEC modulo 2³⁴ in [63:30], NS in [29:0] (R92). -/
def pmOf (t : Nat) : Nat := (t / secUnit % 2 ^ 34) * 2 ^ 30 + t / nsUnit % 1000000000

/-- The fraction FRAC of an extended postmark (R93). -/
def fracOf (t : Nat) : Nat := t % nsUnit

/-- The time a valid 64-bit postmark names. -/
def timeOfPm (pm : Nat) : Nat := (pm / 2 ^ 30) * secUnit + (pm % 2 ^ 30) * nsUnit

/-- The postmark of the current module time. -/
def pmNow (s : State) : Nat := pmOf s.now

/-- Time passes: module time advances with it, and slews toward the source by at most 10 parts in a million (R104). -/
def advance (s : State) (dt : Nat) : State :=
  let room := (s.time.slewCredit + dt) / 100000
  let step : Int :=
    if s.time.slew < 0 then (if (room : Int) < -s.time.slew then -(room : Int) else s.time.slew)
    else (if (room : Int) < s.time.slew then (room : Int) else s.time.slew)
  { s with
    up := s.up + dt
    now := ((s.now : Int) + dt + step).toNat
    time := { s.time with slew := s.time.slew - step, slewCredit := (s.time.slewCredit + dt) % 100000 } }

/-! ### The register file -/

/-- Whether an offset, relative to a register's first, is one of its places. -/
def dimsMatch : List (Nat × Nat) → Nat → Bool
  | [], r => r == 0
  | (stride, count) :: rest, r => decide (r / stride < count) && dimsMatch rest (r % stride)

/-- Whether a register stands at an offset. -/
def regAt (d : RegDesc) (ofs : Nat) : Bool := decide (d.base ≤ ofs) && dimsMatch d.dims (ofs - d.base)

/-- The register that stands at an offset, if the map has one there (R566). -/
def findReg (ofs : Nat) : Option RegDesc := regTable.find? (fun d => regAt d ofs)

/-- Reset values that differ among the places of one register, or come from OTP: the seeds, the device identity, TEN_DRAM_CFG,
LEDG_ACCT_CFG, DRAM_QOS_CFG, the MIN_CELLS cap of class 7 pigeonholes, LEDG_ISL_CFG, and the MSI-X mask bits, which PCI Express resets to 1 (R557, R570; PRESUMED,
log entry 12). -/
def regResetSpecial (ofs : Nat) : Option Word :=
  if 0x10 ≤ ofs ∧ ofs < 0x20 then some (Config.deviceId ((ofs - 0x10) / 4))
  else if ofs = Reg.tenDramCfg 0 then some 0x80000000
  else if ofs = Reg.acctCfg 0 then some 0x80000400
  else if ofs = Reg.acctCfg 1 then some 0x80400400
  else if ofs = Reg.acctCfg 17 ∨ ofs = Reg.acctCfg 18 then some 0x80200400
  else if ofs = Reg.acctCfg 19 then some 0x80800400
  else if Reg.qosCfg 0 ≤ ofs ∧ ofs < Reg.qosCfg 8 ∧ ofs % 16 = 0 then
    some (BitVec.ofNat 32 (([2000, 4000, 10000, 20000, 50000, 5000, 4000, 10000] : List Nat).getD ((ofs - Reg.qosCfg 0) / 16) 0))
  else if Reg.phCfg 0 ≤ ofs ∧ ofs < Reg.phCfg 4352 ∧ ofs % 64 = 0 ∧ (ofs / 64) % 8 = 7 then some 0x09600100
  else if Reg.ledgIslCfg 0 ≤ ofs ∧ ofs < Reg.ledgIslCfg 84 ∧ ofs % 8 = 0 then
    let i := (ofs - Reg.ledgIslCfg 0) / 8
    if i < 48 ∨ (73 ≤ i ∧ i ≤ 80) then none else some 0
  else if 0x1180 ≤ ofs ∧ ofs < 0x3000 ∧ 0x180 ≤ ofs % 0x200 ∧ ofs % 0x200 < 0x1C0 ∧ ofs % 16 = 12 then some 1
  else if 0x100000 ≤ ofs ∧ ofs < 0x180000 then
    let r := ofs % 0x8000
    let seed (c : Nat) : Option Word := some (Config.otpSeed ((ofs - 0x100000) / 0x8000) c)
    if r = 0x2114 ∨ r = 0x2118 then seed 1
    else if r = 0x2124 ∨ r = 0x2128 then seed 2
    else if r = 0x2164 ∨ r = 0x2168 then seed 6
    else none
  else none

/-- What a register reads before anything is written to it (R570). -/
def regReset (ofs : Nat) : Word :=
  match regResetSpecial ofs with
  | some w => w
  | none => match findReg ofs with
    | some d => BitVec.ofNat 32 d.reset
    | none => 0

/-- The value a register holds. -/
def State.reg (s : State) (ofs : Nat) : Word := mapGet (regReset ofs) s.regs ofs

/-- A register set to a value. -/
def State.setReg (s : State) (ofs : Nat) (v : Word) : State :=
  { s with regs := mapSet (regReset ofs) s.regs ofs v }

/-- Field [hi:lo] of a register. -/
def State.rf (s : State) (ofs hi lo : Nat) : Nat := fld (s.reg ofs) hi lo

/-- A register with field [hi:lo] set by the module. -/
def State.setRf (s : State) (ofs hi lo v : Nat) : State := s.setReg ofs (putFld (s.reg ofs) hi lo v)

/-- Bit i of a register. -/
def State.rb (s : State) (ofs i : Nat) : Bool := bitOf (s.reg ofs) i

/-- A per-port register of port p: its lane and sub-port place (R568). -/
def pReg (f : Nat → Nat → Nat) (p : Nat) : Nat := f (p / 4) (p % 4)

/-- A station register of station n (slice n ÷ 3, Room n mod 3; R567). -/
def stReg (f : Nat → Nat → Nat) (n : Nat) : Nat := f (n / 3) (n % 3)

/-! ### Free values -/

/-- The next free value: a draw whose value nothing constrains (log entry 5). -/
def State.freeValue (s : State) : Nat := Config.draw s.draws

/-- The counter past one draw. -/
def State.drawn (s : State) : State := { s with draws := s.draws + 1 }

/-! ### Per-unit records -/

def State.port (s : State) (p : Nat) : PortSt := mapGet default s.ports p
def State.setPort (s : State) (p : Nat) (v : PortSt) : State := { s with ports := mapSet default s.ports p v }
def State.slice (s : State) (i : Nat) : SliceSt := mapGet default s.slices i
def State.setSlice (s : State) (i : Nat) (v : SliceSt) : State := { s with slices := mapSet default s.slices i v }
def State.station (s : State) (i : Nat) : StationSt := mapGet default s.stations i
def State.setStation (s : State) (i : Nat) (v : StationSt) : State := { s with stations := mapSet default s.stations i v }
def State.frame (s : State) (c : Nat) : Frame := mapGet default s.frames c
def State.setFrame (s : State) (c : Nat) (v : Frame) : State := { s with frames := mapSet default s.frames c v }
def State.hatch (s : State) (h : Nat) : Hatch := mapGet default s.hatches h
def State.setHatch (s : State) (h : Nat) (v : Hatch) : State := { s with hatches := mapSet default s.hatches h v }

/-! ### Island clocks (R14, R149) -/

/-- The island of an engine. -/
def engIsland (e : Nat) : Nat := if e < 192 then e / 4 else if e < 224 then 73 + (e - 192) / 4 else 81

/-- The clock of an island in units of 100 MHz: set by the Ledger for stations and benches, fixed for the others. -/
def islandClock (s : State) (i : Nat) : Nat :=
  if i < 48 ∨ (73 ≤ i ∧ i ≤ 80) then s.rf (Reg.ledgIslCfg i) 12 8
  else if i < 64 ∨ i = 81 then 10 else if i = 72 then 12 else if i = 82 then 16 else 10

/-- The cycle count of an island since ENTRY (R149); port groups run at 805.6640625 MHz. -/
def cycleOf (s : State) (i : Nat) : Nat :=
  let k := mapGet default s.clks i
  let t := s.up - max k.since s.life.entryAt
  if 64 ≤ i ∧ i ≤ 71 then t * 8056640625 / 655360000000000 else k.cyc + t * islandClock s i / 655360

/-! ### The time of an island (R107, R108) -/

/-- The increment of a local cycle, in 2⁻¹⁶ ns; port groups run at 805.6640625 MHz. -/
def islandStep (s : State) (i : Nat) : Nat := if 64 ≤ i ∧ i ≤ 71 then 81344 else 655360 / max 1 (islandClock s i)

/-- What an island's local time counter shows, as its newest correction word steers it: the time at the word's marked edge and an increment for each local cycle since. The Hall
reads the master time; an island without a word yet has no time. -/
def islandTime (s : State) (i : Nat) : Option Nat :=
  if i = 81 then some s.now
  else (s.time.words.find? fun p => p.1 == i).map fun p => p.2.1 + (cycleOf s i - p.2.2.2) * p.2.2.1

/-- The local counter of an island goes on with the increment of its new clock, from the cycle of a change of frequency (R107). -/
def restep (s : State) (i : Nat) : State :=
  match islandTime s i with
  | some t => if i = 81 then s else { s with time := { s.time with words := mapSet (0, 0, 0) s.time.words i (t, islandStep s i, cycleOf s i) } }
  | none => s

/-! ### The hatches (R17 to R26) -/

/-- Hatch number of a kind and instance (R26). -/
def hatchNo (kind i : Nat) : Nat := kind * 128 + i

/-- The instances that exist of each kind (table of hatch kinds, R26). -/
def hatchExists (h : Nat) : Bool :=
  let k := h / 128
  let i := h % 128
  let bench := decide (73 ≤ i) && decide (i ≤ 80)
  if k ≤ 0x08 then decide (i < 16)
  else if k ≤ 0x0B then decide (i < 48)
  else if k ≤ 0x0E then decide (i < 8)
  else if k ≤ 0x10 then (decide (48 ≤ i) && decide (i ≤ 63)) || (decide (73 ≤ i) && decide (i ≤ 81))
  else if k ≤ 0x12 ∨ k = 0x14 then decide (i ≤ 80) || i == 82 || i == 83
  else if k = 0x13 ∨ k = 0x15 then decide (i ≤ 80) || i == 82
  else if k ≤ 0x17 then decide (i < 48) || bench
  else if k ≤ 0x19 then decide (i < 32)
  else if k ≤ 0x1B then i == 0
  else false

/-- General depth of a kind. -/
def hatchDepth (h : Nat) : Nat :=
  ([128, 32, 16, 16, 16, 16, 16, 32, 128, 24, 32, 16, 8, 16, 16, 16, 16, 8, 8, 2, 8, 2, 8, 8, 128, 128, 32, 16] : List Nat).getD (h / 128) 0

/-- Express depth of a kind; 0 where it has no express sub-channel. -/
def hatchXdepth (h : Nat) : Nat :=
  let k := h / 128
  if 2 ≤ k ∧ k ≤ 6 then 4 else if k = 9 then 8 else if k = 10 then 16 else 0

/-- Whether a kind carries envelopes or helper traffic, so that its producer holds each entry on its own (R619). -/
def hatchFlows (h : Nat) : Bool := hatchXdepth h != 0

/-- The island that produces a hatch's entries (table of hatch kinds, R26). -/
def hatchProducer (h : Nat) : Nat :=
  let k := h / 128
  let i := h % 128
  if k = 0 then 64 + i / 2
  else if k = 1 ∨ k = 2 ∨ k = 8 then 48 + i
  else if k = 3 then 3 * i
  else if k = 4 then 3 * i + 1
  else if k = 5 ∨ k = 7 ∨ k = 0x19 then 72
  else if k = 6 then 3 * i + 2
  else if k = 9 ∨ k = 0x0B ∨ k = 0x0F ∨ k = 0x12 ∨ k = 0x13 ∨ k = 0x14 ∨ k = 0x16 then i
  else if k = 0x0A then 48 + i / 3
  else if k = 0x0D ∨ k = 0x0E then 73 + i
  else if k = 0x10 then 82
  else if k = 0x18 then 64 + i / 4
  else 81

/-- General credits the producer holds: the depth less the entries sent and not yet seen as removed (R17). -/
def Hatch.credits (x : Hatch) (h : Nat) : Nat := hatchDepth h - x.gOut.length

/-- Express credits. -/
def Hatch.xcredits (x : Hatch) (h : Nat) : Nat := hatchXdepth h - x.xOut.length

/-- Which sub-channel an entry may be sent into now: express (true), general (false), or neither (R17, R22, R23). An express entry turns to general credit only when
express credit is exhausted. -/
def Hatch.channel (x : Hatch) (h : Nat) (e : HEntry) : Option Bool :=
  if hatchFlows h && e.xpr && decide (0 < x.xcredits h) && !(x.gOut.contains e.flow) then some true
  else if decide (0 < x.credits h) && !(hatchFlows h && x.xOut.contains e.flow) && !(hatchFlows h && e.xpr && decide (0 < x.xcredits h)) then some false
  else none

/-- The entry sent into a sub-channel: it is in transit and its credit is used. -/
def Hatch.push (x : Hatch) (xpr : Bool) (e : HEntry) : Hatch :=
  if xpr then { x with xTransit := x.xTransit ++ [e], xOut := x.xOut ++ [e.flow], xSent := x.xSent + 1 }
  else { x with gTransit := x.gTransit ++ [e], gOut := x.gOut ++ [e.flow], gSent := x.gSent + 1 }

/-- Whether an earlier held entry keeps an entry back: one of its own flow on a hatch with flows, any on another (R619). -/
def heldBack (h : Nat) (before : List HEntry) (e : HEntry) : Bool :=
  if hatchFlows h then before.any (fun b => b.flow == e.flow) else !before.isEmpty

/-- The producer offers an entry: it is sent at once when it may be, and otherwise held intact (R17, R20). -/
def Hatch.offer (x : Hatch) (h : Nat) (e : HEntry) : Hatch :=
  if heldBack h x.held e then { x with held := x.held ++ [e] }
  else match x.channel h e with
    | some xp => x.push xp e
    | none => { x with held := x.held ++ [e] }

/-- The entry the consumer takes next: what it has already taken, else the express head, else the general head (R22). -/
def Hatch.front (x : Hatch) : Option HEntry :=
  match x.taken with
  | e :: _ => some e
  | [] => match x.xFifo with
    | e :: _ => some e
    | [] => x.gFifo.head?

/-- The hatch after the consumer has taken an entry out of the FIFO and counted it as removed (R18). -/
def Hatch.pop (x : Hatch) : Hatch :=
  match x.xFifo with
  | _ :: r => { x with xFifo := r, xUnseen := x.xUnseen + 1, xRemoved := x.xRemoved + 1 }
  | [] => match x.gFifo with
    | _ :: r => { x with gFifo := r, gUnseen := x.gUnseen + 1, gRemoved := x.gRemoved + 1 }
    | [] => x

/-- The hatch after its consumer has consumed its front entry. -/
def Hatch.consume (x : Hatch) : Hatch :=
  match x.taken with
  | _ :: r => { x with taken := r }
  | [] => x.pop

/-- Whether the producer holds an entry for which it has no credit of either kind it may use (R27, WAIT). -/
def Hatch.starved (x : Hatch) (h : Nat) : Bool :=
  x.held.any fun e => x.credits h == 0 && !(hatchFlows h && e.xpr && decide (0 < x.xcredits h))

/-- A wait for general credit on a hatch is noted, by the cycle in which it begins (R27). -/
def State.waitNoted (s : State) (h : Nat) : State :=
  { s with hatchSince := if (s.hatch h).credits h == 0 && mapGet 0 s.hatchSince h == 0 then mapSet 0 s.hatchSince h (cycleOf s (hatchProducer h) + 1) else s.hatchSince }

/-- A producer's wait that begins now is noted, by the cycle in which it begins (R27). -/
def State.waitBegins (s : State) (h : Nat) : State :=
  { s with hatchSince := if (s.hatch h).starved h && mapGet 0 s.hatchSince h == 0 then mapSet 0 s.hatchSince h (cycleOf s (hatchProducer h) + 1) else s.hatchSince }

/-- The cycles of the wait in progress on a hatch. -/
def State.waitRun (s : State) (h : Nat) : Nat :=
  if mapGet 0 s.hatchSince h = 0 then 0 else cycleOf s (hatchProducer h) + 1 - mapGet 0 s.hatchSince h

/-- The entries of a reply hatch not yet removed, on their way or visible. -/
def Hatch.load (x : Hatch) : Nat := x.held.length + x.gTransit.length + x.xTransit.length + x.gFifo.length + x.xFifo.length

/-- Commands of a station in a helper's function units, started or waiting for one: of all threads, or of T-threads only. -/
def unitLoad (s : State) (st : Nat) (timed : Bool) : Nat :=
  let mine (c : HelpCmd) : Bool := c.thread / 64 == st && (!timed || c.timed)
  let n (l : List HelpCmd) : Nat := (l.filter mine).length
  ((mapGet default s.help.helpers (st / 3)).units.map fun p =>
    n (p.2.run.toList.map (·.cmd)) + n (p.2.yielded.toList.map (·.cmd)) + n (p.2.waitT.toList.map (·.1)) + n (p.2.waitS.toList.map (·.1)) + n (p.2.parked.map (·.1))).foldl (· + ·) 0

/-- Whether the requester has room for the reply of one more request (R24): the replies still to come through the reply hatch, and those that stand in it, number fewer
than its places. A KACQ that waits at the key's home holds none until its status is on its way (log entry 25). -/
def State.replyRoom (s : State) (h : Nat) (e : HEntry) : Bool :=
  let k := h / 128
  let i := h % 128
  let sent := (s.hatch h).gTransit.length + (s.hatch h).gFifo.length + (s.hatch h).xTransit.length + (s.hatch h).xFifo.length + (s.hatch h).taken.length
  if k = 9 then decide (sent + unitLoad s i false + (s.hatch (hatchNo 0x0A i)).load < (if e.xpr then 48 else 32))
  else if k = 0x0F then decide (sent + (s.dram.queue.filter fun w => w.r.src == i).length + (s.hatch (hatchNo 0x10 i)).load < 16)
  else if k = 0x11 then decide (sent + (s.hatch (hatchNo 0x12 i)).load < 8)
  else if k = 0x16 then (match e.pay with | .keyReq r => decide (2 < r.op) | _ => false) || decide (sent + (s.hatch (hatchNo 0x17 i)).load < 8)
  else true

/-- The producer offers an entry to a hatch of the state: it is sent when it has credit and, for a request, room for the reply; otherwise it is held (R17, R20, R24). -/
def State.offer (s : State) (h : Nat) (e : HEntry) : State :=
  let x := s.hatch h
  (s.setHatch h (if s.replyRoom h e then x.offer h e else { x with held := x.held ++ [e] })).waitBegins h

/-- Whether entries can pass a hatch at once: nothing of it is held, on its way or waiting, and the producer has a credit. -/
def State.clear (s : State) (h : Nat) : Bool :=
  let x := s.hatch h
  x.held.isEmpty && x.gTransit.isEmpty && x.gFifo.isEmpty && x.taken.isEmpty && decide (0 < x.credits h)

/-- n entries that pass a hatch within one command: sent, seen and removed; the credits of all but the last `credits` of them have come back meanwhile (R17 to R20). -/
def Hatch.passN (x : Hatch) (h n : Nat) : Hatch :=
  let k := min n (x.credits h)
  { x with gOut := x.gOut ++ List.replicate k 0, gSent := x.gSent + n, gUnseen := x.gUnseen + k, gRemoved := x.gRemoved + n, peak := if n = 0 then x.peak else max x.peak 1 }

/-- n entries pass a hatch of the state. -/
def State.passed (s : State) (h n : Nat) : State := s.setHatch h ((s.hatch h).passN h n)

/-- The frames a port is receiving: the one in progress and a preempted one that it interrupts (R89). -/
def PortSt.rxAll (x : PortSt) : List RxFrame := x.rx.toList ++ x.rxPre.toList

/-- A port without the frame of a first cell in reception; a frame that it had interrupted goes on. -/
def PortSt.rxDone (x : PortSt) (c : Nat) : PortSt :=
  match x.rx with
  | some r => if r.cell = c then { x with rx := x.rxPre, rxPre := none } else { x with rxPre := none }
  | none => { x with rxPre := none }

/-- Bytes join a frame in reception. -/
def PortSt.rxJoin (x : PortSt) (c : Nat) (b : List Byte) : PortSt :=
  let one (r : RxFrame) : RxFrame := if r.cell = c then { r with bytes := r.bytes ++ b } else r
  { x with rx := x.rx.map one, rxPre := x.rxPre.map one }

/-- The frames a port has begun to send and not ended: an express frame and the preemptable one that it interrupts, or one alone (R87). -/
def PortSt.sendingAll (x : PortSt) : List OutFrame := x.txx.toList ++ x.tx.toList

/-- A port without a frame it was sending. -/
def PortSt.unsent (x : PortSt) (c : Nat) : PortSt :=
  match x.txx with
  | some o => if o.cell = c then { x with txx := none } else { x with tx := none, frags := 0 }
  | none => { x with tx := none, frags := 0 }

/-- Flits of 64 bytes and cells of 256 bytes that n bytes fill. -/
def flitsOf (n : Nat) : Nat := (n + 63) / 64
def cellsOf (n : Nat) : Nat := (n + 255) / 256

/-! ### Alarms (R548, R549) -/

/-- Severity of each alarm code (table of alarm codes). -/
def alarmSev (code : Nat) : Nat :=
  if [0x0105, 0x0204, 0x0604, 0x0704].contains code then 0
  else if [0x0101, 0x0102, 0x0103, 0x0104, 0x0202, 0x0301, 0x0401, 0x0501, 0x0503, 0x0601, 0x0602, 0x0702, 0x0703,
    0x0705, 0x0801, 0x0803, 0x0903].contains code then 1
  else if [0x0504, 0x0804, 0x0901].contains code then 3
  else 2

/-- The record of an alarm of this module, before EVT assigns its sequence number. -/
def mkAlarm (s : State) (code island inst a0 a1 a2 : Nat) : Alarm :=
  { pm := pmNow s, sev := alarmSev code, sum := false, fwd := false, modn := s.rf Reg.courId 9 0, island := island, inst := inst,
    code := code, seq := 0, a0 := a0, a1 := a1, a2 := a2, a3 := 0 }

/-- What an ALARM producer does with a record: it sends it when it has credit, and otherwise counts it in its summary and
never waits (R21). -/
def Hatch.offerAlarm (x : Hatch) (h : Nat) (a : Alarm) : Hatch :=
  if x.carry = 0 ∧ 0 < x.credits h then x.push false { pay := .alarm a, flow := 0, xpr := false }
  else { x with carry := x.carry + 1, carryPm := if x.carry = 0 then a.pm else x.carryPm, carryLast := a.pm }

/-- An alarm is raised in an island: through its ALARM hatch, or straight to EVT from the Hall, which has none (R26). -/
def State.raise (s : State) (code island inst : Nat) (a0 a1 a2 : Nat := 0) : State :=
  let a := mkAlarm s code island inst a0 a1 a2
  if island = 81 then { s with evt := { s.evt with inbox := s.evt.inbox ++ [a] } }
  else s.setHatch (hatchNo 0x14 island) ((s.hatch (hatchNo 0x14 island)).offerAlarm (hatchNo 0x14 island) a)

/-- DRAM accepts requests: DRAM_STAT.READY (R383). -/
def State.dramReady (s : State) : Bool := s.rb Reg.dramStat 30

/-- A build that walks a table in DRAM needs it ready; the others do not. -/
def State.dramReadyFor (s : State) (code : Nat) : Bool := code != 6 || s.dramReady

/-- A change of the life-cycle record. -/
def State.withLife (s : State) (f : LifeSt → LifeSt) : State := { s with life := f s.life }

/-! ### Event counters and statistics (R545 to R547) -/

/-- The island that holds a register's block (the table of BAR0 blocks; R547). -/
def islandOf (ofs : Nat) : Nat :=
  if 0x80000 ≤ ofs ∧ ofs < 0x100000 then 64 + (ofs - 0x80000) / 0x1000 / 16
  else if 0x100000 ≤ ofs ∧ ofs < 0x180000 then
    let sl := (ofs - 0x100000) / 0x8000
    let r := ofs % 0x8000
    if 0x4000 ≤ r ∧ r < 0x7000 then sl * 3 + (r - 0x4000) / 0x1000 else 48 + sl
  else if (0x180000 ≤ ofs ∧ ofs < 0x1A0000) ∨ (0x1D0000 ≤ ofs ∧ ofs < 0x1E0000) ∨ (0x400000 ≤ ofs ∧ ofs < 0x4A0000) then 72
  else if 0x1A8000 ≤ ofs ∧ ofs < 0x1B0000 then 73 + (ofs - 0x1A8000) / 0x1000
  else if 0x1C0000 ≤ ofs ∧ ofs < 0x1D0000 then 82
  else if 0x70000 ≤ ofs ∧ ofs < 0x80000 then 83
  else 81

/-- The BAR0 offset by which a counter is named in CNT_SAT: a selected counter is named by its window register. -/
def barOffset (ofs : Nat) : Nat :=
  if 0x400000 ≤ ofs ∧ ofs < 0x480000 then 0x180104 + ofs % 64
  else ofs

/-- An event counter counts n events: it sticks at 0xFFFF_FFFF and raises one CNT_SAT alarm as it reaches it (R547). -/
def State.count (s : State) (ofs : Nat) (n : Nat := 1) : State :=
  let old := (s.reg ofs).toNat
  let new := satAdd 0xFFFFFFFF old n
  let s' := s.setReg ofs (BitVec.ofNat 32 new)
  if old < 0xFFFFFFFF ∧ new = 0xFFFFFFFF then s'.raise 0x0901 (islandOf ofs) 0 (barOffset ofs) else s'

/-- Base of the statistics set of a port (R579). -/
def portSet (p : Nat) : Nat := 0x80000 + p / 4 * 0x1000 + 0x800 + p % 4 * 0x100
def laneSet (l : Nat) : Nat := 0x80000 + l * 0x1000 + 0xC00
def linkSet (k : Nat) : Nat := 0x1D0000 + 0x800 + k * 0x40
def redSet (r : Nat) : Nat := 0x180000 + 0xE00 + r * 0x40

/-- Counter i of a statistics set counts n; it wraps at 2⁶⁴ and sets its WRAP bit (R546). -/
def State.stat (s : State) (base i : Nat) (n : Nat := 1) : State :=
  let v := mapGet 0 s.stats (base + i) + n
  let s' := { s with stats := mapSet 0 s.stats (base + i) (v % 2 ^ 64) }
  if v < 2 ^ 64 then s' else s'.setReg (base + 4) (s'.reg (base + 4) ||| BitVec.ofNat 32 (2 ^ i))

/-! ### Access to BAR0 -/

/-- Mode of the module, LIFE_MODE.CODE: 0 ENTRY, 1 SETUP, 2 SERVICE, 3 REDUCED, 4 WITHDRAW, 5 HOLDUP. -/
def State.mode (s : State) : Nat := s.rf Reg.lifeMode 2 0

/-- The host function a master identity names; Hall engine threads act as function 0 (R479, R550). -/
def funcOf (m : Nat) : Nat := if 0x0F00 ≤ m ∧ m < 0x0F10 then m - 0x0F00 else 0

/-- A stray access (R574, R575): counted, and the first since V was cleared is captured. -/
def State.stray (s : State) (m ofs : Nat) (wr : Bool) : State :=
  let s1 := s.count Reg.strayCnt
  if s1.rb Reg.strayAddr 31 then s1
  else s1.setReg Reg.strayAddr
    (BitVec.ofNat 32 (2 ^ 31 + b2n wr * 2 ^ 30 + funcOf m * 2 ^ 26 + ofs % 2 ^ 22))

/-- Whether a function above 0 may reach an offset: its own mailbox page and the key slot registers (R479, R487). -/
def funcMay (f ofs : Nat) : Bool :=
  f == 0 || (decide (0x1000 + f * 0x200 ≤ ofs) && decide (ofs < 0x1200 + f * 0x200))
    || (decide (0x50600 ≤ ofs) && decide (ofs < 0x50650))

/-- Whether an offset responds during ENTRY: LIFE, CELL, HALL_BOOT_STAT and the mailbox pages (R507). -/
def entryMay (ofs : Nat) : Bool :=
  (decide (0x10000 ≤ ofs) && decide (ofs < 0x20000)) || (decide (0x70000 ≤ ofs) && decide (ofs < 0x80000))
    || ofs == Reg.bootStat || (decide (0x1000 ≤ ofs) && decide (ofs < 0x3000))

/-- An access of a master to an offset, under R479 and R507: refused with a count, ignored in ENTRY, or performed. -/
def State.access (s : State) (m ofs : Nat) (act : State → State) : State :=
  if !funcMay (funcOf m) ofs then s.count Reg.tenDenyCnt
  else if s.mode = 0 ∧ !entryMay ofs then s
  else act s

/-- Whether writes of staging copies are held now: between arming and STAGE_READY (R37). -/
def stageHeld (s : State) : Bool := s.rf Reg.epochStatus 18 16 == 2 || s.rf Reg.epochStatus 18 16 == 3

/-- The island that a window's target lies in (R582, R583). -/
def windowIsland (s : State) (ofs : Nat) : Nat :=
  if ofs < 0x240000 then engIsland (s.rf Reg.iwEng 7 0)
  else if ofs < 0x280000 then (let u := s.rf Reg.iwShm 13 8; if u < 48 then u else if u < 56 then 73 + (u - 48) else 81)
  else if ofs < 0x2A0000 then 48 + s.rf Reg.iwSlice 3 0
  else if ofs < 0x2B0000 then 72
  else if ofs < 0x2C0000 then 64 + s.rf Reg.iwPort 8 0 / 64
  else if ofs < 0x2D0000 then 72
  else 83

/-- The island whose CFG hatch an access travels through; 81, the Hall, has none (R11, R26, R583). -/
def cfgIsland (s : State) (ofs : Nat) : Nat := if ofs < 0x200000 then islandOf ofs else windowIsland s ofs

/-- Whether a write reaches a staging copy: the port map, the staging system block, or a Directory command on an epoch-class table (R30, R37, R453). -/
def stageAccess (ofs : Nat) (v : Word) : Bool :=
  (decide (0x50400 ≤ ofs) && decide (ofs < 0x50500)) || (decide (0x2C0000 ≤ ofs) && decide (ofs < 0x2C1000)) ||
    (decide (0x100000 ≤ ofs) && decide (ofs < 0x180000) && ofs % 0x8000 == 0x2040 && bitOf v 31 && (fld v 3 0 == 1 || fld v 3 0 == 2 || fld v 3 0 == 5) &&
      [1, 3, 4, 5].contains (fld v 11 8))

/-- Whether nothing stands in the way of an access: no earlier one waits for its island, or in the Hall for the TEN block, and the CFG hatch has credit and its reply room
(R11, R12, R20, R24). -/
def State.pathFree (s : State) (ofs : Nat) : Bool :=
  if cfgIsland s ofs = 81 then !(decide (0x50000 ≤ ofs) && decide (ofs < 0x60000)) || s.epoch.heldAcc.isEmpty
  else s.clear (hatchNo 0x11 (cfgIsland s ofs)) && decide ((s.hatch (hatchNo 0x12 (cfgIsland s ofs))).load < 8)

/-- Whether an access waits: its path is not free, or it is a staging write between arming and STAGE_READY (R37). -/
def State.mustWait (s : State) (ofs : Nat) (wr : Bool) (v : Word) : Bool :=
  !s.pathFree ofs || (wr && stageHeld s && stageAccess ofs v)

/-- The select register that a window access is made under, and its word, which travel with it (R583). -/
def selectOf (ofs : Nat) : Nat :=
  if ofs < 0x240000 then Reg.iwEng else if ofs < 0x280000 then Reg.iwShm else if ofs < 0x2A0000 then Reg.iwSlice
  else if ofs < 0x2D0000 then Reg.iwPort else Reg.iwStrong

/-- An access as an entry of a CFG hatch. -/
def cfgEntry (s : State) (m ofs : Nat) (wr : Bool) (v : Word) : HEntry :=
  { pay := .access m wr ofs v, flow := if ofs < 0x200000 then 0 else (s.reg (selectOf ofs)).toNat, xpr := false }

/-- An access waits: in the CFG hatch of its island, or in front of the TEN block (R11, R37). -/
def State.waitAt (s : State) (m ofs : Nat) (wr : Bool) (v : Word) : State :=
  if cfgIsland s ofs = 81 then { s with epoch := { s.epoch with heldAcc := s.epoch.heldAcc ++ [cfgEntry s m ofs wr v] } }
  else s.offer (hatchNo 0x11 (cfgIsland s ofs)) (cfgEntry s m ofs wr v)

/-- An access of a master on its way from the Hall to its block: performed at once when nothing is in its way, and otherwise waiting (R11, R12, R37). -/
def State.issue (s : State) (m ofs : Nat) (wr : Bool) (v : Word) (act : State → State) : State :=
  if s.mustWait ofs wr v then s.waitAt m ofs wr v else act s

/-- What a master's read returns. -/
def State.answer (s : State) (m : Nat) (v : Word) : State := { s with resp := mapSet 0 s.resp m v, respEp := s.respEp.filter (· != m) }

/-- What a master's read of a poisoned line through BAR2 returns: all ones, with the completion's EP bit set (R392). -/
def State.answerPoisoned (s : State) (m : Nat) : State := { s with resp := mapSet 0 s.resp m 0xFFFFFFFF, respEp := s.respEp.filter (· != m) ++ [m] }

/-- The bit a refused write to an offset sets (table of refusal bits, R577, R578). -/
def rejectBit (ofs : Nat) : Nat × Nat :=
  if ofs < 0x10000 then
    if 0x100 ≤ ofs ∧ ofs < 0x200 then (Reg.epochStatus, 19)
    else if 0x300 ≤ ofs ∧ ofs < 0x400 then (Reg.tenStat, 31)
    else if 0x400 ≤ ofs ∧ ofs < 0x600 ∨ ofs = 0x800 then (Reg.evtStat, 31)
    else if 0x1000 ≤ ofs ∧ ofs < 0x3000 then (Reg.mbxStat ((ofs - 0x1000) / 0x200), 29)
    else if 0x8200 ≤ ofs ∧ ofs < 0x8300 then (Reg.engStatHall ((ofs - 0x8200) / 0x40), 31)
    else if 0x8400 ≤ ofs ∧ ofs < 0x8800 then (Reg.engStatHall ((ofs - 0x8400) / 0x100), 31)
    else (Reg.hallStat, 31)
  else if ofs < 0x20000 ∨ (0x70000 ≤ ofs ∧ ofs < 0x80000) then (Reg.lifeStat, 31)
  else if ofs < 0x30000 then (Reg.evtStat, 31)
  else if ofs < 0x40000 then (Reg.ledgStat, 31)
  else if ofs < 0x50000 then (Reg.timeStatus, 30)
  else if ofs < 0x60000 then (Reg.tenStat, 31)
  else if ofs < 0x70000 then (Reg.keyStatus, 31)
  else if ofs < 0x100000 then (Reg.laneStat ((ofs - 0x80000) / 0x1000), 31)
  else if ofs < 0x180000 then
    let sl := (ofs - 0x100000) / 0x8000
    let r := ofs % 0x8000
    if r < 0x2000 then (Reg.sortStat sl, 31)
    else if r < 0x4000 then (Reg.dirCmdStat sl, 28)
    else if r < 0x7000 then
      let st := (r - 0x4000) / 0x1000
      let q := r % 0x1000
      if q < 0x120 then (Reg.gateStat sl st, 31)
      else if q = 0x120 then (Reg.standby sl st, 31)
      else if q < 0x200 then (Reg.tenStat, 31)
      else if q < 0x400 then (Reg.engStatStn sl st ((q - 0x200) / 0x40), 31)
      else (Reg.engStatStn sl st ((q - 0x400) / 0x100), 31)
    else (Reg.hallStat, 31)
  else if ofs < 0x1A0000 ∨ (0x400000 ≤ ofs ∧ ofs < 0x4A0000) then (Reg.depotStat, 31)
  else if 0x1A8000 ≤ ofs ∧ ofs < 0x1B0000 then
    let b := (ofs - 0x1A8000) / 0x1000
    let q := ofs % 0x1000
    if q < 0x200 then (Reg.tenStat, 31)
    else if q < 0x400 then (Reg.engStatBench b ((q - 0x200) / 0x40), 31)
    else (Reg.engStatBench b ((q - 0x400) / 0x100), 31)
  else if ofs < 0x1C0000 then (Reg.wshopCmdStat, 29)
  else if ofs < 0x1D0000 then (Reg.dramStat, 31)
  else if ofs < 0x1E0000 then (Reg.courStat, 31)
  else if 0x4A0000 ≤ ofs then (Reg.ledgStat, 31)
  else (Reg.hallStat, 31)

/-- A refused write: no effect on any bit but the refusal bit of the register's block (R571, R577). -/
def State.reject (s : State) (ofs : Nat) : State := s.setRf (rejectBit ofs).1 (rejectBit ofs).2 (rejectBit ofs).2 1

/-- Whether every ranged field of a written word is in its range (R577). -/
def inRanges (d : RegDesc) (v : Word) : Bool :=
  d.ranges.all fun (hi, lo, a, b) => decide (a ≤ fld v hi lo) && decide (fld v hi lo ≤ b)

/-- A register with the rw fields of a written word taken and the w1c bits it writes as 1 cleared (R6, R571). -/
def writeFields (d : RegDesc) (old v : Word) : Word :=
  let rw := BitVec.ofNat 32 d.rw
  let w1c := BitVec.ofNat 32 d.w1c
  ((old &&& ~~~rw) ||| (v &&& rw)) &&& ~~~(v &&& w1c)

/-- The rw and w1c fields of a register take a written word. -/
def State.takeFields (s : State) (ofs : Nat) (v : Word) : State :=
  match findReg ofs with
  | some d => s.setReg ofs (writeFields d (s.reg ofs) v)
  | none => s

/-- The key of a word held or latched for a master (R573, R544). -/
def holdKey (m ofs : Nat) : Nat := m * 2 ^ 24 + ofs

/-- A LO word held for a master until its write of HI; a later one replaces it (R573). -/
def State.holdLo (s : State) (m lo : Nat) (v : Word) : State :=
  { s with holds := mapInsert (mapErase s.holds (holdKey m lo)) (holdKey m lo) v }

/-- The word held for a master, if any. -/
def State.held (s : State) (m ofs : Nat) : Option Word := (s.holds.find? fun p => p.1 == holdKey m ofs).map (·.2)

/-- A write of HI applies the LO word held for the same master, if there is one (R573). -/
def State.takeLo (s : State) (m lo : Nat) : State :=
  match s.held m lo with
  | some v => { s.setReg lo v with holds := mapErase s.holds (holdKey m lo) }
  | none => s

/-- A write of a register that has a row of its own: its way there, access rights, then the ranges of its fields, then what the row does
once the rw fields have taken their values (R11, R571). -/
def State.command (s : State) (m ofs : Nat) (v : Word) (refused : State → Bool) (act : State → State) : State :=
  s.issue m ofs true v fun s => s.access m ofs fun s =>
    match findReg ofs with
    | none => s.stray m ofs true
    | some d => if inRanges d v && !refused s then act (s.setReg ofs (writeFields d (s.reg ofs) v)) else s.reject ofs

end Sys2Proof.Machine
end

