-- ==== Sys2Proof/Machine/Flags.lean ====
section
/-! DEFINITION. The flags of a Wapor thread (R202) and the arithmetic that sets them: wrapping, clamping and rounding
(R200, R226, R228, R231). -/

namespace Sys2Proof

/-- Whether a word is POISON; the reserved tags 8 to 14 are treated as it (R199). -/
def TWord.poison (t : TWord) : Bool := decide (8 ≤ t.tag.toNat)

end Sys2Proof

namespace Sys2Proof.Machine

/-- The flag bits: OV wrapped integer, SAT clamped, DZ division by zero, TF tag violation (R202). -/
def flagOV : Nat := 1
def flagSAT : Nat := 2
def flagDZ : Nat := 4
def flagTF : Nat := 8

/-- What an operation gives: a tagged word and the flags it sets. -/
structure Res where
  val : TWord
  flags : Nat
deriving DecidableEq, Repr, Inhabited

/-- The tag codes (R198). -/
def tagINT : BitVec 4 := 0
def tagFRAC : BitVec 4 := 1
def tagFRAC2 : BitVec 4 := 2
def tagTIME : BitVec 4 := 3
def tagHANDLE : BitVec 4 := 4
def tagADDR : BitVec 4 := 5
def tagKEYREF : BitVec 4 := 6
def tagBITS : BitVec 4 := 7
def tagPOISON : BitVec 4 := 15


/-- A word of a tag and a number. -/
def tw (tag : BitVec 4) (n : Nat) : TWord := ⟨tag, BitVec.ofNat 32 n⟩

/-- A tag violation: POISON with data 0, and TF (R200). -/
def violation : Res := ⟨⟨tagPOISON, 0⟩, flagTF⟩

/-- A result that sets no flag. -/
def plain (tag : BitVec 4) (w : Word) : Res := ⟨⟨tag, w⟩, 0⟩

/-- The signed reading of a word. -/
def sv (w : Word) : Int := w.toInt

/-- Whether a number lies in the signed range of n bits. -/
def fitsS (n : Nat) (z : Int) : Bool := decide (-(2 : Int) ^ (n - 1) ≤ z) && decide (z < (2 : Int) ^ (n - 1))

/-- A number held to the signed range of n bits. -/
def clampS (n : Nat) (z : Int) : Int := if z < -(2 : Int) ^ (n - 1) then -(2 : Int) ^ (n - 1) else if (2 : Int) ^ (n - 1) ≤ z then (2 : Int) ^ (n - 1) - 1 else z

/-- A result modulo 2³², with OV when the signed result does not fit (R226). -/
def wrapped (tag : BitVec 4) (z : Int) : Res := ⟨⟨tag, BitVec.ofInt 32 z⟩, if fitsS 32 z then 0 else flagOV⟩

/-- A result clamped to signed 32 bits, with SAT when it was out of range (R226, R228). -/
def clamped (tag : BitVec 4) (z : Int) : Res := ⟨⟨tag, BitVec.ofInt 32 (clampS 32 z)⟩, if fitsS 32 z then 0 else flagSAT⟩

/-- The two lanes of a FRAC2 word, high and low. -/
def lanes (w : Word) : Int × Int := ((w.extractLsb' 16 16).toInt, (w.extractLsb' 0 16).toInt)

/-- Two Q1.15 lanes, each clamped alone (R228). -/
def clamped2 (hi lo : Int) : Res :=
  ⟨⟨tagFRAC2, BitVec.ofInt 16 (clampS 16 hi) ++ BitVec.ofInt 16 (clampS 16 lo)⟩, if fitsS 16 hi && fitsS 16 lo then 0 else flagSAT⟩

/-- A number shifted right by n with the discarded bits rounded: mode 0 down, 1 half up, 2 half to even (R208, R231). -/
def roundShift (z : Int) (n mode : Nat) : Int :=
  let q := z / (2 : Int) ^ n
  let r := z % (2 : Int) ^ n
  if n = 0 then z
  else if mode = 1 then (if (2 : Int) ^ (n - 1) ≤ r then q + 1 else q)
  else if mode = 2 then (if (2 : Int) ^ (n - 1) < r ∨ (r = (2 : Int) ^ (n - 1) ∧ q % 2 = 1) then q + 1 else q)
  else q

/-- The largest y with y² ≤ x, found bit by bit from bit n - 1 down. -/
def isqrtFrom : Nat → Nat → Nat → Nat
  | 0, _, y => y
  | n + 1, x, y => if (y + 2 ^ n) * (y + 2 ^ n) ≤ x then isqrtFrom n x (y + 2 ^ n) else isqrtFrom n x y

/-- An accumulator result: the value and the flags. -/
structure ARes where
  val : AccV
  flags : Nat
deriving DecidableEq, Repr, Inhabited

/-- An accumulator whose operation broke its rule: poison bit set, value kept, TF (R200, R211). -/
def accViolation (a : AccV) : ARes := ⟨{ a with poison := true }, flagTF⟩

/-- A sum modulo 2⁷² with OV when it does not fit (R230). -/
def accWrapped (a : AccV) (z : Int) : ARes := ⟨{ a with v := BitVec.ofInt 72 z }, if fitsS 72 z then 0 else flagOV⟩

/-- A sum clamped to 72 bits with SAT (R230). -/
def accClamped (a : AccV) (z : Int) : ARes := ⟨{ a with v := BitVec.ofInt 72 (clampS 72 z) }, if fitsS 72 z then 0 else flagSAT⟩

end Sys2Proof.Machine
end

