-- ==== Sys2Proof/Machine/Operands.lean ====
section
/-! DEFINITION. Syllables and bundles (R188 to R195): the fields of each form, the second operand and the immediates (R204,
R205), and the decode checks in their order. -/

namespace Sys2Proof

/-- SRC2, MOD, and the bank field of an L syllable. -/
def Syl.s2 (y : Syl) : Nat := y.low / 128
def Syl.mod (y : Syl) : Nat := y.low % 128
def Syl.bank (y : Syl) : Nat := y.low / 1024

end Sys2Proof

namespace Sys2Proof.Machine

/-! ### Fields of a syllable -/


/-- The syllable a word of instruction memory holds at an address; its STOP bit apart. -/
def sylOf (pc w : Nat) : Syl :=
  { pc := pc, unit := bits w 30 28, op := bits w 27 22, dst := bits w 21 17, s1 := bits w 16 12, low := bits w 11 0, imm := none }

/-- An n-bit field sign-extended to 32 bits. -/
def sext (n w : Nat) : Word := BitVec.ofInt 32 (signed n w)

/-- The A-unit opcodes with a second operand (R206). -/
def aBinary (op : Nat) : Bool :=
  (decide (1 ≤ op) && decide (op ≤ 4)) || (decide (9 ≤ op) && decide (op ≤ 0x0C)) || (decide (0x10 ≤ op) && decide (op ≤ 0x13)) ||
    (decide (0x18 ≤ op) && decide (op ≤ 0x1B)) || (decide (0x20 ≤ op) && decide (op ≤ 0x25)) ||
    [0x28, 0x29, 0x2C, 0x2D, 0x30, 0x31].contains op

/-- The A-unit opcodes with one operand (R206). -/
def aUnary (op : Nat) : Bool :=
  (decide (5 ≤ op) && decide (op ≤ 8)) || [0x14, 0x15, 0x16, 0x2A, 0x2B, 0x38, 0x3A].contains op

/-- Check 5: the opcode is defined for the unit (R206, R209, R215, R217, R220). -/
def opDefined (unit op : Nat) : Bool :=
  if unit ≤ 1 then op == 0 || aBinary op || aUnary op || [0x39, 0x3B, 0x3C, 0x3D, 0x3E, 0x3F].contains op
  else if unit = 2 then
    decide (op ≤ 5) || (decide (8 ≤ op) && decide (op ≤ 0x0C)) || [0x10, 0x11, 0x14, 0x15, 0x16, 0x18, 0x19, 0x20, 0x21, 0x22, 0x24].contains op
  else if unit = 3 then decide (op ≤ 5) || [0x09, 0x0A, 0x0C].contains op
  else if unit = 4 then decide (op ≤ 2) || [0x08, 0x09, 0x0A, 0x0C].contains op
  else if unit = 5 then decide (op ≤ 0x0E)
  else false

/-- Whether an accumulator field is in form: [4:2] = 0 (R196). -/
def accField (f : Nat) : Bool := decide (f < 4)

/-- Whether a rounding field is in form: [6:2] = 0 and RM not 0b11 (R208). -/
def rmField (m : Nat) : Bool := decide (m < 3)

/-- Check 6 for an A syllable (the A-unit field layouts). -/
def aFields (y : Syl) : Bool :=
  let op := y.op
  if aBinary op then (if y.mod < 64 then y.mod == 0 else y.s2 == 0)
  else if aUnary op then y.s2 == 0 && y.mod == 0
  else if op = 0x39 then y.s1 == 0 && y.low % 8 == 0 && decide (bits y.low 6 3 < 8) && bits y.low 7 7 == 0
  else if op = 0x3B then y.s2 == 0 && decide (y.mod < 8)
  else if op = 0x3C then decide (1 ≤ y.dst) && decide (y.dst ≤ 3) && y.low == 0
  else if op = 0x3D then decide (y.s1 < 4) && y.low == 0
  else if op = 0x3E then y.s1 == 0 && y.low == 0
  else if op = 0x3F then y.dst == 0 && y.s1 == 0 && y.s2 == 0 && decide (y.mod < 16)
  else y.dst == 0 && y.s1 == 0 && y.low == 0

/-- Check 6 for an M syllable (the M-unit field layouts). -/
def mFields (y : Syl) : Bool :=
  let op := y.op
  if [0x01, 0x02, 0x03, 0x21, 0x22].contains op then y.mod == 0
  else if op = 0x20 then y.dst % 2 == 0 && y.mod == 0
  else if op = 0x04 ∨ op = 0x05 then rmField y.mod
  else if 0x08 ≤ op ∧ op ≤ 0x0C then accField y.dst && y.mod == 0
  else if op = 0x10 then accField y.dst && y.s1 == 0 && y.low == 0
  else if op = 0x11 then accField y.dst && y.low == 0
  else if 0x14 ≤ op ∧ op ≤ 0x16 then accField y.dst && y.s2 == 0
  else if op = 0x18 then accField y.s1 && rmField y.mod
  else if op = 0x19 then accField y.s1 && y.s2 == 0 && rmField y.mod
  else if op = 0x24 then y.low == 0
  else y.dst == 0 && y.s1 == 0 && y.low == 0

/-- Check 6 for an X syllable. -/
def xFields (y : Syl) : Bool :=
  if y.op = 0x02 then y.dst == 0 && decide (y.mod < 8)
  else if 0x08 ≤ y.op ∧ y.op ≤ 0x0A then y.low == 0
  else if y.op = 0x0C then y.dst == 0 && y.s2 == 0 && decide (y.mod < 8)
  else y.dst == 0 && y.s1 == 0 && y.low == 0

/-- Check 6 for a C syllable. -/
def cFields (y : Syl) : Bool :=
  let op := y.op
  y.dst == 0 &&
  (if op = 0x01 ∨ op = 0x07 then y.s1 == 0
   else if (2 ≤ op ∧ op ≤ 5) ∨ op = 0x0A then true
   else if op = 0x06 ∨ op = 0x08 then y.low == 0
   else if op = 0x0B then y.s1 == 0 && decide (y.low < 256)
   else if op = 0x0E then y.s1 == 0 && decide (y.low < 128)
   else y.s1 == 0 && y.low == 0)

/-- Check 6: every field holds a value its layout allows (R194). -/
def fieldsOk (y : Syl) : Bool :=
  if y.unit ≤ 1 then aFields y
  else if y.unit = 2 then mFields y
  else if y.unit = 3 then (if y.op = 0 then y.dst == 0 && y.s1 == 0 && y.low == 0 else bits y.low 9 7 == 0)
  else if y.unit = 4 then xFields y
  else cFields y

/-- Whether a unit syllable accepts an IMM after it (R205). -/
def takesImm (y : Syl) : Bool :=
  if y.unit ≤ 1 then (aBinary y.op && y.mod == 64) || y.op == 0x39
  else if y.unit = 3 then y.op != 0 && y.mod == 0
  else if y.unit = 5 then ((decide (1 ≤ y.op) && decide (y.op ≤ 5)) || y.op == 0x07 || y.op == 0x0A) && y.low == 0
  else false

/-! ### Decoding a bundle -/

/-- The fault causes of the decode checks (R181). -/
def causeUNDEF : Nat := 0x01
def causeRSVUNIT : Nat := 0x02
def causeRSVFIELD : Nat := 0x03
def causeORDER : Nat := 0x04
def causeNOSTOP : Nat := 0x05
def causeIMM : Nat := 0x06

/-- The words of a bundle from its start to its stop bit, within 8 syllables and before address 0xFFFC is passed (R189, R191). -/
def scanStop (fetch : Nat → Nat) : Nat → Nat → Option (List (Nat × Nat))
  | 0, _ => none
  | n + 1, pc =>
    if 0x10000 ≤ pc then none
    else
      let w := fetch pc
      if w / 2 ^ 31 % 2 = 1 then some [(pc, w)] else (scanStop fetch n (pc + 4)).map fun r => (pc, w) :: r

/-- What decoding answers: the cause of the first check that fails, or the unit syllables in order. -/
inductive Decoded where
  | fault (cause : Nat)
  | ok (l : List Syl)
deriving DecidableEq, Repr, Inhabited

/-- The syllables taken one at a time under checks 2 to 6 (R194): `acc` the unit syllables so far, last first, `imms` the IMM syllables so far, `ext` whether
the syllable just before may still be extended. -/
def checkSyls : List (Nat × Nat) → List Syl → Nat → Bool → Decoded
  | [], acc, _, _ => .ok acc.reverse
  | (pc, w) :: r, acc, imms, ext =>
    let y := sylOf pc w
    if y.unit = 7 then .fault causeRSVUNIT
    else if y.unit = 6 then
      match acc with
      | p :: q =>
        if !ext || !takesImm p || decide (2 ≤ imms) then .fault causeIMM
        else if p.unit = 3 ∧ bits w 27 16 ≠ 0 then .fault causeRSVFIELD
        else checkSyls r ({ p with imm := some (bits w 27 0) } :: q) (imms + 1) false
      | [] => .fault causeIMM
    else if (match acc with | p :: _ => decide (y.unit ≤ p.unit) | [] => false) then .fault causeORDER
    else if !opDefined y.unit y.op then .fault causeUNDEF
    else if !fieldsOk y then .fault causeRSVFIELD
    else checkSyls r (y :: acc) imms true

/-- The bundle at an address: its unit syllables and the address of the bundle that follows it (R189, R191, R194). -/
def decodeBundle (fetch : Nat → Nat) (pc : Nat) : Decoded × Nat :=
  match scanStop fetch 8 pc with
  | none => (.fault causeNOSTOP, pc)
  | some l => (checkSyls l [] 0 false, (pc + 4 * l.length) % 65536)

/-- The slots a bundle counts (R160). -/
def sylCount (y : Syl) : Nat :=
  if y.unit = 2 ∧ (y.op = 0x20 ∨ y.op = 0x21 ∨ y.op = 0x22) then 18
  else if y.unit = 2 ∧ y.op = 0x24 then 20
  else if y.unit = 5 ∧ y.op = 0x0C then 12 else 1

/-- The largest count among the syllables. -/
def bundleCount (l : List Syl) : Nat := (l.map sylCount).foldl max 1

/-! ### Operands -/

/-- Whether an A syllable's second operand is immediate, and its value (R204). -/
def immOperand (y : Syl) : Option TWord :=
  match y.imm with
  | some v => some ⟨tagINT, sext 28 v⟩
  | none => if 64 ≤ y.mod then some ⟨tagINT, sext 6 (y.mod % 64)⟩ else none

/-- The value MOVI writes: [31:28] from the syllable, [27:0] from the IMM or 0 (R205, R207). -/
def moviValue (y : Syl) : Word := BitVec.ofNat 32 (bits y.low 11 8 * 2 ^ 28 + y.imm.getD 0)

/-- The tag field of MOVI, and of SETTAG. -/
def moviTag (y : Syl) : BitVec 4 := BitVec.ofNat 4 (bits y.low 6 3)
def settagTag (y : Syl) : BitVec 4 := BitVec.ofNat 4 (y.mod % 16)

/-- The 16-bit offset of a load or store: the short offset sign-extended, or the IMM (R205, R212). -/
def memOffset (y : Syl) : Nat :=
  match y.imm with
  | some v => v % 65536
  | none => ((signed 7 y.mod) % 65536).toNat

/-- The target of a branch, call or loop: the bundle's address + 4 × offset, modulo 65,536 (R219). -/
def branchTarget (y : Syl) (bundle : Nat) : Nat :=
  let o : Int := match y.imm with
    | some v => signed 28 v
    | none => signed 12 y.low
  (((bundle : Int) + 4 * o) % 65536).toNat

/-- The general registers, accumulators and bank registers a syllable reads, as (kind, number): kind 0 general, 1 accumulator, 2 bank,
3 the flag word. g0 and bk0 never change. -/
def sylReads (y : Syl) : List (Nat × Nat) :=
  let op := y.op
  if y.unit ≤ 1 then
    if aBinary op then (0, y.s1) :: (if y.mod < 64 then [(0, y.s2)] else [])
    else if aUnary op ∨ op = 0x3B ∨ op = 0x3C then [(0, y.s1)]
    else if op = 0x3D then [(2, y.s1)]
    else if op = 0x3E then [(3, 0)] else []
  else if y.unit = 2 then
    if (1 ≤ op ∧ op ≤ 5) ∨ (0x20 ≤ op ∧ op ≤ 0x22) then [(0, y.s1), (0, y.s2)]
    else if 0x08 ≤ op ∧ op ≤ 0x0C then [(1, y.dst), (0, y.s1), (0, y.s2)]
    else if 0x14 ≤ op ∧ op ≤ 0x16 then [(1, y.dst), (0, y.s1)]
    else if op = 0x11 then [(0, y.s1)]
    else if op = 0x18 ∨ op = 0x19 then [(1, y.s1)]
    else if op = 0x24 then [(0, y.s1)] else []
  else if y.unit = 3 then
    (if op = 0 then [] else [(0, y.s1), (2, y.bank)]) ++ (if 0x09 ≤ op then [(0, y.dst)] else [])
  else if y.unit = 4 then
    if op = 0x02 then [(0, y.s1), (0, y.s2)] else if 0x08 ≤ op then [(0, y.s1)] else []
  else
    if (2 ≤ op ∧ op ≤ 6) ∨ op = 0x08 ∨ op = 0x0A then [(0, y.s1)] else if op = 0x09 then [(0, 31)] else []

end Sys2Proof.Machine
end

