-- ==== Sys2Proof/Machine/Alu.lean ====
section
/-! DEFINITION. What the operations of the A and M units compute from their operands (R198 to R200, R206 to R211, R226 to R232). -/

namespace Sys2Proof.Machine

/-! ### Tag rules (R200) -/

/-- Rule I: both INT. -/
def ruleI (a b : TWord) (r : Res) : Res := if a.tag = tagINT ∧ b.tag = tagINT then r else violation

/-- The result tag of rule IA: ADDR if exactly one operand is ADDR. -/
def tagIA (a b : TWord) : BitVec 4 := if (a.tag == tagADDR) != (b.tag == tagADDR) then tagADDR else tagINT

/-- Rule IA for ADD: INT and INT, or ADDR and INT in either place. -/
def ruleIAadd (a b : TWord) (r : Res) : Res :=
  if (a.tag = tagINT ∨ a.tag = tagADDR) ∧ (b.tag = tagINT ∨ b.tag = tagADDR) ∧ ¬(a.tag = tagADDR ∧ b.tag = tagADDR) then r else violation

/-- Rule IA for SUB: INT and INT, ADDR and INT, ADDR and ADDR. -/
def ruleIAsub (a b : TWord) (r : Res) : Res :=
  if (a.tag = tagINT ∧ b.tag = tagINT) ∨ (a.tag = tagADDR ∧ (b.tag = tagINT ∨ b.tag = tagADDR)) then r else violation

/-- INT or BITS. -/
def isIB (t : TWord) : Bool := t.tag == tagINT || t.tag == tagBITS

/-- Rule IB. -/
def ruleIB (a b : TWord) (r : Res) : Res := if isIB a && isIB b then r else violation

/-- Rule L: any of codes 0 to 7 in each operand. -/
def ruleL (a b : TWord) (w : Word) : Res :=
  if a.poison || b.poison then violation else plain (if a.tag = tagINT ∧ b.tag = tagINT then tagINT else tagBITS) w

/-- Rule F and rule F2. -/
def ruleF (a b : TWord) (r : Res) : Res := if a.tag = tagFRAC ∧ b.tag = tagFRAC then r else violation
def ruleF2 (a b : TWord) (r : Res) : Res := if a.tag = tagFRAC2 ∧ b.tag = tagFRAC2 then r else violation

/-- One INT and one BITS. -/
def intBits (a b : TWord) : Bool := (a.tag == tagINT && b.tag == tagBITS) || (a.tag == tagBITS && b.tag == tagINT)

/-- A comparison's result. -/
def truth (b : Bool) : Res := plain tagINT (if b then 1 else 0)

/-- Rule CE. -/
def ruleCE (a b : TWord) (c : Bool) : Res := if (a.tag = b.tag ∧ a.poison = false) ∨ intBits a b then truth c else violation

/-- Rule CS. -/
def ruleCS (a b : TWord) (c : Bool) : Res :=
  if (a.tag = tagINT ∧ b.tag = tagINT) ∨ (a.tag = tagFRAC ∧ b.tag = tagFRAC) then truth c else violation

/-- Rule CU. -/
def ruleCU (a b : TWord) (c : Bool) : Res :=
  if (a.tag = b.tag ∧ [tagINT, tagADDR, tagHANDLE, tagBITS].contains a.tag) ∨ intBits a b then truth c else violation

/-- Whether a TIME word is in range: NS below 1,000,000,000 (R232). -/
def timeOk (t : TWord) : Bool := t.tag == tagTIME && decide (t.data.toNat % 2 ^ 30 < 1000000000)

/-- A TIME word as a count of ns modulo 4 × 10⁹, and back (R232). -/
def timeNs (w : Word) : Nat := w.toNat / 2 ^ 30 * 1000000000 + w.toNat % 2 ^ 30
def nsTime (n : Nat) : Word := BitVec.ofNat 32 (n % 4000000000 / 1000000000 * 2 ^ 30 + n % 1000000000)

/-! ### The A units (R206) -/

def aluAdd (a b : TWord) : Res := ruleIAadd a b (wrapped (tagIA a b) (sv a.data + sv b.data))
def aluAdds (a b : TWord) : Res := ruleI a b (clamped tagINT (sv a.data + sv b.data))
def aluSub (a b : TWord) : Res := ruleIAsub a b (wrapped (tagIA a b) (sv a.data - sv b.data))
def aluSubs (a b : TWord) : Res := ruleI a b (clamped tagINT (sv a.data - sv b.data))
def aluNeg (a : TWord) : Res := ruleI a a (wrapped tagINT (-sv a.data))
def aluNegs (a : TWord) : Res := ruleI a a (clamped tagINT (-sv a.data))
def aluAbs (a : TWord) : Res := ruleI a a (wrapped tagINT (sv a.data).natAbs)
def aluAbss (a : TWord) : Res := ruleI a a (clamped tagINT (sv a.data).natAbs)
def aluMin (a b : TWord) : Res := ruleI a b (plain tagINT (if sv a.data ≤ sv b.data then a.data else b.data))
def aluMax (a b : TWord) : Res := ruleI a b (plain tagINT (if sv a.data ≤ sv b.data then b.data else a.data))
def aluMinu (a b : TWord) : Res := ruleI a b (plain tagINT (if a.data.toNat ≤ b.data.toNat then a.data else b.data))
def aluMaxu (a b : TWord) : Res := ruleI a b (plain tagINT (if a.data.toNat ≤ b.data.toNat then b.data else a.data))
def aluAnd (a b : TWord) : Res := ruleL a b (a.data &&& b.data)
def aluOr (a b : TWord) : Res := ruleL a b (a.data ||| b.data)
def aluXor (a b : TWord) : Res := ruleL a b (a.data ^^^ b.data)
def aluAndn (a b : TWord) : Res := ruleL a b (a.data &&& ~~~b.data)

/-- Leading zeros of an n-bit number. -/
def clzFrom : Nat → Nat → Nat
  | 0, _ => 0
  | n + 1, w => if w.testBit n then 0 else 1 + clzFrom n w

/-- Set bits among the low n. -/
def popcFrom : Nat → Nat → Nat
  | 0, _ => 0
  | n + 1, w => b2n (w.testBit n) + popcFrom n w

def aluClz (a : TWord) : Res := ruleIB a a (plain tagINT (BitVec.ofNat 32 (clzFrom 32 a.data.toNat)))
def aluPopc (a : TWord) : Res := ruleIB a a (plain tagINT (BitVec.ofNat 32 (popcFrom 32 a.data.toNat)))
def aluBswap (a : TWord) : Res := ruleIB a a (plain a.tag (BitVec.ofNat 32 (beNat (leBytes 4 a.data.toNat))))

/-- The shift amount: the low 6 bits of the second operand (R229). -/
def shiftAmt (b : TWord) : Nat := b.data.toNat % 64

def aluShl (a b : TWord) : Res := ruleIB a b (plain a.tag (a.data <<< shiftAmt b))
def aluShr (a b : TWord) : Res := ruleIB a b (plain a.tag (a.data >>> shiftAmt b))
def aluSar (a b : TWord) : Res := ruleIB a b (plain a.tag (a.data.sshiftRight (shiftAmt b)))
def aluRor (a b : TWord) : Res := ruleIB a b (plain a.tag (a.data.rotateRight (shiftAmt b % 32)))
def aluCeq (a b : TWord) : Res := ruleCE a b (a.data == b.data)
def aluCne (a b : TWord) : Res := ruleCE a b (a.data != b.data)
def aluClt (a b : TWord) : Res := ruleCS a b (decide (sv a.data < sv b.data))
def aluCle (a b : TWord) : Res := ruleCS a b (decide (sv a.data ≤ sv b.data))
def aluCltu (a b : TWord) : Res := ruleCU a b (decide (a.data.toNat < b.data.toNat))
def aluCleu (a b : TWord) : Res := ruleCU a b (decide (a.data.toNat ≤ b.data.toNat))
def aluFadd (a b : TWord) : Res := ruleF a b (clamped tagFRAC (sv a.data + sv b.data))
def aluFsub (a b : TWord) : Res := ruleF a b (clamped tagFRAC (sv a.data - sv b.data))
def aluFneg (a : TWord) : Res := ruleF a a (clamped tagFRAC (-sv a.data))
def aluFabs (a : TWord) : Res := ruleF a a (clamped tagFRAC (sv a.data).natAbs)
def aluFadd2 (a b : TWord) : Res :=
  ruleF2 a b (clamped2 ((lanes a.data).1 + (lanes b.data).1) ((lanes a.data).2 + (lanes b.data).2))
def aluFsub2 (a b : TWord) : Res :=
  ruleF2 a b (clamped2 ((lanes a.data).1 - (lanes b.data).1) ((lanes a.data).2 - (lanes b.data).2))

/-- TADD: time plus signed ns, modulo 4 × 10⁹ (R232). -/
def aluTadd (a b : TWord) : Res :=
  if timeOk a ∧ b.tag = tagINT then plain tagTIME (nsTime (((timeNs a.data : Int) + sv b.data) % 4000000000).toNat) else violation

/-- TSUB: signed ns between two times (R232). -/
def aluTsub (a b : TWord) : Res :=
  let d : Int := ((timeNs a.data : Int) - timeNs b.data) % 4000000000
  if timeOk a ∧ timeOk b then plain tagINT (BitVec.ofInt 32 (if 2000000000 ≤ d then d - 4000000000 else d)) else violation

/-- MOV: rule M; a reserved tag is copied as POISON with the data unchanged (R199). -/
def aluMov (a : TWord) : Res := plain (if a.poison then tagPOISON else a.tag) a.data

/-- TAG: rule Q; a reserved tag reads as POISON (R199). -/
def aluTag (a : TWord) : Res := plain tagINT (if a.poison then 15 else BitVec.ofNat 32 a.tag.toNat)

/-- SETTAG: rule S. -/
def aluSettag (tag : BitVec 4) (a : TWord) : Res := if a.poison then violation else plain tag a.data

/-! ### The M unit (R209 to R211, R226 to R231) -/

def aluMul (a b : TWord) : Res := ruleI a b (wrapped tagINT (sv a.data * sv b.data))
def aluMulhi (a b : TWord) : Res := ruleI a b (plain tagINT (BitVec.ofInt 32 (sv a.data * sv b.data / 2 ^ 32)))
def aluMulhu (a b : TWord) : Res := ruleI a b (plain tagINT (BitVec.ofNat 32 (a.data.toNat * b.data.toNat / 2 ^ 32)))
def aluFmul (rm : Nat) (a b : TWord) : Res := ruleF a b (clamped tagFRAC (roundShift (sv a.data * sv b.data) 31 rm))
def aluFmul2 (rm : Nat) (a b : TWord) : Res :=
  ruleF2 a b (clamped2 (roundShift ((lanes a.data).1 * (lanes b.data).1) 15 rm) (roundShift ((lanes a.data).2 * (lanes b.data).2) 15 rm))

/-- Whether both operands are INT, FRAC or FRAC2. -/
def bothTag (t : BitVec 4) (a b : TWord) : Bool := a.tag == t && b.tag == t

def accMac (x : AccV) (a b : TWord) : ARes :=
  if bothTag tagINT a b then accWrapped x (x.v.toInt + sv a.data * sv b.data) else accViolation x
def accMsu (x : AccV) (a b : TWord) : ARes :=
  if bothTag tagINT a b then accWrapped x (x.v.toInt - sv a.data * sv b.data) else accViolation x
def accFmac (x : AccV) (a b : TWord) : ARes :=
  if bothTag tagFRAC a b then accClamped x (x.v.toInt + 2 * (sv a.data * sv b.data)) else accViolation x
def accFmsu (x : AccV) (a b : TWord) : ARes :=
  if bothTag tagFRAC a b then accClamped x (x.v.toInt - 2 * (sv a.data * sv b.data)) else accViolation x
def accFmac2 (x : AccV) (a b : TWord) : ARes :=
  if bothTag tagFRAC2 a b then
    accClamped x (x.v.toInt + 2 ^ 33 * ((lanes a.data).1 * (lanes b.data).1 + (lanes a.data).2 * (lanes b.data).2))
  else accViolation x

/-- CLRA: 0, with the poison bit cleared. -/
def accClra : ARes := ⟨⟨0, false⟩, 0⟩

/-- MOVA: INT sign-extended, FRAC as data × 2³² (R230). -/
def accMova (x : AccV) (a : TWord) : ARes :=
  if a.tag = tagINT then ⟨⟨BitVec.ofInt 72 (sv a.data), false⟩, 0⟩
  else if a.tag = tagFRAC then ⟨⟨BitVec.ofInt 72 (sv a.data * 2 ^ 32), false⟩, 0⟩
  else accViolation x

/-- The amount of an accumulator shift: the low 7 bits of gs1 + MOD (R229). -/
def accAmt (a : TWord) (m : Nat) : Nat := (a.data.toNat + m) % 128

def accAsl (x : AccV) (a : TWord) (m : Nat) : ARes := if isIB a then ⟨{ x with v := x.v <<< accAmt a m }, 0⟩ else accViolation x
def accAsr (x : AccV) (a : TWord) (m : Nat) : ARes := if isIB a then ⟨{ x with v := x.v.sshiftRight (accAmt a m) }, 0⟩ else accViolation x
def accAlsr (x : AccV) (a : TWord) (m : Nat) : ARes := if isIB a then ⟨{ x with v := x.v >>> accAmt a m }, 0⟩ else accViolation x

/-- ACCI and ACCF: the accumulator rounded and clamped into a word; a poisoned one is a violation (R209, R211). -/
def accOut (tag : BitVec 4) (x : AccV) (n rm : Nat) : Res := if x.poison then violation else clamped tag (roundShift x.v.toInt n rm)

/-- DIV: quotient and remainder (R227). -/
def aluDiv (a b : TWord) : Res × Res :=
  let x := sv a.data
  let y := sv b.data
  if a.tag = tagINT ∧ b.tag = tagINT then
    if y = 0 then (⟨⟨tagINT, if 0 ≤ x then 0x7FFFFFFF else 0x80000000⟩, flagDZ⟩, plain tagINT a.data)
    else (wrapped tagINT (x.tdiv y), plain tagINT (BitVec.ofInt 32 (x.tmod y)))
  else (violation, violation)

/-- DIVU (R227). -/
def aluDivu (a b : TWord) : Res :=
  ruleI a b (if b.data = 0 then ⟨⟨tagINT, 0xFFFFFFFF⟩, flagDZ⟩ else plain tagINT (BitVec.ofNat 32 (a.data.toNat / b.data.toNat)))

/-- FDIV: the Q1.31 quotient truncated toward 0 and clamped; by 0, the DIV quotient of the same signs (R209, R227). -/
def aluFdiv (a b : TWord) : Res :=
  ruleF a b
    (if sv b.data = 0 then ⟨⟨tagFRAC, if 0 ≤ sv a.data then 0x7FFFFFFF else 0x80000000⟩, flagDZ⟩
     else clamped tagFRAC ((sv a.data * 2 ^ 31).tdiv (sv b.data)))

/-- SQRT: the largest y with y² ≤ x × 2³¹; of a negative fraction 0, with OV (R228). -/
def aluSqrt (a : TWord) : Res :=
  ruleF a a
    (if sv a.data < 0 then ⟨⟨tagFRAC, 0⟩, flagOV⟩ else plain tagFRAC (BitVec.ofNat 32 (isqrtFrom 32 (a.data.toNat * 2 ^ 31) 0)))

end Sys2Proof.Machine
end

