-- ==== Sys2Proof/Machine/Envelope.lean ====
section
/-! DEFINITION. The envelope: its fields (R39, R40), what firmware may write in it (R41), its reserved bits (R42), its
void marks (R56 to R59), and its order domain (R50). -/

namespace Sys2Proof.Machine

/-- Word i of an envelope. -/
def ew (e : Env) (i : Nat) : Word := e.getD i 0

/-- Bits [hi:lo] of word i of an envelope. -/
def ef (e : Env) (i hi lo : Nat) : Nat := fld (ew e i) hi lo

/-- An envelope with bits [hi:lo] of word i set. -/
def setEf (e : Env) (i hi lo v : Nat) : Env := modAt e i fun w => putFld w hi lo v

/-- Sixteen words of 0. -/
def envZero : Env := List.replicate 16 0

def eCell (e : Env) : Nat := ef e 0 18 0
def eTenancy (e : Env) : Nat := ef e 1 31 28
def eColour (e : Env) : Nat := ef e 1 27 26
def eClass (e : Env) : Nat := ef e 1 25 23
def eInPort (e : Env) : Nat := ef e 1 22 14
def eLength (e : Env) : Nat := ef e 1 13 0
def eSeq (e : Env) : Nat := ef e 2 31 16
def eTableEpoch (e : Env) : Nat := ef e 2 15 8
def eSealEpoch (e : Env) : Nat := ef e 2 7 0
def ePm (e : Env) : Nat := (ew e 4).toNat * 2 ^ 32 + (ew e 3).toNat
def eFrac (e : Env) : Nat := ef e 5 31 16
def eHeadValid (e : Env) : Nat := ef e 5 8 0
def ePh (e : Env) : Nat := ef e 9 31 19
def eEgrPort (e : Env) : Nat := ef e 9 18 10
def eMcGroup (e : Env) : Nat := ef e 10 29 16
def eMirror (e : Env) : Nat := ef e 10 15 8
def eSample (e : Env) : Bool := bitOf (ew e 10) 7
def eSrc (e : Env) : Nat := ef e 11 19 18
def eMc (e : Env) : Bool := bitOf (ew e 11) 17
def eCut (e : Env) : Bool := bitOf (ew e 11) 16
def eEct (e : Env) : Bool := bitOf (ew e 11) 15
def eCe (e : Env) : Bool := bitOf (ew e 11) 14
def ePtpEvt (e : Env) : Bool := bitOf (ew e 11) 13
def eTrunc (e : Env) : Bool := bitOf (ew e 11) 12
def eErr (e : Env) : Bool := bitOf (ew e 11) 11
def eLearn (e : Env) : Bool := bitOf (ew e 11) 10
def eMiss (e : Env) : Bool := bitOf (ew e 11) 9
def eVoid (e : Env) : Bool := bitOf (ew e 11) 0
def ePstate (e : Env) : Nat := ef e 12 31 24
def eL3 (e : Env) : Nat := ef e 12 23 16
def eL4 (e : Env) : Nat := ef e 12 15 8
def eL5 (e : Env) : Nat := ef e 12 7 0
def eDropStage (e : Env) : Nat := ef e 15 15 8
def eDropCause (e : Env) : Nat := ef e 15 7 0

/-- The order domain of an envelope: kind of source, source number and class (R50); port domains of every slice are apart
because port numbers are. -/
def eDomain (e : Env) : Nat := eSrc e * 4096 + eInPort e * 8 + eClass e

/-- The class of a pigeonhole: its own for port and Courier pigeonholes, the frame's for internal ones (R44). -/
def phClass (ph cls : Nat) : Nat := if ph < 4352 then ph % 8 else cls

/-- An envelope voided with a cause by an island; one already void keeps its first cause (R58, R59). -/
def voidBy (cause island : Nat) (e : Env) : Env :=
  if eVoid e then e else setEf (setEf (setEf e 11 0 0 1) 15 15 8 island) 15 7 0 cause

/-- The void written over whatever firmware stored in the window of an envelope not yet released (R58). -/
def voidOver (cause island : Nat) (e : Env) : Env := setEf (setEf (setEf e 11 0 0 1) 15 15 8 island) 15 7 0 cause

/-- The bits of word i that firmware may write (R41). -/
def envWritable : Nat → Nat
  | 0 => 0xFFF80000
  | 1 => 0x0C000000
  | 5 => 0x0000FE00
  | 6 => 0xFFFFFFFF
  | 7 => 0xFFFFFFFF
  | 8 => 0xFFFFFFFF
  | 9 => 0xFFFFFFFF
  | 10 => 0xFFFFFF7F
  | 11 => 0xFFF2C7FF
  | 13 => 0xFFFFFFFF
  | 14 => 0xFFFFFFFF
  | 15 => 0xFFFF00FF
  | _ => 0

/-- The reserved bits of word i (R39, R40). -/
def envReserved : Nat → Nat
  | 0 => 0xFFF80000
  | 5 => 0x0000FE00
  | 9 => 0x000003FF
  | 10 => 0xC000007F
  | 11 => 0xFFF001FE
  | 15 => 0xFFFF0000
  | _ => 0

/-- Whether byte b (0 to 63) of the window is protected: none of its bits is writable (R41). -/
def envProtected (b : Nat) : Bool := (envWritable (b / 4) >>> (8 * (b % 4))) % 256 == 0

/-- A word with the writable bits among mask `sel` taken from new data (R41). -/
def envStoreWord (i : Nat) (old new : Word) (sel : Nat) : Word :=
  let m := BitVec.ofNat 32 (envWritable i) &&& BitVec.ofNat 32 sel
  (old &&& ~~~m) ||| (new &&& m)

/-- Whether any reserved bit is set. -/
def envDirty (e : Env) : Bool := (List.range 16).any fun i => (ew e i) &&& BitVec.ofNat 32 (envReserved i) != 0

/-- The envelope with its reserved bits clear (R42). -/
def envClean (e : Env) : Env := ((List.range 16).map fun i => ew e i &&& ~~~ BitVec.ofNat 32 (envReserved i)) ++ e.drop 16

/-- A mirror or sample copy carries a mark beside its sixteen words, in bit 0 of word 16, which no engine sees (R127). -/
def eCopy (e : Env) : Bool := bitOf (ew e 16) 0

/-- Whether a bit pattern of 16 words is what an envelope is: sixteen of them, and for a copy its mark. -/
def envOk (e : Env) : Bool := e.length == 16 || e.length == 17

end Sys2Proof.Machine
end

