-- ==== Sys2Proof/Machine/Hatches.lean ====
section
/-! DEFINITION. The commands of the hatches (chapter 1): sending, arrival, removal, credit return and the snapshot. -/

namespace Sys2Proof.Machine

/-- How a command ends: with its effect when its event can occur in the state, and otherwise with the state as it is
(log entry 2). -/
def occur (ok : Bool) (s : State) (t : State) : Host.Outcome State Fault Refusal := .next (if ok then t else s)

/-- The island that consumes from a hatch (table of hatch kinds, R26). -/
def hatchConsumer (h : Nat) : Nat :=
  let k := h / 128
  let i := h % 128
  if k = 0 ∨ k = 6 ∨ k = 7 then 48 + i
  else if k = 1 ∨ k = 4 ∨ k = 0x0E ∨ k = 0x18 ∨ k = 0x1B then 72
  else if k = 2 then 3 * i
  else if k = 3 then 3 * i + 1
  else if k = 5 then 3 * i + 2
  else if k = 8 then 64 + i / 2
  else if k = 9 then 48 + i / 3
  else if k = 0x0A ∨ k = 0x10 ∨ k = 0x11 ∨ k = 0x15 ∨ k = 0x17 then i
  else if k = 0x0C then 73 + i
  else if k = 0x0F then 82
  else if k = 0x19 then 64 + i / 4
  else if k = 0x1A then 83
  else 81

/-- The kinds on which HATCH_SEND may bring an entry of its own: flits and cells, CFG accesses and responses, METER reports, TIME words and save lines. The commands that
move flits, cells and accesses themselves pass them through the same hatch in one step (log entry 25). -/
def hatchOffers (k : Nat) (p : Payload) : Bool :=
  match p with
  | .data _ _ => [0x00, 0x01, 0x07, 0x08, 0x0E, 0x18, 0x19, 0x1A, 0x1B].contains k
  | .access _ _ _ _ => k == 0x11 || k == 0x12
  | .meter _ => k == 0x13
  | .time _ _ _ => k == 0x15
  | _ => false

/-- What a double-bit error leaves of an entry (R25). -/
def hitEntry (h : Nat) (e : HEntry) : HEntry :=
  match e.pay with
  | .env v hd => { e with pay := .env (voidBy 0x04 (hatchConsumer h) v) hd }
  | .access m _ _ _ => { e with pay := .badAccess m }
  | _ => { e with pay := .errored }

/-- The wait of a producer ends, or is counted so far: its cycles are added to WAIT, which sticks and raises CNT_SAT once (R27, R547). -/
def State.waitCounted (s : State) (h : Nat) : State :=
  let n := s.waitRun h
  let x := s.hatch h
  let w := satAdd 0xFFFFFFFF x.waits n
  let s1 := { s.setHatch h { x with waits := w } with hatchSince := mapSet 0 s.hatchSince h 0 }
  if mapGet 0 s.hatchSince h = 0 then s else if x.waits < 0xFFFFFFFF ∧ w = 0xFFFFFFFF then s1.raise 0x0901 81 0 Reg.hatchWait else s1

/-- A producer's wait ends when it has credit again for every entry it holds. -/
def State.waitEnds (s : State) (h : Nat) : State := if (s.hatch h).starved h then s else s.waitCounted h

/-- A DRAM port's latency target. -/
def portTarget (s : State) (p : Nat) : Nat := s.rf (Reg.qosCfg p) 15 0 * nsUnit

/-- A request's latency is known: the largest since the last read, and those beyond TARGET (R378). -/
def noteLatency (s : State) (p since : Nat) : State :=
  let ns := (s.up - since) / nsUnit
  let s1 := if (s.reg (Reg.qosMax p)).toNat < ns then s.setReg (Reg.qosMax p) (BitVec.ofNat 32 (min ns 0xFFFFFFFF)) else s
  if portTarget s p < s.up - since then s1.count (Reg.qosOverCnt p) else s1

/-- What an entry of DRAM_RSP carries, in the place of a flow, of the request it answers: its port and when it was received. -/
def rspMark (port since : Nat) : Nat := since * 16 + port + 1

/-- An answer enters DRAM_RSP: its request's latency is known (R378). -/
def State.rspEntered (s : State) (h : Nat) (e : HEntry) : State :=
  if h / 128 = 0x10 ∧ e.flow ≠ 0 then noteLatency s (e.flow % 16 - 1) (e.flow / 16) else s

/-- The held entry at an index, sent if it may be and, for a request, its reply has room (R17, R20, R23, R24, R619). -/
def State.sendHeld (s : State) (h i : Nat) : State :=
  let x := s.hatch h
  match x.held[i]? with
  | none => s
  | some e =>
    if heldBack h (x.held.take i) e || !s.replyRoom h e then s
    else match x.channel h e with
      | some xp => ((s.setHatch h ({ x with held := dropAt x.held i }.push xp e)).waitBegins h).rspEntered h e
      | none => s

/-- The summary record an ALARM producer sends when credit returns (R21). -/
def carriedAlarm (s : State) (h : Nat) : Alarm :=
  let x := s.hatch h
  { pm := x.carryPm, sev := 2, sum := true, fwd := false, modn := s.rf Reg.courId 9 0, island := h % 128, inst := 0,
    code := 0x0906, seq := 0, a0 := x.carry, a1 := x.carryLast % 2 ^ 32, a2 := x.carryLast / 2 ^ 32, a3 := 0 }

/-- A producer's new entry: METER and TIME producers without credit merge (R21), the others offer and wait. -/
def State.offerNew (s : State) (h : Nat) (e : HEntry) : State :=
  let x := s.hatch h
  match e.pay with
  | .meter r =>
    if 0 < x.credits h then
      s.setHatch h ({ x with carry := 0 }.push false { e with pay := .meter { r with energy := r.energy + x.carry } })
    else s.setHatch h { x with carry := x.carry + r.energy }
  | .time _ _ _ =>
    if 0 < x.credits h then s.setHatch h ({ x with held := [] }.push false e) else s.setHatch h { x with held := [e] }
  | _ => s.offer h e

/-- HATCH_SEND (R17, R20 to R23, R619): the producer of hatch h sends its i-th held entry, or the new entry it offers; an ALARM
producer sends its summary. -/
def hatchSend (h i : Nat) (offer : Option HEntry) (s : State) : State :=
  let x := s.hatch h
  match offer with
  | some e => if hatchOffers (h / 128) e.pay then s.offerNew h e else s
  | none =>
    if h / 128 = 0x14 then
      if 0 < x.carry ∧ 0 < x.credits h then
        s.setHatch h ({ x with carry := 0, carryPm := 0, carryLast := 0 }.push false
          { pay := .alarm (carriedAlarm s h), flow := 0, xpr := false })
      else s
    else s.sendHeld h i

/-- HATCH_SEND. -/
def execHatchSend (h i : Nat) (offer : Option HEntry) (s : State) : Host.Outcome State Fault Refusal :=
  occur (s.life.rails && hatchExists h) s (hatchSend h i offer s)

/-- The next entry in transit made visible, with what the ECC check found (ecc 0 no error, 1 a single-bit error corrected and
counted, 2 a double-bit error; R19, R25), and the peak occupancy kept. -/
def Hatch.arrive (x : Hatch) (h : Nat) (xpr : Bool) (ecc : Nat) : Hatch :=
  let fix (e : HEntry) := if ecc = 2 then hitEntry h e else e
  let x := if ecc = 1 then { x with eccFixed := x.eccFixed + 1 } else x
  if xpr then
    match x.xTransit with
    | [] => x
    | e :: r =>
      let f := x.xFifo ++ [fix e]
      { x with xTransit := r, xFifo := f, xpeak := max x.xpeak f.length }
  else
    match x.gTransit with
    | [] => x
    | e :: r =>
      let f := x.gFifo ++ [fix e]
      { x with gTransit := r, gFifo := f, peak := max x.peak f.length }

/-- Whether an entry is in transit in a sub-channel. -/
def Hatch.inTransit (x : Hatch) (xpr : Bool) : Bool := if xpr then !x.xTransit.isEmpty else !x.gTransit.isEmpty

/-- A station's inbound hatch: its distributor removes an entry only as it hands it to a thread or the gate (R53). -/
def hatchOfStation (h : Nat) : Bool := h / 128 == 2 || h / 128 == 3 || h / 128 == 5

/-- SNAP (R27): a write of HALL_HATCH_SEL with SNAP clears DONE and starts a snapshot of hatch NUM. -/
def execHatchSnap (m : Nat) (val : Word) (s : State) : Host.Outcome State Fault Refusal :=
  occur (bitOf val 16) s
    (s.command m Reg.hatchSel val (fun _ => false) fun s =>
      { s.setRf Reg.hatchSel 24 24 0 with snapReq := some (fld val 11 0) })

/-- The values a snapshot captures: STAT, XSTAT, PEAK and WAIT of a hatch (R27). -/
def snapshotHatch (s : State) (h : Nat) : State :=
  let x := s.hatch h
  let w (n : Nat) : Word := BitVec.ofNat 32 n
  let ok := hatchExists h
  let s1 := ((((s.setReg Reg.hatchStat (w (if ok then hatchDepth h * 2 ^ 16 + x.gFifo.length * 2 ^ 8 + x.credits h else 0))).setReg
      Reg.hatchXstat (w (if ok then hatchXdepth h * 2 ^ 16 + x.xFifo.length * 2 ^ 8 + x.xcredits h else 0))).setReg
      Reg.hatchPeak (w (if ok then x.xpeak * 2 ^ 16 + x.peak else 0))).setReg Reg.hatchWait (w (if ok then satAdd 0xFFFFFFFF x.waits (s.waitRun h) else 0)))
  let s2 := (s1.setRf Reg.hatchSel 24 24 1).setRf Reg.hatchSel 25 25 (b2n !ok)
  if ok then s2.setHatch h { x with peak := x.gFifo.length, xpeak := x.xFifo.length } else s2

/-- HATCH_SNAPSHOT_DONE (R27). -/
def execHatchSnapshotDone (dt : Nat) (s : State) : Host.Outcome State Fault Refusal :=
  let s := advance s dt
  match s.snapReq with
  | none => .next s
  | some h => occur s.life.rails s { snapshotHatch s h with snapReq := none }

end Sys2Proof.Machine
end

