-- ==== Sys2Proof/Machine/Modes.lean ====
section
/-! DEFINITION. Modes and the causes of reduced service (R499, R500, R529, R530): the changes of mode that other units'
commands bring about. -/

namespace Sys2Proof.Machine

/-- The mode changes: CODE, PREV and a MODE_CHANGE alarm (R499, R500). -/
def State.setMode (s : State) (m : Nat) : State :=
  let old := s.mode
  ((s.setRf Reg.lifeMode 6 4 old).setRf Reg.lifeMode 2 0 m).raise 0x0804 81 0 m old

/-- The active causes of reduced service. -/
def State.causes (s : State) : Nat := s.rf Reg.lifeHealth 6 0

/-- A cause of reduced service becomes active: LIFE_HEALTH, the alarm, and SERVICE to REDUCED (R529, R530). -/
def State.causeUp (s : State) (n : Nat) : State :=
  if s.rb Reg.lifeHealth n then s
  else
    let s1 := ((s.setRf Reg.lifeHealth n n 1).setRf Reg.lifeHealth 31 31 1).raise 0x0803 81 n
    if s1.mode = 2 then s1.setMode 3 else s1

/-- A cause clears: ANY falls with the last of them, and REDUCED returns to SERVICE (R529, R530). -/
def State.causeDown (s : State) (n : Nat) : State :=
  if s.rb Reg.lifeHealth n then
    let s1 := s.setRf Reg.lifeHealth n n 0
    if s1.causes = 0 then
      let s2 := s1.setRf Reg.lifeHealth 31 31 0
      if s2.mode = 3 then s2.setMode 2 else s2
    else s1
  else s

/-- The level REPLACE_N is driven to: asserted while ANY is 1 in every mode but HOLDUP, and in the ENTRY stalls HALL_BIST and
SAVE_ISLAND (R506, R530). -/
def State.replaceAsserted (s : State) : Bool :=
  (s.rb Reg.lifeHealth 31 && s.mode != 5) || (s.mode == 0 && (s.rf Reg.lifeMode 31 24 == 2 || s.rf Reg.lifeMode 31 24 == 3))

/-- Service starts at an epoch commit with SVC_PEND set: SETUP goes to SERVICE, or to REDUCED with a cause active (R502). -/
def State.serviceStart (s : State) : State :=
  if s.mode = 1 ∧ s.rb Reg.lifeMode 8 then
    let s1 := s.setRf Reg.lifeMode 8 8 0
    s1.setMode (if s1.causes = 0 then 2 else 3)
  else s

/-- Whether the data path runs: SETUP, SERVICE, REDUCED and WITHDRAW (R501). -/
def State.dataPath (s : State) : Bool := s.life.rails && decide (1 ≤ s.mode) && decide (s.mode ≤ 4)

end Sys2Proof.Machine
end

