-- ==== Sys2Proof/Machine/Time.lean ====
section
/-! DEFINITION. The TIME block (R103 to R112): its sources, steps, TIME_IN, TIME_OUT and the correction words of the islands. -/

namespace Sys2Proof.Machine

/-! ### Steps of module time -/

/-- The length of a tick of the Ledger in module time (R397). -/
def tickLen : Nat := 8000 * nsUnit

/-- Module time moved by a step. What is counted by the module's running time stays in place; a tick of the Ledger ends early or late, at the next boundary of the new time, and a
boundary met before the step keeps its own time (R397). -/
def stepNow (s : State) (off : Int) : State :=
  let now := ((s.now : Int) + off).toNat
  let met := s.now / tickLen != s.ledg.tickAt
  let on := decide (now % tickLen = 0)
  { s with
    now := now
    ledg := { s.ledg with tickAt := if met || on then now / tickLen + 1 else now / tickLen,
                          tickMet := if met then some (s.ledg.tickMet.getD (s.up - s.now % tickLen)) else if on then some s.up else none } }

/-! ### Sources (R103, R104) -/

/-- The configured source: 0 none, 1 TIME_IN, 2 a PTP instance, 3 Courier. -/
def srcOf (s : State) (sec : Bool) : Nat := if sec then s.rf Reg.timeSrcCfg 14 12 else s.rf Reg.timeSrcCfg 6 4

/-- Whether the primary, or the secondary, is the source in use: the primary while it is locked. -/
def inUse (s : State) (sec : Bool) : Bool := if sec then s.time.secLocked && !s.time.priLocked else s.time.priLocked

/-- TIME_STATUS.STATE as the locks make it; a module that has never locked is FREE (R103). -/
def timeState (s : State) : Nat :=
  if s.time.priLocked then 2 else if s.time.secLocked then 3 else if s.rb Reg.timeStatus 0 then 4 else 0

/-- The link toward the time parent, and whether Courier time may be locked: that link is UP and the peer's depth below 16 (R461). -/
def timeParent (s : State) : Nat := s.rf Reg.courTimeCfg 4 0
def parentDepth (s : State) : Nat := (mapGet default s.cour.links (timeParent s)).depth
def courTimeOk (s : State) : Bool := s.rf (Reg.linkStat (timeParent s)) 31 29 == 4 && decide (parentDepth s < 16)

/-- The depth of this module (R462): 0 under TIME_IN or PTP, the parent's plus 1 under Courier, 16 with no source in use. -/
def timeDepth (s : State) : Nat :=
  let src := if inUse s false then srcOf s false else if inUse s true then srcOf s true else 0
  if src = 0 then 16 else if src = 3 then min 16 (parentDepth s + 1) else 0
def putDepth (s : State) : State := s.setRf Reg.courTimeCfg 12 8 (timeDepth s)

/-- TIME_STATUS after a change of the locks; holdover begins when the last goes, and ends any slew. -/
def sourcesChanged (s : State) : State :=
  let n := timeState s
  let was := s.rf Reg.timeStatus 10 8
  let s1 := putDepth (s.setRf Reg.timeStatus 10 8 n)
  if n = 4 ∧ was ≠ 4 then { s1 with time := { s1.time with holdSince := s1.up, slew := 0 } } else s1

/-- The time of the source in use differs from module time by `off` (R104): while VALID is 0 module time steps to it, and VALID
becomes 1; after that it slews, and an offset above 1 ms sets JUMP and raises TIME_JUMP. -/
def steer (s : State) (off : Int) : State :=
  if !s.rb Reg.timeStatus 0 then
    ({ stepNow s off with time := { s.time with slew := 0 } }).setRf Reg.timeStatus 0 0 1
  else
    let s1 := { s with time := { s.time with slew := off } }
    if (1000000 * nsUnit : Int) < off.natAbs then
      let us : Int := off / (1000 * nsUnit)
      let sat : Int := if us < -2147483648 then -2147483648 else if 2147483647 < us then 2147483647 else us
      (s1.setRf Reg.timeStatus 31 31 1).raise 0x0401 81 0 (sat % 2 ^ 32).toNat
    else s1

/-- A source has locked, or been measured again, with an offset from module time. -/
def lockSource (s : State) (sec : Bool) (off : Int) : State :=
  let s1 := if sec then { s with time := { s.time with secLocked := true } } else { s with time := { s.time with priLocked := true } }
  sourcesChanged (if inUse s1 sec then steer s1 off else s1)

/-- A source is lost (R103). -/
def loseSource (s : State) (sec : Bool) : State :=
  sourcesChanged (if sec then { s with time := { s.time with secLocked := false } } else { s with time := { s.time with priLocked := false } })

/-- TIME_SOURCE_LOCK (R103, R104): the primary or secondary source locks, or is measured again, `off` ahead of module time in
2⁻¹⁶ ns. TIME_IN locks only once it has locked under R109, Courier while R461 allows. -/
def execTimeSourceLock (sec : Bool) (dt : Nat) (off : Int) (s : State) : Host.Outcome State Fault Refusal :=
  let s := advance s dt
  occur (s.life.rails && srcOf s sec != 0 && (srcOf s sec != 1 || s.time.inLocked) && (srcOf s sec != 3 || courTimeOk s)) s (lockSource s sec off)

/-- TIME_SOURCE_LOSS (R103): the primary or secondary source is lost, and the module moves to the other or to holdover. -/
def execTimeSourceLoss (sec : Bool) (dt : Nat) (s : State) : Host.Outcome State Fault Refusal :=
  let s := advance s dt
  occur (s.life.rails && (if sec then s.time.secLocked else s.time.priLocked)) s (loseSource s sec)

/-- Courier time is lost when its link leaves UP or the peer's depth reaches 16 (R461). -/
def courTimeCheck (s : State) : State :=
  if courTimeOk s then putDepth s
  else
    let s1 := if srcOf s false = 3 ∧ s.time.priLocked = true then loseSource s false else s
    putDepth (if srcOf s1 true = 3 ∧ s1.time.secLocked = true then loseSource s1 true else s1)

/-- A write of TIME_SRC_CFG that names another source or instance: a source that has not locked is not in use. -/
def reselect (s : State) (old : Word) : State :=
  let new := s.reg Reg.timeSrcCfg
  let pri := if fld new 11 4 = fld old 11 4 then s.time.priLocked else fld new 6 4 == 1 && s.time.inLocked
  let sec := if fld new 19 12 = fld old 19 12 then s.time.secLocked else fld new 14 12 == 1 && s.time.inLocked
  sourcesChanged { s with time := { s.time with priLocked := pri, secLocked := sec } }

/-- HOLD_S: seconds in the current holdover, sticking at 4,095 (R106). -/
def holdSeconds (s : State) : Nat := if s.rf Reg.timeStatus 10 8 = 4 then min 4095 ((s.up - s.time.holdSince) / secUnit) else 0

/-! ### Steps and seconds -/

/-- TIME_STEP (R105): the host steps module time by a signed number of ns; refused while an epoch is PENDING or ARMED. -/
def execTimeStep (m : Nat) (val : Word) (s : State) : Host.Outcome State Fault Refusal :=
  let st := s.rf Reg.epochStatus 18 16
  occur s.life.rails s
    (s.command m Reg.timeStepR val (fun _ => st == 1 || st == 2) fun s =>
      stepNow s (signed 32 val.toNat * nsUnit))

/-- TIME_TOD_ARM (R109): the write of TIME_TOD_SEC_HI arms the seconds value for the next edge. -/
def execTimeTodArm (m : Nat) (val : Word) (s : State) : Host.Outcome State Fault Refusal :=
  occur s.life.rails s
    (s.command m Reg.todHi val (fun _ => false) fun s =>
      let s1 := s.takeLo m Reg.todLo
      { s1 with time := { s1.time with tod := some (s1.rf Reg.todHi 1 0 * 2 ^ 32 + (s1.reg Reg.todLo).toNat) } })

/-! ### TIME_IN (R109 to R111) -/

/-- How far an edge lies from the nearest second counted from the last edge in phase, both by the module's running time. -/
def edgePhase (s : State) (at_ : Nat) : Int :=
  let d : Int := ((at_ : Int) - s.time.goodUp + secUnit / 2) % secUnit
  d - secUnit / 2

/-- The second an edge marks: the value armed, else the one before plus 1, else (with no edge before) the module's own. Seconds without a valid edge between two valid ones have
passed too. -/
def edgeSecond (s : State) (at_ t : Nat) : Nat :=
  match s.time.tod with
  | some n => n
  | none => if s.time.lastEdge.isSome then s.time.inSec + max 1 ((at_ - s.time.goodUp + secUnit / 2) / secUnit) else (t + secUnit / 2) / secUnit

/-- The sources that are TIME_IN learn its time. -/
def timeInTo (s : State) (t sec : Nat) : State :=
  let off : Int := (sec : Int) * secUnit - t
  let s1 := if srcOf s false = 1 then lockSource s false off else s
  if srcOf s true = 1 then lockSource s1 true off else s1

/-- Whether three phases agree within 1 µs. -/
def agree (l : List Int) : Bool :=
  match l with
  | [a, b, c] => decide ((a - b).natAbs ≤ 1000 * nsUnit) && decide ((b - c).natAbs ≤ 1000 * nsUnit) && decide ((a - c).natAbs ≤ 1000 * nsUnit)
  | _ => false

/-- A valid edge: it marks a second, uses the armed value, and is what later edges and the loss are counted from. -/
def validEdge (s : State) (at_ t sec : Nat) : State :=
  timeInTo { s with time := { s.time with lastEdge := some at_, goodUp := at_, inSec := sec, tod := none, offEdges := [] } } t sec

/-- An edge while TIME_IN is locked: within 1 µs of its time it steers; otherwise it is ignored and counted, and three that agree become the
new phase (R110). -/
def lockedEdge (s : State) (at_ t : Nat) : State :=
  let ph := edgePhase s at_
  if ph.natAbs ≤ 1000 * nsUnit then validEdge s at_ t (edgeSecond s at_ t)
  else
    let l := (s.time.offEdges ++ [ph]).drop (s.time.offEdges.length - 2)
    let s2 := ({ s with time := { s.time with lastEdge := some at_, offEdges := l } }).count Reg.timeInOffCnt
    if agree l then validEdge s2 at_ t (edgeSecond s2 at_ t) else s2

/-- An edge while TIME_IN is not locked: the third of three spaced 1 s ± 10 µs apart locks it (R109). STATE reads LOCKING while the edges of a source TIME_IN are counted from FREE;
the specification names that state and does not say when it is entered (DESIGN CHOICE, log entry 64). -/
def freeEdge (s : State) (at_ t : Nat) : State :=
  let n := match s.time.lastEdge with
    | some l => if ((at_ : Int) - l - secUnit).natAbs ≤ 10000 * nsUnit then s.time.goodEdges + 1 else 1
    | none => 1
  let sec := edgeSecond s at_ t
  let s1 := { s with time := { s.time with goodEdges := n } }
  if 3 ≤ n then validEdge { s1 with time := { s1.time with inLocked := true } } at_ t sec
  else
    let s2 := { s1 with time := { s1.time with lastEdge := some at_, goodUp := at_, inSec := sec, tod := none, offEdges := [] } }
    if (srcOf s2 false = 1 ∨ srcOf s2 true = 1) ∧ s2.rf Reg.timeStatus 10 8 = 0 then s2.setRf Reg.timeStatus 10 8 1 else s2

/-- TIME_IN_EDGE (R109, R110): a rising edge of TIME_IN is captured, less DELAY; `width` is how long the pulse stayed high, and one below 50 ns
is a glitch. -/
def execTimeInEdge (dt width : Nat) (s : State) : Host.Outcome State Fault Refusal :=
  let s := advance s dt
  let t := s.now - s.rf Reg.timeInCfg 15 0 * nsUnit
  occur s.life.rails s
    (if width < 50 * nsUnit then s.count Reg.timeInGlitchCnt
     else if s.time.inLocked then lockedEdge s s.up t else freeEdge s s.up t)

/-- TIME_IN_LOSS (R111): no edge has come within 1 s + 10 µs of the last one. An edge off its time that R110 ignores counts as one here, since three of them can make a new phase only
while TIME_IN is not lost (DEDUCED, log entry 64). -/
def execTimeInLoss (dt : Nat) (s : State) : Host.Outcome State Fault Refusal :=
  let s := advance s dt
  match s.time.lastEdge with
  | none => .next s
  | some l =>
    let s1 := { s with time := { s.time with inLocked := false, lastEdge := none, goodEdges := 0, offEdges := [] } }
    let s2 := if srcOf s1 false = 1 ∧ s1.time.priLocked = true then loseSource s1 false else s1
    let s3 := if srcOf s2 true = 1 ∧ s2.time.secLocked = true then loseSource s2 true else s2
    occur (s.life.rails && decide (l + secUnit + 10000 * nsUnit < s.up)) s
      (if s3.rf Reg.timeStatus 10 8 = 1 then s3.setRf Reg.timeStatus 10 8 0 else s3)

/-! ### TIME_OUT (R112) -/

/-- The level TIME_OUT is driven to at the present time: high for WIDTH from each second boundary. Where module time is stepped into that interval, or VALID, EN or FREE becomes 1
within it, the output is high for what remains of it; the specification does not say (DESIGN CHOICE, log entry 65). -/
def timeOutLevel (s : State) : Bool :=
  let cfg := s.reg Reg.timeOutCfg
  let ofs := signed 32 (s.reg Reg.timeOutOfs).toNat * nsUnit
  let ph := ((s.now : Int) - ofs) % secUnit
  bitOf cfg 31 && (s.rb Reg.timeStatus 0 || bitOf cfg 30) && decide (ph < (fld cfg 18 0 * 1000 * nsUnit : Nat))

/-- TIME_OUT_EDGE (R112): TIME_OUT rises at a second boundary plus its offset, or falls after WIDTH. -/
def execTimeOutEdge (dt : Nat) (s : State) : Host.Outcome State Fault Refusal :=
  let s := advance s dt
  occur (s.life.rails && timeOutLevel s != s.time.outHigh) s { s with time := { s.time with outHigh := timeOutLevel s } }

/-! ### Correction words (R107, R108) -/

/-- An island steers by the newest correction word its TIME hatch shows it. -/
def takeWord (s : State) (i : Nat) : State :=
  let h := hatchNo 0x15 i
  let x := s.hatch h
  match (x.taken ++ x.gFifo).getLast? with
  | some { pay := .time t inc mark, flow := _, xpr := _ } =>
    let s1 := s.setHatch h { x with taken := [], gFifo := [], gUnseen := x.gUnseen + x.gFifo.length, gRemoved := x.gRemoved + x.gFifo.length }
    { s1 with time := { s1.time with words := mapSet (0, 0, 0) s1.time.words i (t, inc, mark) } }
  | _ => s

/-- The islands with a TIME hatch (R26). -/
def timedIslands : List Nat := List.range 81 ++ [82]

/-- TIME_CORRECTION (R21, R107): every 1.024 µs each island takes the newest word it has been sent, and is sent the next: the time at the
marked edge and its increment per local cycle. Without credit only the newest word is kept. -/
def execTimeCorrection (dt : Nat) (s : State) : Host.Outcome State Fault Refusal :=
  let s := advance s dt
  let s1 := timedIslands.foldl takeWord s
  let send (t : State) (i : Nat) : State :=
    let h := hatchNo 0x15 i
    let x := t.hatch h
    let e : HEntry := { pay := .time s.now (islandStep s i) (cycleOf s i), flow := 0, xpr := false }
    if 0 < x.credits h then t.setHatch h ({ x with held := [] }.push false e) else t.setHatch h { x with held := [e] }
  occur (s.life.rails && decide (s.time.wordAt + 1024 * nsUnit ≤ s.up)) s
    (timedIslands.foldl send { s1 with time := { s1.time with wordAt := s.up } })

end Sys2Proof.Machine
end

