-- ==== Sys2Proof/Machine/Engine.lean ====
section
/-! DEFINITION. Engines and threads (chapters 5 and 7): where their registers stand, the landing of results (R153, R154, R158, R159), the
store buffer (R161 to R163), the issue of bundles (R150, R160, R192), thread faults (R180), and what every syllable's meaning shares. -/

namespace Sys2Proof.Machine

/-! ### Places -/

/-- Engines of the module. -/
def engineCount : Nat := 228

/-- First offset of the register block of an engine's station, bench or Hall (R182). -/
def engBlk (e : Nat) : Nat :=
  if e < 192 then 0x104000 + e / 12 * 0x8000 + e % 12 / 4 * 0x1000
  else if e < 224 then 0x1A8000 + (e - 192) / 4 * 0x1000 else 0x8000

/-- Offsets of an engine's registers, and of a thread's: E and T of R182. -/
def engBase (e : Nat) : Nat := engBlk e + 0x200 + e % 4 * 0x40
def thrBase (m : Nat) : Nat := engBlk (m / 16) + 0x400 + (m / 16 % 4 * 16 + m % 16) * 16

/-- An engine's slot words, control, status, and counters. -/
def engSlotR (e w : Nat) : Nat := engBase e + 4 * w
def engShadowR (e w : Nat) : Nat := engBase e + 16 + 4 * w
def engCtlR (e : Nat) : Nat := engBase e + 0x20
def engStatR (e : Nat) : Nat := engBase e + 0x24
def npDiscR (e : Nat) : Nat := engBase e + 0x28
def eccCntR (e : Nat) : Nat := engBase e + 0x2C

/-- A thread's configuration, control, status and PC registers. -/
def thrCfgR (m : Nat) : Nat := thrBase m
def thrCtlR (m : Nat) : Nat := thrBase m + 4
def thrStatR (m : Nat) : Nat := thrBase m + 8
def thrPcR (m : Nat) : Nat := thrBase m + 12



/-- The engines of an island: the first of four. -/
def islandEngines (i : Nat) : List Nat :=
  let b := if i < 48 then 4 * i else if i < 81 then 192 + 4 * (i - 73) else 224
  [b, b + 1, b + 2, b + 3]

/-- Whether a master identity is a thread of an engine (R148). -/
def isThread (m : Nat) : Bool := decide (m < engineCount * 16)

/-! ### State of engines and threads -/

def State.eng (s : State) (e : Nat) : Engine := mapGet default s.engines e
def State.setEng (s : State) (e : Nat) (v : Engine) : State := { s with engines := mapSet default s.engines e v }
def State.withEng (s : State) (e : Nat) (f : Engine → Engine) : State := s.setEng e (f (s.eng e))
def State.thr (s : State) (m : Nat) : Thread := mapGet default (s.eng (m / 16)).threads (m % 16)
def State.setThr (s : State) (m : Nat) (v : Thread) : State :=
  s.withEng (m / 16) fun x => { x with threads := mapSet default x.threads (m % 16) v }
def State.withThr (s : State) (m : Nat) (f : Thread → Thread) : State := s.setThr m (f (s.thr m))
def State.shm (s : State) (i : Nat) : Shared := mapGet default s.shared i
def State.setShm (s : State) (i : Nat) (v : Shared) : State := { s with shared := mapSet default s.shared i v }

/-- Whether a thread is a T-thread, is enabled, is in the pool; its tenancy (STN_THR_CFG). -/
def thrIsT (s : State) (m : Nat) : Bool := s.rb (thrCfgR m) 30
def thrEn (s : State) (m : Nat) : Bool := s.rb (thrCfgR m) 31
def thrPool (s : State) (m : Nat) : Bool := s.rb (thrCfgR m) 29
def thrTenancy (s : State) (m : Nat) : Nat := s.rf (thrCfgR m) 27 24

def State.setThrState (s : State) (m v : Nat) : State := s.setRf (thrStatR m) 31 29 v

/-- The address of a thread's next bundle. -/
def thrPc (s : State) (m : Nat) : Nat := s.rf (thrPcR m) 15 0
def State.setPc (s : State) (m v : Nat) : State := s.setRf (thrPcR m) 15 0 v

/-- Whether an engine has failed, or is parked. -/
def engFailed (s : State) (e : Nat) : Bool := s.rb (engStatR e) 27
def engParked (s : State) (e : Nat) : Bool := s.rb (engStatR e) 26

/-- Entry i of an engine's active and shadow slot table (R149). -/
def slotOf (s : State) (e i : Nat) : Nat := s.rf (engSlotR e (i / 4)) (8 * (i % 4) + 7) (8 * (i % 4))
def shadowOf (s : State) (e i : Nat) : Nat := s.rf (engShadowR e (i / 4)) (8 * (i % 4) + 7) (8 * (i % 4))

/-! ### Island cycles (R149) -/

/-- The count kept before an island's frequency changes. -/
def rebase (s : State) (i : Nat) : State :=
  { s with clks := mapSet default s.clks i { cyc := cycleOf s i, since := s.up } }

/-- The present cycle of an engine. -/
def engCycle (s : State) (e : Nat) : Nat := cycleOf s (engIsland e)

/-! ### Slots of a thread (R149, R150, R160) -/

/-- Slots of a T-thread in cycles a + 1 to b (R150, R160). -/
def ownSlots (s : State) (m a b : Nat) : Nat :=
  let own (c : Nat) : Bool := slotOf s (m / 16) (c % 16) == 0x80 + m % 16
  let n := b - a
  n / 16 * ((List.range 16).filter own).length + ((List.range (n % 16)).filter fun i => own (a + 1 + i)).length

/-- Whether a thread's last bundle has counted its slots by cycle c (R160). -/
def counted (s : State) (m c : Nat) : Bool :=
  let t := s.thr m
  t.count == 0 || (if thrIsT s m then decide (t.count ≤ ownSlots s m t.issueAt c) else decide (t.issueAt + t.count ≤ c))

/-- The next cycle after c that is a thread's own: of a T-thread one of its entries, of an S-thread the next one. -/
def nextOwn (s : State) (m c : Nat) : Nat :=
  let own (k : Nat) : Bool := !thrIsT s m || slotOf s (m / 16) ((c + k) % 16) == 0x80 + m % 16
  match ((List.range 16).map (· + 1)).find? own with | some k => c + k | none => c + 1

/-- SLOTS of a thread in its engine's present cycle: the slots of its last bundle count as each passes, the first as it issues (R160, R175). -/
def thrSlots (s : State) (m : Nat) : Nat :=
  let t := s.thr m
  let c := engCycle s (m / 16)
  let passed := 1 + (if thrIsT s m then ownSlots s m t.issueAt c else c - t.issueAt)
  (t.slots + 2 ^ 32 - (t.count - min t.count passed)) % 2 ^ 32

/-- A thread's last bundle counts no further slot. -/
def State.cutCount (s : State) (m : Nat) : State := s.withThr m fun t => { t with slots := thrSlots s m, count := 0 }

/-- Whether a HALT that waited for a bundle boundary has come to it (R178). -/
def haltDue (s : State) (m : Nat) : Bool := (s.thr m).halt && (s.thr m).todo.isEmpty && counted s m (engCycle s (m / 16))

/-- The state of a thread: 0 OFF, 1 READY, 2 WAITING, 3 HALTED, 4 FAULTED, 5 PARKED (R177); a READY thread with a HALT to come is HALTED from the boundary of its bundle
(R178). -/
def thrState (s : State) (m : Nat) : Nat :=
  let v := s.rf (thrStatR m) 31 29
  if v = 1 ∧ haltDue s m = true then 3 else v

/-! ### Registers of a thread (R196, R197) -/

/-- A general register; g0 reads INT 0. -/
def Thread.gr (t : Thread) (n : Nat) : TWord := if n = 0 then TWord.zero else mapGet TWord.zero t.g n

/-- An accumulator. -/
def Thread.ac (t : Thread) (n : Nat) : AccV := mapGet default t.acc n

/-- A bank register; bk0 reads 0. -/
def Thread.bank (t : Thread) (n : Nat) : Nat := if n = 0 then 0 else mapGet 0 t.bk n

/-! ### Landing (R153, R154, R158, R202) -/

/-- Bit by bit OR of flag words. -/
def orFlags (a b : Nat) : Nat := a ||| b

/-- A store to the control space in effect (R157, R175). -/
def ctrlStore (t : Thread) (ofs : Nat) (w : Word) : Thread :=
  if ofs = 0x20 then { t with imask := w.toNat % 8 }
  else if ofs = 0x24 then { t with ipend := t.ipend &&& (7 - w.toNat % 8) }
  else if ofs = 0x28 then { t with epc := w.toNat % 65536 }
  else if ofs = 0x2C then { t with estat := w.toNat % 2 + w.toNat / 65536 * 65536 }
  else if ofs = 0x30 then { t with ivec := w.toNat % 65536 }
  else if ofs = 0x34 then { t with timerCmp := w.toNat }
  else t

/-- A result lands. -/
def landOne (t : Thread) (x : Landing) : Thread :=
  let t := if x.kind = 5 then { t with flags := t.flags &&& (15 - x.flags % 16) } else { t with flags := orFlags t.flags x.flags }
  if x.kind = 0 then (if x.reg = 0 then t else { t with g := mapSet TWord.zero t.g x.reg x.val })
  else if x.kind = 1 then { t with acc := mapSet default t.acc x.reg x.acc }
  else if x.kind = 2 then { t with bk := mapSet 0 t.bk x.reg x.val.data.toNat }
  else if x.kind = 4 then { t with acc := mapSet default t.acc x.reg { t.ac x.reg with poison := true } }
  else if x.kind = 6 then ctrlStore t x.reg x.val.data
  else t

/-- Whether two results write one register. -/
def sameTarget (a b : Landing) : Bool :=
  a.reg == b.reg && (a.kind == b.kind || (a.kind == 1 && b.kind == 4) || (a.kind == 4 && b.kind == 1)) && a.kind != 3 && a.kind != 5

/-- The result without its write, its flags kept (R154). -/
def Landing.spent (x : Landing) : Landing := { x with kind := if x.kind = 5 then 5 else 3 }

/-- What is left of an S-thread's result once later results have written its register (R158): its flags; or, where they only poisoned its accumulator, its value with the
poison bit (R200). -/
def Landing.overtaken (x : Landing) (by_ : List Landing) : Landing :=
  let later := by_.filter fun y => sameTarget x y && decide (x.seq < y.seq)
  if later.isEmpty then x
  else if x.kind = 1 ∧ later.all (fun y => y.kind == 4) = true then { x with acc := { x.acc with poison := true } }
  else x.spent

/-- A result put among those in flight, by landing cycle, then the priority of its unit, then the order of issue (R153, R154). -/
def fly : List Landing → Landing → List Landing
  | [], x => [x]
  | y :: r, x => if x.land < y.land ∨ (x.land = y.land ∧ x.prio < y.prio) then x :: y :: r else y :: fly r x

/-- Every result that has landed by cycle c written (R153). A T-thread's land in order; an S-thread's take effect in program order, a load's not before
its delay has passed (R158, R159). -/
def settle (isT : Bool) (c : Nat) (t : Thread) : Thread :=
  let vis (x : Landing) : Bool := decide (x.land ≤ c) && (isT || decide (x.minSeq ≤ t.seq))
  let due := t.land.filter vis
  let rest := t.land.filter fun x => !vis x
  let meet (x : Landing) : Landing := if isT then x else x.overtaken due
  (due.map meet).foldl landOne { t with land := rest.map meet }

/-- A thread's results landed by its engine's present cycle, unless a bundle of it is in progress. -/
def State.settleThr (s : State) (m : Nat) : State :=
  if (s.thr m).todo.isEmpty then s.withThr m (settle (thrIsT s m) (engCycle s (m / 16))) else s

/-- The priorities of the units (R154), the lowest first; a cleared flag loses to a set one (R202). -/
def prioOf (unit : Nat) : Nat := if unit = 5 then 1 else if unit = 4 then 2 else unit + 3

/-- A result of the bundle in progress sent on its way: it lands `dist` cycles after issue. `delay` is an S-thread's load delay. -/
def State.send (s : State) (m unit dist : Nat) (x : Landing) (delay : Nat := 0) : State :=
  s.withThr m fun t =>
    { t with land := fly t.land { x with land := t.issueAt + dist, prio := if x.kind = 5 then 0 else prioOf unit, seq := t.seq, minSeq := if delay = 0 then 0 else t.seq + delay - 1 } }

/-- A result for a general register, an accumulator or a bank register. -/
def State.sendG (s : State) (m unit dist reg : Nat) (r : Res) (div : Bool := false) (delay : Nat := 0) : State :=
  s.send m unit dist { (default : Landing) with kind := 0, reg := reg, val := r.val, flags := r.flags, div := div } delay

/-- An accumulator result: one whose operands broke the rule sets only the poison bit. -/
def State.sendA (s : State) (m dist reg : Nat) (r : ARes) : State :=
  s.send m 2 dist
    { (default : Landing) with kind := if r.flags / 8 % 2 = 1 then 4 else 1, reg := reg, acc := r.val, flags := r.flags }

/-- Flags set by a syllable that writes no register: in effect 1 cycle after issue (R202). -/
def State.sendF (s : State) (m unit flags : Nat) : State :=
  if flags = 0 then s else s.send m unit 1 { (default : Landing) with kind := 3, flags := flags }

/-! ### Memory (R161 to R164, R234 to R236) -/

/-- Where an address lies: 0 local data, 1 shared memory, 2 window, 3 control space, 4 nowhere (R234). -/
def regionOf (e addr : Nat) : Nat :=
  if addr < 0x20000 then 0
  else if 0x100000 ≤ addr ∧ addr < (if 192 ≤ e ∧ e < 224 then 0x500000 else 0x200000) then 1
  else if 0x1000000 ≤ addr ∧ addr < 0x1000140 ∧ e < 224 then 2
  else if 0xF0000000 ≤ addr ∧ addr < 0xF0001000 then 3
  else 4

/-- A word with `size` bytes from byte `o` replaced: a whole word takes the tag, a partial store leaves INT and POISON and makes every other tag BITS (R235,
R236). -/
def mergeStore (old new : TWord) (o size : Nat) : TWord :=
  if size = 4 then new
  else
    let data := putBits old.data.toNat (8 * (o + size) - 1) (8 * o) new.data.toNat
    ⟨if old.tag = tagINT then tagINT else if old.poison then tagPOISON else tagBITS, BitVec.ofNat 32 data⟩

/-- A word of shared memory. -/
def shmWord (s : State) (i addr : Nat) : TWord := mapGet TWord.zero (s.shm i).words ((addr - 0x100000) / 4)

/-- A word of shared memory written. -/
def State.setShmWord (s : State) (i addr : Nat) (w : TWord) : State :=
  let x := s.shm i
  s.setShm i { x with words := mapSet TWord.zero x.words ((addr - 0x100000) / 4) w }

/-- A word of data memory; one with an uncorrectable error is POISON (R164). -/
def localWord (x : Engine) (addr : Nat) : TWord :=
  if x.localBad.contains (addr / 4) then ⟨tagPOISON, 0⟩ else mapGet TWord.zero x.local_ (addr / 4)

/-! ### The envelope and dispatch windows (R237, R299) -/

/-- The item of its station's gate that a thread holds. -/
def heldItem (s : State) (m : Nat) : Option GateItem :=
  if m / 16 < 192 then (s.station (m / 64)).gate.find? fun x => x.thread == some m else none

/-- A change of the item a thread holds. -/
def State.withHeld (s : State) (m : Nat) (f : GateItem → GateItem) : State :=
  let st := s.station (m / 64)
  s.setStation (m / 64) { st with gate := st.gate.map fun x => if x.thread == some m then f x else x }

/-- Whether a thread holds an envelope, or a bench thread a dispatch. -/
def holdsWork (s : State) (m : Nat) : Bool := (heldItem s m).isSome || (s.thr m).disp.isSome

/-- A word of a thread's window with the tag a load of it gives (R237, R299). -/
def windowWord (s : State) (m ofs : Nat) : TWord :=
  match heldItem s m with
  | some x =>
    if ofs < 0x40 then ⟨if ofs = 0 then tagHANDLE else if ofs = 0x0C then tagTIME else tagINT, ew x.env (ofs / 4)⟩
    else ⟨tagBITS, BitVec.ofNat 32 (leNat (slice x.head (ofs - 0x40) 4))⟩
  | none =>
    match (s.thr m).disp with
    | some d => ⟨if ofs = 4 ∨ ofs = 0x10 then tagTIME else tagINT, if ofs = 0x0C then BitVec.ofNat 32 d.outmask else d.words.getD (ofs / 4) 0⟩
    | none => TWord.zero

/-- A store to the envelope window: only writable bits change; to the dispatch window: OUTMASK (R41, R237, R300). -/
def windowStore (s : State) (m o size : Nat) (w : TWord) : State :=
  let sel := (2 ^ (8 * size) - 1) <<< (8 * (o % 4))
  let new := BitVec.ofNat 32 (w.data.toNat <<< (8 * (o % 4)))
  if m / 16 < 192 then s.withHeld m fun x => { x with env := modAt x.env (o / 4) fun old => envStoreWord (o / 4) old new sel }
  else s.withThr m fun t =>
    { t with disp := t.disp.map fun d => { d with outmask := (d.outmask &&& (2 ^ 32 - 1 - sel) ||| (new.toNat &&& sel)) % 65536 } }

/-- The mailbox page whose response header stands at an address of Hall shared memory (R538). -/
def rhdrOf (i addr : Nat) : Option Nat :=
  if i = 81 ∧ 0x1F0000 ≤ addr ∧ addr < 0x1F2000 ∧ addr % 0x200 / 4 = 3 then some ((addr - 0x1F0000) / 0x200) else none

/-- A store reaches memory, or its thread's window. A response header with V that Hall firmware stores goes to the mailbox. -/
def State.drainOne (s : State) (e : Nat) (x : StoreEnt) : State :=
  let w := x.addr / 4 * 4
  if regionOf e x.addr = 0 then
    s.withEng e fun g =>
      { g with local_ := mapSet TWord.zero g.local_ (w / 4) (mergeStore (localWord g w) x.data (x.addr % 4) x.size),
               localBad := g.localBad.filter (· != w / 4) }
  else if regionOf e x.addr = 2 then windowStore s x.thread (x.addr % 0x1000) x.size x.data
  else
    let i := engIsland e
    let v := mergeStore (shmWord s i w) x.data (x.addr % 4) x.size
    let s1 := s.setShmWord i w v
    match rhdrOf i w with
    | some f => if bitOf v.data 31 ∧ x.addr % 4 + x.size = 4 then { s1 with mbxStored := s1.mbxStored ++ [f] } else s1
    | none => s1

/-- The entries of an engine's store buffer that a test picks, drained in order. -/
def State.drainIf (s : State) (e : Nat) (p : StoreEnt → Bool) : State :=
  ((s.eng e).stores.filter p).foldl (fun t x => t.drainOne e x)
    (s.withEng e fun g => { g with stores := g.stores.filter fun x => !p x })

/-- Every store of an engine that is due by the present cycle has reached memory (R161). -/
def State.drainDue (s : State) (e : Nat) : State := s.drainIf e fun x => decide (x.due ≤ engCycle s e)

/-- Every store of an island's engines that is due has reached memory. -/
def State.drainIsland (s : State) (i : Nat) : State := (islandEngines i).foldl State.drainDue s

/-- Entries of a store buffer after the last one of a thread. -/
def storesAfter (m : Nat) (l : List StoreEnt) : List StoreEnt := (l.reverse.takeWhile fun x => x.thread != m).reverse

/-- Every store a thread has issued has reached memory, and so has every store of its engine before them (R161, R244, R301). -/
def State.drainThread (s : State) (m : Nat) : State :=
  let l := (s.eng (m / 16)).stores
  let keep := storesAfter m l
  (l.take (l.length - keep.length)).foldl (fun t x => t.drainOne (m / 16) x) (s.withEng (m / 16) fun g => { g with stores := keep })

/-- The stores a thread has issued to its window have reached it: what ends the thread's hold, or reads its window, finds them there (R161, R162). -/
def State.drainWindow (s : State) (m : Nat) : State :=
  s.drainIf (m / 16) fun x => x.thread == m && regionOf (m / 16) x.addr == 2

/-- A word as a load of an engine sees it: memory with the engine's own buffered stores over it, the oldest first (R162, R163). -/
def loadWord (s : State) (e addr : Nat) : TWord :=
  let w := addr / 4 * 4
  let base := if regionOf e addr = 0 then localWord (s.eng e) w else shmWord s (engIsland e) w
  ((s.eng e).stores.filter fun x => x.addr / 4 == w / 4).foldl (fun v x => mergeStore v x.data (x.addr % 4) x.size) base

/-- `size` bytes of a word from byte o, as a number. -/
def partOf (w : TWord) (o size : Nat) : Nat := bits w.data.toNat (8 * (o + size) - 1) (8 * o)

/-! ### Fetching and issuing -/

/-- The word of instruction memory at an address. -/
def imemWord (x : Engine) (pc : Nat) : Nat := leNat (memRead x.imem pc 4)

/-- The word a thread fetches: from its alcove in the second and later iterations of a loop (R165), otherwise from instruction memory. -/
def fetchWord (x : Engine) (t : Thread) (pc : Nat) : Nat :=
  match t.loopc with
  | some l => if l.again then (match t.alcove.find? (fun p => p.1 == pc) with | some p => p.2 | none => imemWord x pc) else imemWord x pc
  | none => imemWord x pc

/-- Whether an address is fetched from the alcove. -/
def fromAlcove (t : Thread) (pc : Nat) : Bool :=
  match t.loopc with
  | some l => l.again && t.alcove.any fun p => p.1 == pc
  | none => false

/-- A thread's next bundle: its unit syllables or the cause of its decode fault, and the address after it. -/
def nextBundle (s : State) (m : Nat) : Decoded × Nat := decodeBundle (fetchWord (s.eng (m / 16)) (s.thr m)) (thrPc s m)

/-- Whether the fetch of a thread's next bundle meets an uncorrectable error (R167). -/
def fetchBad (s : State) (m : Nat) : Bool :=
  let pc := thrPc s m
  let n := match scanStop (fetchWord (s.eng (m / 16)) (s.thr m)) 8 pc with | some l => l.length | none => 8
  (List.range n).any fun i => (s.eng (m / 16)).imemBad.contains (pc + 4 * i) && !fromAlcove (s.thr m) (pc + 4 * i)

/-- Whether an interrupt of a thread is pending, unmasked and enabled (R171). -/
def intPending (t : Thread) : Bool := t.ipend &&& t.imask != 0 && t.estat % 2 == 1

/-- An interrupt cause becomes pending; a WAITING thread may take it from the second cycle after (R171, R173). -/
def State.pendInt (s : State) (m bit : Nat) : State :=
  s.withThr m fun t =>
    let t1 := { t with ipend := t.ipend ||| bit }
    if thrState s m = 2 ∧ intPending t = false ∧ intPending t1 = true then { t1 with readyAt := engCycle s (m / 16) + 2 } else t1

/-- Whether a thread could issue in cycle c but for the choice between threads. -/
def thrReady (s : State) (m c : Nat) : Bool :=
  let t := s.thr m
  thrState s m == 1 && decide (t.readyAt ≤ c) && t.todo.isEmpty && counted s m c

/-- Whether a result in flight holds an S-thread's bundle (R158, R159, R203). -/
def holdsRead (t : Thread) (c : Nat) (l : List Syl) : Bool :=
  (l.flatMap sylReads).any fun (k, n) => t.land.any fun x =>
    decide (c < x.land) &&
    (if k = 3 then x.flags != 0 && x.kind != 5
     else x.reg == n && (x.kind == k || (k == 1 && x.kind == 4)) &&
       (decide (3 ≤ x.prio ∧ x.prio ≤ 5) || (x.prio == 6 && decide (x.minSeq ≤ t.seq))))

/-- Whether the divide-and-root unit is busy in cycle c (R156). -/
def divBusy (x : Engine) (c : Nat) : Bool :=
  match x.div with
  | some (_, till) => decide (c < till) || (match x.divWait with | some (_, d) => decide (c < till + d) | none => false)
  | none => false

/-- Whether a syllable uses the divide-and-root unit. -/
def usesDiv (y : Syl) : Bool := y.unit == 2 && decide (0x20 ≤ y.op)

/-- Whether an S-thread is held before its next bundle (R156, R158, R159). -/
def sHeld (s : State) (m c : Nat) : Bool :=
  let t := settle false c (s.thr m)
  if intPending t then false
  else decide (c < t.heldTo) ||
    (match (nextBundle s m).1 with
     | .ok l => holdsRead t c l || (l.any usesDiv && divBusy (s.eng (m / 16)) c)
     | .fault _ => false)

/-- The S-thread a free cycle goes to: the first READY one not held after the one that issued last (R150). -/
def sPick (s : State) (e c : Nat) : Option Nat :=
  ((List.range 16).map fun i => e * 16 + ((s.eng e).lastS + 1 + i) % 16).find? fun m => !thrIsT s m && thrReady s m c && !sHeld s m c

/-- Whether cycle c of an engine is a thread's to issue in (R149, R150). -/
def mayIssue (s : State) (m c : Nat) : Bool :=
  let e := m / 16
  let entry := slotOf s e (c % 16)
  let owner := e * 16 + entry % 16
  let taken := decide (0x80 ≤ entry) && thrReady s owner c
  isThread m && !engFailed s e && !engParked s e && decide (0 < islandClock s (engIsland e)) && decide ((s.eng e).freeAt ≤ c) &&
    (if thrIsT s m then entry == 0x80 + m % 16 && thrReady s m c else !taken && sPick s e c == some m)

/-- What a thread's cycle begins with: time passes, stores and results that are due arrive. -/
def State.tick (s : State) (m dt : Nat) : State :=
  let s1 := advance s dt
  (s1.drainIsland (engIsland (m / 16))).settleThr m

/-- An engine's issue in the present cycle used by a thread. -/
def State.useSlot (s : State) (m n : Nat) : State :=
  let c := engCycle s (m / 16)
  let s1 := s.withEng (m / 16) fun x => { x with freeAt := c + 1, lastS := if thrIsT s m then x.lastS else m % 16 }
  s1.withThr m fun t => { t with issueAt := c, count := n, slots := (t.slots + n) % 2 ^ 32, seq := t.seq + 1 }

/-- The words a bundle in a loop body leaves in the alcove (R165, R166). -/
def alcoveFill (s : State) (m : Nat) (pc after : Nat) : State :=
  let t := s.thr m
  match t.loopc with
  | some l =>
    if l.fits ∧ l.start ≤ pc ∧ pc < l.exit ∧ pc < after then
      let n := (after - pc) / 4
      let words := (List.range n).map fun i => (pc + 4 * i, fetchWord (s.eng (m / 16)) t (pc + 4 * i))
      s.withThr m fun t => { t with alcove := words.foldl (fun a p => mapInsert (mapErase a p.1) p.1 p.2) t.alcove }
    else s
  | none => s

/-- A well-formed bundle begins to issue: its syllables follow one another in the same cycle. -/
def beginBundle (s : State) (m : Nat) (l : List Syl) (after : Nat) : State :=
  let pc := thrPc s m
  ((alcoveFill s m pc after).useSlot m (bundleCount l)).withThr m fun t =>
    { t with todo := l, bundle := pc, next := after, seqNext := after, jump := 0 }

/-! ### Faults (R180) -/

/-- An engine's ENG_FAULT alarm. -/
def engAlarm (s : State) (m cause pc : Nat) : State := s.raise 0x0201 (engIsland (m / 16)) (m / 16) m cause pc

/-- The gate voids the envelope a thread holds, over whatever firmware stored in it, and ends the thread's claim (R57, R58). -/
def State.voidHeld (s : State) (m cause : Nat) : State :=
  match heldItem s m with
  | none => s
  | some _ =>
    ((s.drainWindow m).withHeld m fun x => { x with env := voidOver cause (engIsland (m / 16)) x.env, released := true, thread := none }).count
      (engBlk (m / 16) + 0x108)

/-- Slots of a thread that the tick charges no more, being a node's (R406), or, when the count goes back to 0, being its last (R405): the mark up to which they are charged moves. -/
def State.slotsMark (s : State) (m n : Nat) : State :=
  { s with ledg := { s.ledg with slotsAt := mapSet 0 s.ledg.slotsAt m ((mapGet 0 s.ledg.slotsAt m + n) % 2 ^ 32) } }

/-- The slots a thread has counted since its dispatch. -/
def nodeSlots (s : State) (m : Nat) : Nat := match (s.thr m).disp with | some d => (thrSlots s m + 2 ^ 32 - d.slots) % 2 ^ 32 | none => 0

/-- A bench thread's dispatch is over: the slots of a node of an unpinned graph are the node's to pay for (R406). -/
def State.dropDispatch (s : State) (m : Nat) : State :=
  match (s.thr m).disp with
  | none => s
  | some d =>
    let s1 := (s.drainWindow m).withThr m fun t => { t with disp := none }
    if s.rb (Reg.graphStat d.d.graph) 21 then s1 else s1.slotsMark m (nodeSlots s m)

/-- A bench thread's dispatch ends: NODE_DONE carries it to the Dispatcher (R301, R302). -/
def State.endDispatch (s : State) (m how : Nat) : State :=
  match (s.thr m).disp with
  | none => s
  | some d =>
    (s.dropDispatch m).offer (hatchNo 0x0D ((m / 16 - 192) / 4))
      { pay := .nodeDone { graph := d.d.graph, node := d.d.node, thread := m, outmask := if how = 0 then d.outmask else 0, how := how, pm := pmNow s, slots := nodeSlots s m },
        flow := 0, xpr := false }

/-- A thread becomes FAULTED at a bundle with a cause: none of the bundle has any effect, and what it holds is voided or ended (R180). -/
def threadFault (s : State) (m cause pc : Nat) : State :=
  let s1 := (((s.setThrState m 4).setRf (thrStatR m) 23 16 cause).setPc m pc).withThr m fun t =>
    { t with todo := [], alcove := [], waitMask := 0, keyWait := none, halt := false }
  ((engAlarm s1 m cause pc).voidHeld m 1).endDispatch m 1

/-! ### What every syllable shares -/

/-- Single-bit errors a syllable meets, corrected and counted (R164). -/
def eccFixed (s : State) (i : Issue) : State := if i.ecc = 1 then s.count (eccCntR (i.th / 16)) else s

end Sys2Proof.Machine
end

