-- ==== Sys2Proof/Machine/Memory.lean ====
section
/-! DEFINITION. Loads and stores (R212 to R216, R234 to R237, R175, R475): the address, the faults in their order, what a load
returns and what a store does, and the tap slots (R278 to R280). -/

namespace Sys2Proof.Machine

/-- The fault causes of memory accesses (R181). -/
def causePOISONADDR : Nat := 0x08
def causePOISONSTORE : Nat := 0x09
def causeUNMAPPED : Nat := 0x0B
def causeALIGN : Nat := 0x0C
def causeENVPROTECT : Nat := 0x0D
def causeENVNONE : Nat := 0x0E
def causeCTRL : Nat := 0x0F
def causeDENIED : Nat := 0x12

/-- The address of a load or store: the bank, and the 16-bit sum of base and offset (R212). -/
def memAddr (t : Thread) (y : Syl) : Nat := t.bank y.bank * 65536 + ((t.gr y.s1).data.toNat % 65536 + memOffset y) % 65536

/-- Bytes an L opcode moves, and whether it stores (R215). -/
def memSize (op : Nat) : Nat := if op = 1 ∨ op = 9 then 4 else if op = 2 ∨ op = 3 ∨ op = 0x0A then 2 else 1
def isStore (op : Nat) : Bool := decide (9 ≤ op)

/-- First address of a packet thread's own tap slots (R278). -/
def tapBase (m : Nat) : Nat := 0x1FE000 + m % 64 * 128

/-- Whether an address lies in a packet thread's own tap slots. -/
def ownTap (m addr : Nat) : Bool := decide (m / 16 < 192) && decide (tapBase m ≤ addr) && decide (addr < tapBase m + 128)

/-- The owner of a page of a station's or bench's shared memory; the Hall's belongs to tenancy 0 (R475). -/
def pageOwner (s : State) (e addr : Nat) : Nat :=
  let p := (addr - 0x100000) / 0x10000
  if e < 224 then s.rf (engBlk e + 0x140 + p / 8 * 4) (4 * (p % 8) + 3) (4 * (p % 8)) else 0

/-- Whether a thread may reach an address of shared memory (R475). -/
def mayReach (s : State) (m addr : Nat) : Bool :=
  thrTenancy s m == 0 || pageOwner s (m / 16) addr == thrTenancy s m || ownTap m addr

/-- Offsets of the control space that may be loaded, and stored (R175). -/
def ctrlReadable (o : Nat) : Bool := o % 4 == 0 && (decide (o ≤ 0x18) || (decide (0x20 ≤ o) && decide (o ≤ 0x34)))
def ctrlWritable (o : Nat) : Bool := o % 4 == 0 && decide (0x20 ≤ o) && decide (o ≤ 0x34)

/-- Whether a store to the window touches a protected byte (R41, R237, R300). -/
def windowProtected (e o size : Nat) : Bool :=
  if e < 192 then decide (0x40 ≤ o) || (List.range size).any fun i => envProtected (o + i) else !(decide (0x0C ≤ o) && decide (o < 0x10))

/-- The fault of a load or store, the first in the order of R213; 0 for none. -/
def memFault (s : State) (m : Nat) (y : Syl) : Nat :=
  let t := s.thr m
  let b := (t.gr y.s1).tag
  let a := memAddr t y
  let n := memSize y.op
  let r := regionOf (m / 16) a
  let o := a % 0x1000
  if !(b == tagINT || b == tagADDR || b == tagBITS) then causePOISONADDR
  else if a % n ≠ 0 then causeALIGN
  else if r = 4 then causeUNMAPPED
  else if r = 3 ∧ (n ≠ 4 ∨ ctrlReadable o = false ∨ (isStore y.op ∧ (ctrlWritable o = false ∨ (o = 0x30 ∧ (t.gr y.dst).data.toNat % 4 ≠ 0)))) then causeCTRL
  else if r = 1 ∧ mayReach s m a = false then causeDENIED
  else if r = 2 ∧ holdsWork s m = false then causeENVNONE
  else if r = 2 ∧ isStore y.op ∧ windowProtected (m / 16) o n then causeENVPROTECT
  else if isStore y.op ∧ (t.gr y.dst).poison then causePOISONSTORE
  else 0

/-- What a load from the control space returns (R175, R176). -/
def ctrlLoad (s : State) (m o : Nat) : TWord :=
  let t := s.thr m
  let i := engIsland (m / 16)
  if o = 0 then tw tagINT (m + thrTenancy s m * 2 ^ 16 + b2n (thrIsT s m) * 2 ^ 20)
  else if o = 4 then tw tagINT (cycleOf s i)
  else if o = 8 then tw tagINT t.cycHi
  else if o = 0x0C then tw tagINT (thrSlots s m)
  else if o = 0x10 then (match islandTime s i with | some x => tw tagTIME (pmOf x) | none => ⟨tagPOISON, 0⟩)
  else if o = 0x14 then tw tagBITS t.timeHi
  else if o = 0x18 then tw tagINT (t.timeFrac * 2 ^ 16)
  else if o = 0x20 then tw tagINT t.imask
  else if o = 0x24 then tw tagINT t.ipend
  else if o = 0x28 then tw tagINT t.epc
  else if o = 0x2C then tw tagINT t.estat
  else if o = 0x30 then tw tagINT t.ivec
  else tw tagINT t.timerCmp

/-- What a load of the control space latches for its thread (R175). -/
def ctrlLatch (s : State) (m o : Nat) : State :=
  let i := engIsland (m / 16)
  if o = 4 then s.withThr m fun t => { t with cycHi := cycleOf s i / 2 ^ 32 % 2 ^ 32 }
  else if o = 0x10 then
    match islandTime s i with
    | some x => s.withThr m fun t => { t with timeHi := pmOf x / 2 ^ 32, timeFrac := fracOf x }
    | none => s.withThr m fun t => { t with timeHi := 0, timeFrac := 0 }
  else s

/-- The word a load finds at an address. -/
def loadAt (s : State) (m a : Nat) : TWord :=
  let r := regionOf (m / 16) a
  if r ≤ 1 then loadWord s (m / 16) a
  else if r = 2 then windowWord (s.drainWindow m) m (a % 0x1000 / 4 * 4)
  else ctrlLoad s m (a % 0x1000)

/-- What an L opcode makes of the word it finds: the word with its tag, or a part of it, sign- or zero-extended; a part of POISON is POISON (R215, R216). -/
def loadValue (op : Nat) (w : TWord) (a : Nat) : TWord :=
  let n := memSize op
  if n = 4 then w
  else if w.poison then ⟨tagPOISON, 0⟩
  else
    let v := partOf w (a % 4) n
    ⟨tagINT, if op = 2 ∨ op = 4 then sext (8 * n) v else BitVec.ofNat 32 v⟩

/-- Cycles from the issue of a load to its landing, and an S-thread's load delay, by region (R157, R159). -/
def loadDist (r : Nat) : Nat := if r = 0 then 4 else if r = 3 then 6 else 8
def loadDelay (r : Nat) : Nat := if r = 0 then 2 else 3

/-- Whether a load of data memory meets a word with an uncorrectable error: it returns POISON and is counted (R164). -/
def loadBad (s : State) (m a : Nat) : Bool :=
  regionOf (m / 16) a == 0 && (s.eng (m / 16)).localBad.contains (a / 4) &&
    !(s.eng (m / 16)).stores.any fun x => x.addr / 4 == a / 4

/-- A load: the value sent on its way to its register (R215). `ecc` 2 is an uncorrectable error found in the word now. -/
def doLoad (s : State) (m : Nat) (y : Syl) (ecc : Nat) : State :=
  let a := memAddr (s.thr m) y
  let r := regionOf (m / 16) a
  let s := if ecc = 2 ∧ r = 0 then s.withEng (m / 16) fun x => { x with localBad := x.localBad ++ [a / 4] } else s
  let v := loadValue y.op (loadAt s m a) a
  let s1 := if loadBad s m a then s.count (eccCntR (m / 16)) else s
  let s2 := if r = 3 then ctrlLatch s1 m (a % 0x1000) else s1
  s2.sendG m 3 (loadDist r) y.dst ⟨v, 0⟩ false (if thrIsT s m then 0 else loadDelay r)

/-- A store put in the engine's store buffer. -/
def bufferStore (s : State) (m a size : Nat) (w : TWord) : State :=
  let d := if regionOf (m / 16) a = 0 then 2 else 6
  s.withEng (m / 16) fun x => { x with stores := x.stores ++ [⟨m, a, size, w, (s.thr m).issueAt + d⟩] }

/-- A packet thread's store to its own tap slot: discarded and counted while the slot is pending; a store of W0 that leaves KIND SAMPLE or SVDEC makes it
pending (R279, R280). -/
def tapStore (s : State) (m a size : Nat) (w : TWord) : State :=
  let i := engIsland (m / 16)
  let k := (a - tapBase m) / 64
  if (s.shm i).taps.any fun p => p.thread == m && p.slot == k then s.count (engBlk (m / 16) + 0x130)
  else
    let s1 := bufferStore s m a size w
    let kind := (loadWord s1 (m / 16) a).data.toNat / 2 ^ 28
    if a % 64 < 4 ∧ (kind = 1 ∨ kind = 6) then
      let x := s1.shm i
      s1.setShm i { x with taps := x.taps ++ [⟨m, k, (heldItem (s.drainWindow m) m).map fun g => (g.env, g.head)⟩] }
    else s1

/-- A store (R161, R215): through the store buffer to memory or the window, or to the control space. -/
def doStore (s : State) (m : Nat) (y : Syl) : State :=
  let t := s.thr m
  let a := memAddr t y
  let n := memSize y.op
  let w := t.gr y.dst
  let r := regionOf (m / 16) a
  if r = 3 then
    (if a % 0x1000 = 0x34 then s.withThr m fun t => { t with timerAt := s.now } else s).send m 3 2
      { (default : Landing) with kind := 6, reg := a % 0x1000, val := w }
  else if ownTap m a then tapStore s m a n w
  else bufferStore s m a n w

end Sys2Proof.Machine
end

