-- ==== Sys2Proof/Machine/Keys.lean ====
section
/-! DEFINITION. Doorbells and keys (chapter 7, R257 to R273). -/

namespace Sys2Proof.Machine

/-! ### Doorbells (R257 to R261) -/

/-- A WAIT completes in cycle c: every set doorbell of its mask is cleared, and so is a ring of one that comes in that cycle (R258). -/
def Thread.endWait (t : Thread) (c mask : Nat) : Thread := { t with bells := t.bells &&& (255 - mask), clearAt := c, clearMask := mask }

/-- A WAITING thread completes its WAIT: every set doorbell of the mask is cleared, and it is READY from the cycle given (R169, R258). -/
def wakeThr (s : State) (m at_ : Nat) : State :=
  let s1 := s.withThr m fun t => { t.endWait (engCycle s (m / 16)) t.waitMask with waitMask := 0, readyAt := at_ }
  if thrState s m = 5 then s1.withThr m fun t => { t with former := 1 } else s1.setThrState m 1

/-- Whether a thread waits on doorbells, or did before its engine was parked. -/
def waitsBell (s : State) (m : Nat) : Bool :=
  (s.thr m).waitMask != 0 && (s.thr m).keyWait.isNone && (thrState s m == 2 || (thrState s m == 5 && (s.thr m).former == 2))

/-- A ring of doorbell 2 to 7 to a parked thread is an unpark request (R418). -/
def askUnpark (s : State) (m b : Nat) : State :=
  if thrState s m = 5 ∧ 2 ≤ b ∧ s.ledg.wanted.contains (m / 16) = false then { s with ledg := { s.ledg with wanted := s.ledg.wanted ++ [m / 16] } } else s

/-- A doorbell's latch is set, and wakes a thread that waits on it, READY two cycles later (R169, R261); a thread that is OFF takes none (R260), nor one whose WAIT for it
completes in this cycle (R258). -/
def ringBell (s : State) (m b : Nat) : State :=
  if thrState s m = 0 then s
  else
    let t := s.thr m
    let late := t.clearMask.testBit b && t.clearAt == engCycle s (m / 16)
    let s1 := (askUnpark s m b).withThr m fun t => if late then t else { t with bells := t.bells ||| 2 ^ b }
    if waitsBell s m && (s.thr m).waitMask.testBit b then wakeThr s1 m (engCycle s (m / 16) + 2) else s1

/-- A ring on its way from a thread of an engine, or from the Hall's registers: by its engine, its island, or the hatches (R261). -/
def sendRing (s : State) (e target b : Nat) : State :=
  let i := engIsland e
  let j := engIsland (target / 16)
  if i = j then
    let d := if e = target / 16 then 2 else 4
    { s with keys := { s.keys with rings := s.keys.rings ++ [⟨target, b, cycleOf s i + d⟩] } }
  else
    let r : KeyReq := ⟨target, 4, b, 0⟩
    if i = 81 then { s with keys := { s.keys with hallReqs := s.keys.hallReqs ++ [r] } }
    else s.offer (hatchNo 0x16 i) { pay := .keyReq r, flow := 0, xpr := false }

/-- RING of a doorbell: refused with a count for doorbells 0 and 1, an identity that no thread has, and a target of another tenancy unless the ringer is of tenancy 0 (R260). -/
def ringDenied (s : State) (ten target b : Nat) : Bool :=
  decide (b < 2) || !isThread target || (thrTenancy s target != ten && ten != 0)

/-- DOORBELL_RING_ARRIVE (R261): a ring on its way within its island is due, or the next entry of the target's KEY_RSP hatch is a ring of it. -/
def execDoorbellRingArrive (target b dt : Nat) (s : State) : Host.Outcome State Fault Refusal :=
  let s := advance s dt
  let i := engIsland (target / 16)
  let h := hatchNo 0x17 i
  match s.keys.rings.findIdx? (fun r => r.target == target && r.bell == b && decide (r.due ≤ cycleOf s i)) with
  | some k => occur s.life.rails s (ringBell { s with keys := { s.keys with rings := dropAt s.keys.rings k } } target b)
  | none =>
    match (s.hatch h).front with
    | some { pay := .keyReq r, flow := _, xpr := _ } =>
      occur (s.life.rails && r.op == 4 && r.master == target && r.key == b) s (ringBell (s.setHatch h (s.hatch h).consume) target b)
    | _ => .next s

/-! ### Keys (R262 to R270) -/

def State.key (s : State) (k : Nat) : KeySt := mapGet default s.keys.keys k
def State.setKey (s : State) (k : Nat) (v : KeySt) : State := { s with keys := { s.keys with keys := mapSet default s.keys.keys k v } }

/-- KEY_RING_CFG of a key's keyring, and its home island. -/
def keyCfg (s : State) (k : Nat) : Word := s.reg (Reg.keyRingCfg (k / 64))
def keyHome (s : State) (k : Nat) : Nat := fld (keyCfg s k) 7 0

/-- The group of a master (table of master groups), and its tenancy. -/
def masterGroup (m : Nat) : Nat := if m / 16 < 192 then m / 16 % 12 / 4 else if m / 16 < 224 then 3 else if m / 16 < 228 then 4 else 5
def masterTenancy (s : State) (m : Nat) : Nat := if isThread m then thrTenancy s m else funcOf m

/-- Whether a master may operate on a key (R263). -/
def keyAllowed (s : State) (m k : Nat) : Bool :=
  let c := keyCfg s k
  bitOf c 31 && bitOf c (16 + masterGroup m) && (fld c 27 24 == masterTenancy s m || masterTenancy s m == 0)

/-- A status on its way to a waiting thread: through KEY_RSP when the key's home is another island (R267). -/
def sendStatus (s : State) (k : Nat) (r : KeyRsp) : State :=
  let i := engIsland (r.master / 16)
  if keyHome s k = i ∨ i = 81 then { s with keys := { s.keys with granted := s.keys.granted ++ [r] } }
  else s.offer (hatchNo 0x17 i) { pay := .keyRsp r, flow := 0, xpr := false }

/-- A key given up by its owner: it passes to its first waiter, whose grant carries the mark, or becomes FREE (R265 to R267). -/
def passKey (s : State) (k : Nat) (abandoned : Bool) : State :=
  match (s.key k).waiters with
  | [] => s.setKey k { owner := none, mark := abandoned, waiters := [], lost := false }
  | (w, no) :: r =>
    sendStatus (s.setKey k { owner := some w, mark := false, waiters := r, lost := false }) k ⟨w, k, no, b2n abandoned * 256⟩

/-- A key operation served at its agent: the state, and the status unless the master is queued (table of key operations). -/
def serveKey (s : State) (m op k no : Nat) : State × Option Nat :=
  let x := s.key k
  if op = 3 ∨ op = 5 then
    let s1 := s.setKey k { x with waiters := x.waiters.filter fun p => p.1 != m }
    ((if op = 5 ∧ x.owner = some m then passKey (s1.count Reg.keyAbandonCnt) k true else s1), none)
  else if !keyAllowed s m k then (s.count Reg.keyDenyCnt, some 4)
  else if x.owner = some m then
    if op = 2 then (passKey s k false, some 1)
    else (s.setKey k { x with lost := false }, some (6 + b2n x.lost * 256))
  else match x.owner with
    | none => if op = 2 then (s, some 3) else (s.setKey k { x with owner := some m, mark := false, lost := false }, some (b2n x.mark * 256))
    | some _ =>
      if op = 2 then (s, some 3)
      else if op = 1 then (s, some 2)
      else if 64 ≤ x.waiters.length then (s.count Reg.keyQfullCnt, some 5)
      else (s.setKey k { x with waiters := x.waiters ++ [(m, no)] }, none)

/-- A thread begins a key wait (R168, R264). -/
def startKeyWait (s : State) (m k dst : Nat) : State :=
  (s.withThr m fun t => { t with keyWait := some (k, dst), keyMask := 0, keyNo := t.keyNo + 1, waitPc := t.bundle }).setThrState m 2

/-- A request of a thread sent to a key's home in another island. -/
def sendKeyReq (s : State) (i : Nat) (r : KeyReq) : State :=
  if i = 81 then { s with keys := { s.keys with hallReqs := s.keys.hallReqs ++ [r] } }
  else s.offer (hatchNo 0x16 i) { pay := .keyReq r, flow := 0, xpr := false }

/-- KACQ, KTRY and KREL of a thread (R264, R265): on a key homed in its island the status lands 6 cycles after issue, unless the thread is queued;
otherwise the thread waits while the operation travels. -/
def keyOp (s : State) (m op k dst : Nat) : State :=
  let i := engIsland (m / 16)
  let no := (s.thr m).keyNo + 1
  if keyHome s k = i then
    match serveKey s m op k no with
    | (s1, some st) => s1.sendG m 4 6 dst ⟨tw tagINT st, 0⟩
    | (s1, none) => startKeyWait s1 m k dst
  else sendKeyReq (startKeyWait s m k dst) i ⟨m, op, k, no⟩

/-- KEY_WITHDRAW (R268): a thread gives up its key wait: it leaves the queue, and a status that was on its way is lost; a key granted to it stays its own. -/
def keyWithdraw (s : State) (m : Nat) (reset : Bool) : State :=
  match (s.thr m).keyWait with
  | none => s
  | some (k, _) =>
    let s1 := s.withThr m fun t => { t with keyWait := none, keyMask := 0 }
    let op := if reset then 5 else 3
    if keyHome s k = engIsland (m / 16) then
      let mine := s1.keys.granted.filter fun r => r.master == m
      let s2 := { s1 with keys := { s1.keys with granted := s1.keys.granted.filter fun r => r.master != m } }
      let s3 := mine.foldl (fun t r => if 256 ≤ r.status ∧ (t.key r.key).owner = some m then t.setKey r.key { t.key r.key with lost := true } else t) s2
      (serveKey s3 m op k 0).1
    else sendKeyReq s1 (engIsland (m / 16)) ⟨m, op, k, 0⟩

/-- OWNER_RESET (R269): every key a master holds is freed and marked ABANDONED, or passes to its first waiter. -/
def ownerReset (s : State) (m : Nat) : State :=
  (s.keys.keys.filter fun p => p.2.owner == some m).foldl (fun t p => passKey (t.count Reg.keyAbandonCnt) p.1 true) s

/-- KEY_REQUEST_ARRIVE (R264): the next entry of an island's KEY_REQ hatch, or the Hall threads' next request, reaches the home agent and is served; a ring goes on to
its target's island. -/
def execKeyRequestArrive (island : Nat) (s : State) : Host.Outcome State Fault Refusal :=
  let h := hatchNo 0x16 island
  let serve (s : State) (r : KeyReq) : State :=
    if r.op = 4 then
      let j := engIsland (r.master / 16)
      if j = 81 then { s with keys := { s.keys with rings := s.keys.rings ++ [⟨r.master, r.key, cycleOf s 81⟩] } }
      else s.offer (hatchNo 0x17 j) { pay := .keyReq r, flow := 0, xpr := false }
    else
      match serveKey s r.master r.op r.key r.no with
      | (s1, some st) => sendStatus s1 r.key ⟨r.master, r.key, r.no, st⟩
      | (s1, none) => s1
  if island = 81 then
    match s.keys.hallReqs with
    | [] => .next s
    | r :: l => occur s.life.rails s (serve { s with keys := { s.keys with hallReqs := l } } r)
  else
    match (s.hatch h).front with
    | some { pay := .keyReq r, flow := _, xpr := _ } => occur (s.life.rails && hatchExists h) s (serve (s.setHatch h (s.hatch h).consume) r)
    | some _ => occur (s.life.rails && hatchExists h) s (s.setHatch h (s.hatch h).consume)
    | none => .next s

/-- A status whose wait has ended is lost; the agent keeps that a marked grant was (R268). -/
def loseStatus (s : State) (r : KeyRsp) : State :=
  if 256 ≤ r.status ∧ (s.key r.key).owner = some r.master then s.setKey r.key { s.key r.key with lost := true } else s

/-- An ALREADY_OWNER that lands after the marked grant before it was lost carries the mark (R268). -/
def markLost (s : State) (r : KeyRsp) : State × Nat :=
  let x := s.key r.key
  if r.status = 6 ∧ x.lost = true ∧ x.owner = some r.master then (s.setKey r.key { x with lost := false }, 6 + 256) else (s, r.status)

/-- A key status lands: the thread's register takes it, as any result of the unit X (R153, R154, R158), and the thread is READY, or goes on with the WAIT beside its KACQ (R168, R267). A status whose wait has
ended is lost (R268). -/
def landStatus (s0 : State) (r : KeyRsp) : State :=
  let m := r.master
  let s := (markLost s0 r).1
  let t := s.thr m
  let c := engCycle s (m / 16)
  match t.keyWait with
  | some (k, dst) =>
    if k = r.key ∧ t.keyNo = r.no then
      let x : Landing := { (default : Landing) with kind := 0, reg := dst, val := tw tagINT (markLost s0 r).2, land := c, prio := prioOf 4, seq := t.seq }
      let t0 := { t with keyWait := none, land := fly t.land x }
      let t1 := if t.todo.isEmpty then settle (thrIsT s m) c t0 else t0
      let mask := t.keyMask
      if mask ≠ 0 ∧ t.bells &&& mask = 0 then s.setThr m { t1 with keyMask := 0, waitMask := mask }
      else
        let s1 := s.setThr m ({ t1 with keyMask := 0, readyAt := c }.endWait c mask)
        if thrState s m = 5 then s1.withThr m fun t => { t with former := 1 } else s1.setThrState m 1
    else loseStatus s0 r
  | none => loseStatus s0 r

/-- KEY_STATUS_LAND (R267): the status of a thread's queued or remote key operation lands: the one on its way from its own island's agent (or to a Hall thread), or the
next of its KEY_RSP hatch. -/
def execKeyStatusLand (m dt : Nat) (s : State) : Host.Outcome State Fault Refusal :=
  let s := advance s dt
  let h := hatchNo 0x17 (engIsland (m / 16))
  match s.keys.granted.findIdx? (fun r => r.master == m) with
  | some k => occur s.life.rails s
      (landStatus { s with keys := { s.keys with granted := dropAt s.keys.granted k } } (s.keys.granted.getD k default))
  | none =>
    match (s.hatch h).front with
    | some { pay := .keyRsp r, flow := _, xpr := _ } =>
      occur (s.life.rails && r.master == m) s (landStatus (s.setHatch h (s.hatch h).consume) r)
    | _ => .next s

/-! ### The key registers (R271, R272) -/

/-- KEY_RING_CFG_WRITE (R272). -/
def execKeyRingCfgWrite (m ring : Nat) (val : Word) (s : State) : Host.Outcome State Fault Refusal :=
  let home := fld val 7 0
  let bad (s : State) : Bool :=
    !(decide (home < 48) || (decide (73 ≤ home) && decide (home ≤ 81))) ||
    s.keys.keys.any fun p => p.1 / 64 == ring &&
      (p.2.owner.isSome || !p.2.waiters.isEmpty || (p.2.mark && fld val 27 24 != s.rf (Reg.keyRingCfg ring) 27 24))
  occur (s.life.rails && decide (ring < 64)) s (s.command m (Reg.keyRingCfg ring) val bad fun s => s)

/-- KEY_SNAP (R272): KEY_SEL written with SNAP captures the state of key KEY. -/
def execKeySnap (m : Nat) (val : Word) (s : State) : Host.Outcome State Fault Refusal :=
  occur (s.life.rails && bitOf val 31) s
    (s.command m Reg.keySel val (fun _ => false) fun s =>
      let x := s.key (fld val 11 0)
      (s.setReg Reg.keyState (BitVec.ofNat 32
        (b2n x.owner.isSome * 2 ^ 30 + b2n x.mark * 2 ^ 29 + x.waiters.length * 2 ^ 16 + x.owner.getD 0xFFFF))).setRf Reg.keySel 30 30 1)

/-- An operation of the host on a key (R271). -/
def hostKey (m op : Nat) (val : Word) (s : State) : Host.Outcome State Fault Refusal :=
  occur (s.life.rails && bitOf val 31 && fld val 17 16 == op - 1) s
    (s.command m Reg.keyHostOp val (fun s => s.rb Reg.keyHostRes 31) fun s =>
      let r := serveKey s (0x0F00 + funcOf m) op (fld val 11 0) 0
      r.1.setReg Reg.keyHostRes (BitVec.ofNat 32 (2 ^ 30 + r.2.getD 0)))

/-- TRY (R271). -/
def execTryKey (m : Nat) (val : Word) (s : State) : Host.Outcome State Fault Refusal := hostKey m 1 val s

/-- RELEASE (R271). -/
def execReleaseKey (m : Nat) (val : Word) (s : State) : Host.Outcome State Fault Refusal := hostKey m 2 val s

/-- KEY_RING_HOST (R260): GO rings doorbell BELL of thread TARGET, as a tenancy 0 master. -/
def execKeyRingHost (m : Nat) (val : Word) (s : State) : Host.Outcome State Fault Refusal :=
  occur (s.life.rails && bitOf val 31) s
    (s.command m Reg.keyRingHost val (fun _ => false) fun s =>
      if ringDenied s 0 (fld val 15 0) (fld val 18 16) then s.count Reg.keyRingDenyCnt
      else sendRing s 224 (fld val 15 0) (fld val 18 16))

end Sys2Proof.Machine
end

