-- ==== Sys2Proof/Machine/Bundle.lean ====
section
/-! DEFINITION. How a bundle issues (R180, R192 to R195): the fault it would meet, and what carries out one syllable of it. The syllables of one bundle are commands
that follow one another in its issue cycle (log entry 13): the first begins the bundle, and takes its fault for it; the last ends it. -/

namespace Sys2Proof.Machine

/-- The fault causes of the X and C units (R181). -/
def causePOISONHELPER : Nat := 0x0A
def causeKEY : Nat := 0x10
def causeHELPER : Nat := 0x11
def causeTRAP : Nat := 0x13

/-- The helper functions (R246). -/
def helpFuncs : List Nat := [0x00, 0x01, 0x02, 0x03, 0x04, 0x05, 0x08, 0x09, 0x0A, 0x0C, 0x0D, 0x0E, 0x10, 0x11, 0x12, 0x13, 0x18, 0x19]

/-- FUNC, FENCE, SRCK and LEN of a command word (R245, R620). -/
def cwFunc (w : Nat) : Nat := bits w 31 26
def cwFence (w : Nat) : Bool := w.testBit 19
def cwSrck (w : Nat) : Bool := w.testBit 18
def cwLen (w : Nat) : Nat := bits w 15 0

/-- The fault of an HCMD, in the order of R243; 0 for none. -/
def hcmdFault (s : State) (m : Nat) (y : Syl) : Nat :=
  let t := s.thr m
  let p := t.gr y.s1
  let w := t.gr y.s2
  let f := cwFunc w.data.toNat
  let a := p.data.toNat
  let tag := y.mod % 8
  if p.poison || w.poison then causePOISONHELPER
  else if !(p.tag == tagADDR || p.tag == tagINT) || !isIB w then causeHELPER
  else if t.tags.contains tag || (f != 0 && t.ring.isNone) || !helpFuncs.contains f || bits w.data.toNat 25 20 != 0 || bits w.data.toNat 17 16 != 0 ||
      a % 32 != 0 || regionOf (m / 16) a != 1 || (f == 0 && (!t.tags.isEmpty || tag != 0 || a % 256 != 0)) then causeHELPER
  else if !mayReach s m a then causeDENIED else 0

/-- The fault of a jump's target: a tag other than INT, or an address that no bundle starts at (R201, R221). -/
def targetFault (g : TWord) : Nat := if g.tag ≠ tagINT then causePOISONADDR else if g.data.toNat % 4 ≠ 0 then causeALIGN else 0

/-- The fault a syllable meets; 0 for none. -/
def sylFault (s : State) (m : Nat) (y : Syl) : Nat :=
  let t := s.thr m
  if y.unit = 3 then (if y.op = 0 then 0 else memFault s m y)
  else if y.unit = 4 then
    if y.op = 1 then (if holdsWork s m || t.late then 0 else causeENVNONE)
    else if y.op = 2 then hcmdFault s m y
    else if 8 ≤ y.op ∧ y.op ≤ 0x0A then
      (if (t.gr y.s1).tag ≠ tagKEYREF ∨ 4096 ≤ (t.gr y.s1).data.toNat then causeKEY else 0)
    else 0
  else if y.unit = 5 then
    if y.op = 6 ∨ y.op = 8 then targetFault (t.gr y.s1)
    else if y.op = 9 then targetFault (t.gr 31)
    else if y.op = 0x0E then causeTRAP else 0
  else 0

/-- The fault of a bundle: that of its first syllable that meets one. -/
def bundleFault (s : State) (m : Nat) (l : List Syl) : Nat := ((l.map (sylFault s m)).find? (· != 0)).getD 0

/-- Whether the next bundle of a thread may begin now, given what the command expects of its first syllable. -/
def mayBegin (s : State) (m : Nat) : Bool := s.dataPath && mayIssue s m (engCycle s (m / 16)) && !intPending (s.thr m) && !fetchBad s m

/-! ### The end of a bundle (R178, R224, R225) -/

/-- The words of a loop's body that its alcove does not hold yet, as the second iteration begins: from then on the thread fetches nothing of the body from instruction memory
(R165). -/
def fillAlcove (x : Engine) (t : Thread) (l : LoopCtx) : NMap Nat :=
  if l.fits then
    ((List.range ((l.exit - l.start) / 4)).map fun i => l.start + 4 * i).foldl
      (fun a p => if a.any (fun q => q.1 == p) then a else mapInsert a p (imemWord x p)) t.alcove
  else t.alcove

/-- The loop context, the alcove and the next bundle's address once a bundle has ended: a bundle before the exit decrements the count (R224); a jump out of the body ends
the context, a call empties the alcove (R225). DEDUCED (log entry 75): a jump taken in the last bundle of a body goes to its target all the same. -/
def loopStep (x : Engine) (t : Thread) : Thread :=
  match t.loopc with
  | none => t
  | some l =>
    let l1 := if t.seqNext = l.exit then { l with count := l.count - 1 } else l
    if l1.count = 0 ∨ (t.jump = 1 ∧ ¬(l.start ≤ t.next ∧ t.next < l.exit)) then { t with loopc := none, alcove := [] }
    else if t.jump = 2 then { t with loopc := some { l1 with again := false }, alcove := [] }
    else if t.jump = 0 ∧ t.seqNext = l.exit then { t with loopc := some { l1 with again := true }, alcove := fillAlcove x t l, next := l.start }
    else { t with loopc := some l1 }

/-- A WAITING thread is halted at once (R178): a doorbell wait is given up, a key wait withdrawn, and then the KACQ bundle is the next one (R268). -/
def haltWaiting (s : State) (m : Nat) : State :=
  let t := s.thr m
  let s1 := if t.keyWait.isSome then (keyWithdraw s m false).setPc m t.waitPc else s.withThr m fun t => { t with waitMask := 0 }
  ((s1.cutCount m).withThr m fun t => { t with halt := false }).setThrState m 3

/-- The bundle in progress ends: the loop, the next address, and a halt that was waiting when the bundle has made its thread wait. -/
def endBundle (s : State) (m : Nat) : State :=
  let t := loopStep (s.eng (m / 16)) (s.thr m)
  let s1 := (s.setThr m t).setPc m t.next
  if t.halt && thrState s1 m == 2 then haltWaiting s1 m else s1

/-- The first syllable of the bundle in progress taken, and its meaning carried out; the last one ends the bundle. -/
def runSyl (s : State) (m : Nat) (y : Syl) (act : Syl → State → State) : State :=
  let s1 := act y (s.withThr m fun t => { t with todo := t.todo.drop 1 })
  if (s1.thr m).todo.isEmpty then endBundle s1 m else s1

/-- A syllable is issued (R192, R195): the one that stands next in the thread's bundle in progress, or the first of its next bundle when that may issue. A bundle that
meets a fault has no effect but the fault, and takes one slot. -/
def sylCmd (i : Issue) (pick : State → Syl → Bool) (act : Syl → State → State) (s : State) : Host.Outcome State Fault Refusal :=
  let m := i.th
  match (s.thr m).todo with
  | y :: _ => occur (s.life.rails && pick s y && i.dt == 0) s (runSyl (eccFixed s i) m y act)
  | [] =>
    let s1 := s.tick m i.dt
    match nextBundle s1 m with
    | (.ok (y :: l), after) =>
      let cause := bundleFault s1 m (y :: l)
      occur (mayBegin s1 m && pick s1 y) s
        (if cause = 0 then runSyl (eccFixed (beginBundle s1 m (y :: l) after) i) m y act
         else threadFault (s1.useSlot m 1) m cause (thrPc s1 m))
    | _ => .next s

/-- DECODE_FAULT (R194, R195, R167): a bundle that fails a decode check faults its thread in the slot in which it would have issued; so does one whose fetch meets an
uncorrectable error, at the syllable address `bad` when the error is found now. -/
def execDecodeFault (i : Issue) (bad : Option Nat) (s : State) : Host.Outcome State Fault Refusal :=
  let m := i.th
  let e := m / 16
  let s1 := s.tick m i.dt
  let pc := thrPc s1 m
  let s2 := match bad with
    | some a => if pc ≤ a ∧ a < pc + 32 ∧ a % 4 = 0 ∧ fromAlcove (s1.thr m) a = false then
        s1.withEng e fun x => { x with imemBad := x.imemBad ++ [a] } else s1
    | none => s1
  let ok := (s.thr m).todo.isEmpty && s1.dataPath && mayIssue s1 m (engCycle s1 e) && !intPending (s1.thr m)
  if fetchBad s2 m then
    let s3 := (s2.count (eccCntR e)).withEng e fun x => { x with imemErrs := x.imemErrs.drop (x.imemErrs.length - 1) ++ [s2.up] }
    occur ok s (threadFault (s3.useSlot m 1) m 0x07 pc)
  else
    match (nextBundle s1 m).1 with
    | .fault cause => occur ok s (threadFault (s1.useSlot m 1) m cause pc)
    | .ok _ => .next s

/-! ### Results of the A and M units -/

/-- The second operand of an A syllable (R204). -/
def operand2 (t : Thread) (y : Syl) : TWord := (immOperand y).getD (t.gr y.s2)

/-- An A syllable of an opcode. -/
def isA (op : Nat) (_ : State) (y : Syl) : Bool := decide (y.unit ≤ 1) && y.op == op

/-- An M, L, X or C syllable of an opcode. -/
def isU (unit op : Nat) (_ : State) (y : Syl) : Bool := y.unit == unit && y.op == op

/-- A syllable with two operands in an A unit: its result lands one cycle after issue (R206). -/
def aBin (i : Issue) (op : Nat) (f : TWord → TWord → Res) (s : State) : Host.Outcome State Fault Refusal :=
  sylCmd i (isA op) (fun y s => s.sendG i.th y.unit 1 y.dst (f ((s.thr i.th).gr y.s1) (operand2 (s.thr i.th) y))) s

/-- A syllable with one operand in an A unit. -/
def aUn (i : Issue) (op : Nat) (f : Syl → TWord → Res) (s : State) : Host.Outcome State Fault Refusal :=
  sylCmd i (isA op) (fun y s => s.sendG i.th y.unit 1 y.dst (f y ((s.thr i.th).gr y.s1))) s

/-- A syllable of the M unit with a general register result, at its distance (R209). -/
def mBin (i : Issue) (op dist : Nat) (f : Syl → TWord → TWord → Res) (s : State) : Host.Outcome State Fault Refusal :=
  sylCmd i (isU 2 op) (fun y s => s.sendG i.th 2 dist y.dst (f y ((s.thr i.th).gr y.s1) ((s.thr i.th).gr y.s2))) s

/-- A syllable of the M unit with an accumulator result; it reads its accumulator at issue (R210). -/
def mAcc (i : Issue) (op dist : Nat) (f : Syl → AccV → TWord → TWord → ARes) (s : State) : Host.Outcome State Fault Refusal :=
  sylCmd i (isU 2 op) (fun y s => s.sendA i.th dist y.dst (f y ((s.thr i.th).ac y.dst) ((s.thr i.th).gr y.s1) ((s.thr i.th).gr y.s2))) s

end Sys2Proof.Machine
end

