-- ==== Sys2Proof/Machine/Threads.lean ====
section
/-! DEFINITION. The control of threads and engines (chapter 5): interrupts, slot table swaps, halt, resume and reset, configuration, standby, and what the failure of an
engine does to its threads. -/

namespace Sys2Proof.Machine

/-! ### Interrupts (R171 to R173) -/

/-- A thread's timer cause (R171): TIME_LO has come to TIMER_CMP since it was last written or last fired. -/
def timerDue (s : State) (m : Nat) : Bool :=
  let t := s.thr m
  let cmp := t.timerCmp
  let elapsed := s.now / nsUnit - t.timerAt / nsUnit
  let at_ := timeNs (BitVec.ofNat 32 (pmOf t.timerAt))
  let ahead := (timeNs (BitVec.ofNat 32 cmp) + 4000000000 - at_ % 4000000000) % 4000000000
  decide (cmp % 2 ^ 30 < 1000000000) && decide (0 < elapsed) && decide ((if ahead = 0 then 4000000000 else ahead) ≤ elapsed)

/-- TIMER (R171): the TIMER cause becomes pending. -/
def execTimerDue (m dt : Nat) (s : State) : Host.Outcome State Fault Refusal :=
  let s := advance s dt
  occur (s.dataPath && isThread m && thrState s m != 0 && timerDue s m) s
    ((s.withThr m fun t => { t with timerAt := s.now }).pendInt m 2)

/-- Whether a cycle is a thread's to begin interrupt entry in: as for a bundle, or for a WAITING thread the first owned slot (R171, R173). -/
def mayEnter (s : State) (m : Nat) : Bool :=
  let e := m / 16
  let c := engCycle s e
  let entry := slotOf s e (c % 16)
  let taken := decide (0x80 ≤ entry) && thrReady s (e * 16 + entry % 16) c
  if thrState s m = 2 then
    isThread m && !engFailed s e && !engParked s e && decide (0 < islandClock s (engIsland e)) && decide ((s.eng e).freeAt ≤ c) && counted s m c &&
      decide ((s.thr m).readyAt ≤ c) &&
      (if thrIsT s m then entry == 0x80 + m % 16 else !taken)
  else mayIssue s m c

/-- INTERRUPT_ENTRY (R171 to R173, R225): EPC takes the next bundle's address, or that of the bundle the thread waits in, the flags are saved in ESTAT[31:16], IE falls, and
the handler follows after 3 slots, at IVEC as it stands in the second of them. A wait ends, a key wait with a withdrawal. -/
def execInterruptEntry (m dt : Nat) (s : State) : Host.Outcome State Fault Refusal :=
  let s1 := s.tick m dt
  let t := s1.thr m
  let waits := thrState s1 m = 2
  let epc := if waits then t.waitPc else thrPc s1 m
  let s2 := (keyWithdraw s1 m false).useSlot m 3
  let s3 := s2.withThr m fun t =>
    { t with epc := epc, estat := t.flags % 16 * 65536, waitMask := 0, seq := t.seq - 1, alcove := [],
             loopc := t.loopc.map fun l => { l with again := false } }
  let vector := (settle (thrIsT s1 m) (nextOwn s1 m (engCycle s1 (m / 16))) t).ivec
  occur (s1.dataPath && t.todo.isEmpty && intPending t && mayEnter s1 m) s ((s3.setThrState m 1).setPc m vector)

/-! ### The slot table (R151, R152) -/

/-- The station block's standby register of an engine (R185), for a packet engine. -/
def standbyR (e : Nat) : Nat := engBlk e + 0x120

/-- Whether an engine is its station's designated standby. -/
def isStandby (s : State) (e : Nat) : Bool :=
  decide (e < 192) && s.rb (standbyR e) 2 && s.rf (standbyR e) 1 0 == e % 4

/-- The T-threads an engine's active table names. -/
def namedActive (s : State) (e : Nat) : List Nat :=
  ((List.range 16).map (slotOf s e)).filterMap fun b => if 0x80 ≤ b then some (b % 16) else none

/-- The case of a refused swap (table of swap validation); 0 when the swap is accepted. -/
def swapErr (s : State) (e : Nat) : Nat :=
  let sh := (List.range 16).map (shadowOf s e)
  let ac := (List.range 16).map (slotOf s e)
  let timed (t : Nat) : Bool := thrEn s (e * 16 + t) && thrIsT s (e * 16 + t)
  let running (b : Nat) : Bool := decide (0x80 ≤ b) && thrIsT s (e * 16 + b % 16) && !([0, 3].contains (thrState s (e * 16 + b % 16)))
  if sh.any fun b => decide (0x80 ≤ b) && !timed (b % 16) then 1
  else if (List.range 16).any fun t => timed t && !sh.any fun b => decide (0x80 ≤ b) && b % 16 == t then 2
  else if sh.any fun b => b / 16 % 8 != 0 then 3
  else if engFailed s e || isStandby s e then 4
  else if (sh.zip ac).any fun p => p.1 != p.2 && (running p.1 || running p.2) then 5
  else 0

/-- Whether a write of an engine's control register is refused as a whole: SWAP with COPY (R151). -/
def engCtlBoth (val : Word) (_ : State) : Bool := bitOf val 0 && bitOf val 1

/-- SWAP (R151, R152): the shadow table is checked; accepted, it becomes active at the first cycle that is 0 modulo 16 at least 4 cycles on. -/
def execSlotSwap (m e : Nat) (val : Word) (s : State) : Host.Outcome State Fault Refusal :=
  occur (s.life.rails && decide (e < engineCount) && bitOf val 0 && !bitOf val 8) s
    (s.command m (engCtlR e) val (engCtlBoth val) fun s =>
      let err := swapErr s e
      let s1 := s.setRf (engStatR e) 30 28 err
      if err = 0 then s1.withEng e fun x => { x with swapAt := some ((engCycle s e + 4 + 15) / 16 * 16) } else s1.reject (engCtlR e))

/-- SLOT_SWAP_APPLY (R151): the active table becomes the shadow table as it now stands, and the shadow keeps its words. DESIGN CHOICE (log entry 71). -/
def execSlotSwapApply (e dt : Nat) (s : State) : Host.Outcome State Fault Refusal :=
  let s := advance s dt
  match (s.eng e).swapAt with
  | none => .next s
  | some c => occur (s.life.rails && decide (c ≤ engCycle s e)) s
      ((List.range 4).foldl (fun t w => t.setReg (engSlotR e w) (s.reg (engShadowR e w))) (s.withEng e fun x => { x with swapAt := none }))

/-- COPY (R151). -/
def execSlotCopy (m e : Nat) (val : Word) (s : State) : Host.Outcome State Fault Refusal :=
  occur (s.life.rails && decide (e < engineCount) && bitOf val 1 && !bitOf val 0 && !bitOf val 8) s
    (s.command m (engCtlR e) val (fun _ => false) fun s =>
      (List.range 4).foldl (fun t w => t.setReg (engShadowR e w) (s.reg (engSlotR e w))) s)

/-! ### Halt, resume and reset (R177 to R179, R254) -/

/-- Helper commands of a reset thread complete VOID; until the last has, a RESUME is held; then the ring, the doorbells and a pending late error are cleared (R254). -/
def voidHelp (s : State) (m : Nat) : State :=
  if (s.thr m).tags.isEmpty then s.withThr m fun t => { t with ring := none, bells := 0, ipend := t.ipend &&& 6, voiding := false }
  else s.withThr m fun t => { t with voiding := true }

/-- A thread's registers cleared, its PC at START and the thread HALTED (R178). -/
def clearThr (s : State) (m : Nat) : State :=
  let s1 := (s.cutCount m).withThr m fun t =>
    { t with g := [], acc := [], bk := [], flags := 0, land := [], todo := [], loopc := none, alcove := [], waitMask := 0, halt := false, heldTo := 0, estat := 0, imask := 0 }
  ((s1.setRf (thrStatR m) 23 16 0).setPc m (s.rf (thrCfgR m) 15 0)).setThrState m 3

/-- A thread is reset (R178, R254, R268, R269): a key wait is withdrawn, its keys are freed, its helper commands are voided and its registers cleared. -/
def resetThr (s : State) (m : Nat) : State := voidHelp (clearThr (ownerReset (keyWithdraw s m true) m) m) m

/-- A thread is halted (R178): a WAITING one at once, a READY one at the next bundle boundary, which is the end of the slots its last bundle counts. -/
def haltThr (s : State) (m : Nat) : State :=
  if thrState s m = 2 then haltWaiting s m
  else if thrState s m = 1 then s.withThr m fun t => { t with halt := true }
  else s

/-- A HALTED thread is made READY; while a reset still has helper commands to end, when that is done (R177, R254). -/
def resumeThr (s : State) (m : Nat) : State :=
  if (s.thr m).voiding then s.withThr m fun t => { t with resumeHeld := true }
  else
    ((s.slotsMark m (2 ^ 32 - thrSlots s m)).withThr m fun t =>
      { t with slots := 0, count := 0, halt := false, readyAt := engCycle s (m / 16) }).setThrState m 1

/-- Whether a write of a thread's control register is refused (R179, R184): RESET or RESUME on a failed engine, RESUME of a thread that is not HALTED or of a T-thread that no
entry of the active table names. -/
def thrCtlRefused (th : Nat) (val : Word) (s : State) : Bool :=
  let e := th / 16
  let resume := bitOf val 1 && !bitOf val 0 && !bitOf val 2
  ((bitOf val 2 || resume) && engFailed s e) ||
    (resume && (thrState s th != 3 || (thrIsT s th && !(namedActive s e).contains (th % 16))))

/-- What a write of a thread's control register does: of RESET, HALT and RESUME only the first acts (R183); SOFT_INT sets IPEND bit 2. -/
def thrCtlAct (th : Nat) (val : Word) (s : State) : State :=
  let s1 := if bitOf val 3 then s.pendInt th 4 else s
  if bitOf val 2 then (if thrState s1 th = 0 then s1 else resetThr s1 th)
  else if bitOf val 0 then haltThr s1 th
  else if bitOf val 1 then resumeThr s1 th
  else s1

/-- A write of STN_THR_CTL or its WSHOP_ and HALL_ forms. -/
def thrCtl (m th : Nat) (val : Word) (mine : Bool) (s : State) : Host.Outcome State Fault Refusal :=
  occur (s.life.rails && isThread th && mine) s (s.command m (thrCtlR th) val (thrCtlRefused th val) (thrCtlAct th val))

/-- HALT (R178). -/
def execThrHalt (m th : Nat) (val : Word) (s : State) : Host.Outcome State Fault Refusal := thrCtl m th val (bitOf val 0 && !bitOf val 2) s

/-- RESUME (R177, R179). -/
def execThrResume (m th : Nat) (val : Word) (s : State) : Host.Outcome State Fault Refusal :=
  thrCtl m th val (bitOf val 1 && !bitOf val 0 && !bitOf val 2) s

/-- RESET (R178). -/
def execThrReset (m th : Nat) (val : Word) (s : State) : Host.Outcome State Fault Refusal := thrCtl m th val (bitOf val 2) s

/-- SOFT_INT (R171). -/
def execSoftInt (m th : Nat) (val : Word) (s : State) : Host.Outcome State Fault Refusal := thrCtl m th val (bitOf val 3 && fld val 2 0 == 0) s

/-! ### Configuration (R183, R185, R471 to R473) -/

/-- The enabled threads of an engine, and the enabled T-threads. -/
def enabledOf (s : State) (e : Nat) : List Nat := (List.range 16).filter fun t => thrEn s (e * 16 + t)
def timedOf (s : State) (e : Nat) : List Nat := (enabledOf s e).filter fun t => thrIsT s (e * 16 + t)

/-- The engines of a packet engine's station other than one. -/
def otherEngines (e : Nat) : List Nat := ([0, 1, 2, 3].map (e / 4 * 4 + ·)).filter (· != e)

/-- The standby condition of R473 for a standby engine: it has no enabled thread, or every engine of the station with an enabled T-thread is of its tenancy. -/
def standbyTenancyOk (s : State) (b : Nat) : Bool :=
  match enabledOf s b with
  | [] => true
  | t :: _ =>
    let ten := thrTenancy s (b * 16 + t)
    (otherEngines b).all fun e => (timedOf s e).all fun u => thrTenancy s (e * 16 + u) == ten

/-- The thread of the mailbox agent (R538). -/
def agentThread (s : State) : Nat := (224 + s.rf Reg.mbxCfg 25 24) * 16 + 15

/-- Whether a write of a thread's configuration is refused (R183, R184, R471 to R473, R538). -/
def thrCfgRefused (th : Nat) (val : Word) (s : State) : Bool :=
  let e := th / 16
  let en := bitOf val 31
  let was := thrEn s th
  let after := s.setReg (thrCfgR th) val
  let sb := e / 4 * 4 + s.rf (standbyR e) 1 0
  let covered := decide (e < 192) && s.rb (standbyR e) 2
  engFailed s e || !([0, 3].contains (thrState s th)) || fld val 1 0 != 0 ||
  (decide (224 ≤ e) && (bitOf val 29 || fld val 27 24 != 0 || th == agentThread s)) ||
  ((namedActive s e).contains (th % 16) && ((was && !en) || bitOf val 30 != thrIsT s th)) ||
  (en && (enabledOf s e).any fun t => e * 16 + t != th && thrTenancy s (e * 16 + t) != fld val 27 24) ||
  (covered && e == sb && en && !was && (otherEngines e).any fun o => (timedOf s o).contains (th % 16)) ||
  (covered && e != sb && en && bitOf val 30 && !(was && thrIsT s th) && thrState s (sb * 16 + th % 16) != 0) ||
  (covered && !standbyTenancyOk after sb)

/-- THR_CFG_WRITE (R183): enabling an OFF thread leaves it HALTED with registers cleared and its PC at START; disabling a HALTED one leaves it OFF. -/
def execThrCfgWrite (m th : Nat) (val : Word) (s : State) : Host.Outcome State Fault Refusal :=
  occur (s.life.rails && isThread th) s
    (s.command m (thrCfgR th) val (thrCfgRefused th val) fun t =>
      if bitOf val 31 && thrState t th == 0 then clearThr t th
      else if !bitOf val 31 then t.setThrState th 0 else t)

/-- STANDBY_WRITE (R185, R473). -/
def execStandbyWrite (m stn : Nat) (val : Word) (s : State) : Host.Outcome State Fault Refusal :=
  let b := stn * 4 + fld val 1 0
  let r := standbyR (stn * 4)
  let bad (s : State) : Bool := bitOf val 2 && (s.rb r 7 || !(namedActive s b).isEmpty ||
    ((otherEngines b).any fun o => (timedOf s o).any fun t => thrState s (b * 16 + t) != 0) || !standbyTenancyOk s b)
  occur (s.life.rails && decide (stn < 48)) s (s.command m r val bad fun s => s)

/-! ### Failure of an engine (R184, R186) -/

/-- A thread of a failed engine (R184): FAULTED, its envelope voided, its keys freed and its helper commands voided; of one that is OFF the keys and the commands it still
has outstanding (R187). -/
def failThr (s : State) (m : Nat) : State :=
  if thrState s m = 0 then (if (s.thr m).tags.isEmpty then ownerReset s m else voidHelp (ownerReset s m) m)
  else
    let s1 := ((((ownerReset (keyWithdraw s m true) m).cutCount m).setThrState m 4).setRf (thrStatR m) 23 16 0x14).withThr m fun t =>
      { t with todo := [], land := [], alcove := [], waitMask := 0, halt := false, former := 4 }
    voidHelp ((s1.voidHeld m 1).endDispatch m 1) m

/-- STANDBY_TAKEOVER (R186, R187): the standby engine receives the failed engine's T-thread configurations, reset and HALTED, and its active table. -/
def takeOver (s : State) (e : Nat) : State :=
  let b := e / 4 * 4 + s.rf (standbyR e) 1 0
  let s1 := (timedOf s e).foldl (fun t n => resetThr (t.setReg (thrCfgR (b * 16 + n)) (t.reg (thrCfgR (e * 16 + n)))) (b * 16 + n)) s
  let s2 := (List.range 4).foldl (fun t w => t.setReg (engSlotR b w) (s.reg (engSlotR e w))) s1
  s2.setStation (e / 4) { s2.station (e / 4) with takeover := some e }

/-- What the failure of an engine does to the engine, its threads and its station (R184, R186): a designated standby that covers nothing yet takes over. -/
def engineDown (s : State) (e arg : Nat) : State :=
  let covers := decide (e < 192) && s.rb (standbyR e) 2 && !s.rb (standbyR e) 7 && !isStandby s e && (s.station (e / 4)).takeover.isNone &&
    !engFailed s (e / 4 * 4 + s.rf (standbyR e) 1 0)
  let s0 := ((s.setRf (engStatR e) 27 26 3).withEng e fun x => { x with div := none, divWait := none, swapAt := none })
  let s1 := (List.range 16).foldl (fun t n => failThr t (e * 16 + n)) s0
  let s2 := if covers then takeOver s1 e else s1
  s2.raise 0x0202 (engIsland e) e arg

/-- TAKEOVER_RESUME (R186): the threads taken over that are HALTED run from START (R177, R181); ACTIVE, COVERING and COVERED are set. -/
def execTakeoverResume (stn dt : Nat) (s : State) : Host.Outcome State Fault Refusal :=
  let s := advance s dt
  match (s.station stn).takeover with
  | none => .next s
  | some e =>
    let b := stn * 4 + s.rf (standbyR e) 1 0
    let resume (t : State) (m : Nat) : State := if thrState t m = 3 then resumeThr t m else t
    let s1 := (timedOf s e).foldl (fun t n => resume t (b * 16 + n)) (s.setStation stn { s.station stn with takeover := none })
    let s2 := ((s1.setRf (standbyR e) 7 7 1).setRf (standbyR e) 5 4 (e % 4))
    occur (s.life.rails && !engFailed s b) s ((s2.setRf (engStatR b) 25 25 1).setRf (engStatR b) 23 22 (e % 4))

/-! ### The X unit: release, keys and doorbells -/

/-- REL (R56, R57, R218, R301): the thread gives up its envelope to its station's gate (a firmware void without a cause of its own takes 0x80) or ends its node; a
release after the time has run out has no effect and is counted. -/
def execRel (i : Issue) (s : State) : Host.Outcome State Fault Refusal :=
  let m := i.th
  sylCmd i (isU 4 1) (fun _ s =>
    if holdsWork s m then
      if m / 16 < 192 then
        let isl := engIsland (m / 16)
        let fwVoid := match heldItem (s.drainWindow m) m with | some x => eVoid x.env | none => false
        let s1 := (s.drainWindow m).withHeld m fun x =>
          { x with released := true, thread := none,
                   env := if eVoid x.env then setEf (setEf x.env 15 15 8 isl) 15 7 0 (if eDropCause x.env < 0x80 then 0x80 else eDropCause x.env) else x.env }
        if fwVoid then s1.count (engBlk (m / 16) + 0x108) else s1
      else (s.drainThread m).endDispatch m 0
    else
      let s1 := s.withThr m fun t => { t with late := false }
      if m / 16 < 192 then s1.count (engBlk (m / 16) + 0x110) else s1.count Reg.wshopLateRelCnt) s

/-- The key operation of a syllable. -/
def keyCmd (i : Issue) (op code : Nat) (s : State) : Host.Outcome State Fault Refusal :=
  sylCmd i (isU 4 code) (fun y s => keyOp s i.th op ((s.thr i.th).gr y.s1).data.toNat y.dst) s

/-- KACQ (R265). -/
def execKacq (i : Issue) (s : State) : Host.Outcome State Fault Refusal := keyCmd i 0 0x08 s

/-- KTRY (R265). -/
def execKtry (i : Issue) (s : State) : Host.Outcome State Fault Refusal := keyCmd i 1 0x09 s

/-- KREL (R265). -/
def execKrel (i : Issue) (s : State) : Host.Outcome State Fault Refusal := keyCmd i 2 0x0A s

/-- RING (R217, R260, R261): a target that is not INT, or a ring refused, sets TF; a ring to a thread that is OFF is discarded. -/
def execRing (i : Issue) (s : State) : Host.Outcome State Fault Refusal :=
  let m := i.th
  sylCmd i (isU 4 0x0C) (fun y s =>
    let g := (s.thr m).gr y.s1
    let target := g.data.toNat % 65536
    let b := y.mod % 8
    if g.tag ≠ tagINT then s.sendF m 4 flagTF
    else if ringDenied s (thrTenancy s m) target b then (s.count Reg.keyRingDenyCnt).sendF m 4 flagTF
    else if thrState s target = 0 then s
    else sendRing s (m / 16) target b) s

/-- HCMD (R242 to R245, R247): the thread's stores reach memory, and the command takes its place in the thread's queue: in a station the HELP_CMD hatch's, in a bench or the Hall its
own. An envelope whose cells it reads is kept at the gate until it completes. -/
def execHcmd (i : Issue) (s : State) : Host.Outcome State Fault Refusal :=
  let m := i.th
  sylCmd i (fun s y => isU 4 2 s y && cwFunc ((s.thr m).gr y.s2).data.toNat != 0) (fun y s =>
    let t := s.thr m
    let w := (t.gr y.s2).data.toNat
    let tag := y.mod % 8
    let cmd : HelpCmd := ⟨m, tag, (t.gr y.s1).data.toNat, w, thrIsT s m, (heldItem s m).map fun x => eTableEpoch x.env⟩
    let s1 := (s.drainThread m).withThr m fun t => { t with tags := t.tags ++ [tag] }
    let s2 := if cwSrck w || cwFunc w == 0x12 then s1.withHeld m fun x => { x with cmds := x.cmds ++ [(m, tag)] } else s1
    if m / 16 < 192 then s2.offer (hatchNo 9 (m / 64)) { pay := .helpCmd cmd, flow := m, xpr := thrIsT s m }
    else s2.withThr m fun t => { t with hq := t.hq ++ [cmd] }) s

/-- SETRING (R243, R246): the thread's completion ring begins at the pointer; it takes no tag. -/
def execSetring (i : Issue) (s : State) : Host.Outcome State Fault Refusal :=
  sylCmd i (fun s y => isU 4 2 s y && cwFunc ((s.thr i.th).gr y.s2).data.toNat == 0) (fun y s =>
    s.withThr i.th fun t => { t with ring := some (t.gr y.s1).data.toNat }) s

end Sys2Proof.Machine
end

