-- ==== Sys2Proof/Machine/Accounts.lean ====
section
/-! DEFINITION. Balances and holds of the Ledger's accounts (R401, R404, R305), as the Dispatcher and the Ledger see them. -/

namespace Sys2Proof.Machine

/-- A change of the Workshop's, and of the Ledger's, state. -/
def State.withWshop (s : State) (f : WshopSt → WshopSt) : State := { s with wshop := f s.wshop }
def State.withLedg (s : State) (f : LedgSt → LedgSt) : State := { s with ledg := f s.ledg }

/-- The balance of an account in µJ: a 48-bit two's-complement count (R401). -/
def acctBal (s : State) (a : Nat) : Int := signed 48 ((s.reg (Reg.acctBalHi a)).toNat % 65536 * 2 ^ 32 + (s.reg (Reg.acctBalLo a)).toNat)

/-- The balance of an account set. -/
def putBal (s : State) (a : Nat) (v : Int) : State :=
  let n := (v % 2 ^ 64).toNat
  (s.setReg (Reg.acctBalLo a) (BitVec.ofNat 32 n)).setReg (Reg.acctBalHi a) (BitVec.ofNat 32 (n / 2 ^ 32))

/-- A charge or credit: a balance that would pass the limits saturates, and each that would raises LEDG_OVF (R401). -/
def addBal (s : State) (a : Nat) (v : Int) : State :=
  let n := acctBal s a + v
  let top : Int := 2 ^ 47 - 1
  let bot : Int := -(2 ^ 47)
  if n ≤ top ∧ bot ≤ n then putBal s a n
  else
    ((putBal s a (if top < n then top else bot)).setRf Reg.ledgStat 29 29 1).raise 0x0603 81 a

/-- Energy in nJ charged to an account, in whole µJ; what is left below 1 µJ is kept for the account's next charge (log entry 20). -/
def chargeNj (s : State) (a : Nat) (nj : Int) : State :=
  let t : Int := nj + (mapGet 0 s.ledg.rest a : Nat)
  addBal (s.withLedg fun l => { l with rest := mapSet 0 l.rest a (t % 1000).toNat }) a (-(t / 1000))

/-- µJ the Dispatcher holds of an account. -/
def acctHold (s : State) (a : Nat) : Nat := (s.reg (Reg.acctHold a)).toNat
def setHold (s : State) (a v : Nat) : State := s.setReg (Reg.acctHold a) (BitVec.ofNat 32 v)

/-- A node's cost in µJ, and whether its account holds it (R303, R400). -/
def costUj (n : GNode) : Nat := (n.cost + 999) / 1000
def affords (s : State) (a : Nat) (n : GNode) : Bool := decide ((costUj n : Int) ≤ acctBal s a - acctHold s a)

/-- Hard throttle is in force (R403). -/
def hardThrottle (s : State) : Bool := s.rb Reg.ledgTherm 31

end Sys2Proof.Machine
end

