-- ==== Sys2Proof/Machine/Crypto.lean ====
section
/-! DEFINITION. The functions named by the standards the specification cites: CRC-32 (Ethernet FCS), CRC-32C, CRC-16, the ones'
complement sum, SHA-256 (FIPS 180), HMAC, AES (FIPS 197) and GCM (SP 800-38D). Their algorithms are those of the standards, not of
the specification's own text (log entry 10). -/

namespace Sys2Proof.Machine

/-! ### Checks -/

/-- One bit of a reflected CRC. -/
def crcBit (poly c : Nat) : Nat := if c % 2 = 1 then Nat.xor (c / 2) poly else c / 2

/-- One byte of a reflected 32-bit CRC. -/
def crcByte (poly c : Nat) (b : Byte) : Nat := (List.range 8).foldl (fun a _ => crcBit poly a) (Nat.xor c b.toNat)

/-- A reflected 32-bit CRC in final form, continued from the final form of the bytes before (0 at the start). -/
def crcFrom (poly prev : Nat) (l : List Byte) : Nat := Nat.xor (l.foldl (crcByte poly) (Nat.xor prev 0xFFFFFFFF)) 0xFFFFFFFF

/-- CRC-32 as the Ethernet FCS. -/
def crc32 (prev : Nat) (l : List Byte) : Nat := crcFrom 0xEDB88320 prev l

/-- CRC-32C (Castagnoli). -/
def crc32c (prev : Nat) (l : List Byte) : Nat := crcFrom 0x82F63B78 prev l

/-- The four FCS bytes of a frame, in order of transmission. -/
def fcsOf (l : List Byte) : List Byte := leBytes 4 (crc32 0 l)

/-- CRC-16 of polynomial 0x1021, most significant bit first, from an initial value. -/
def crc16 (init : Nat) (l : List Byte) : Nat :=
  l.foldl (fun c b => (List.range 8).foldl (fun c _ => if c.testBit 15 then Nat.xor (c * 2 % 65536) 0x1021 else c * 2 % 65536)
    (Nat.xor c (b.toNat * 256))) init

/-- One fold of carries into 16 bits. -/
def fold16 (n : Nat) : Nat := n % 65536 + n / 65536

/-- The 16-bit words of a byte string, first byte most significant, a last odd byte padded with 0. -/
def beWords16 : List Byte → List Nat
  | [] => []
  | [a] => [a.toNat * 256]
  | a :: b :: r => (a.toNat * 256 + b.toNat) :: beWords16 r

/-- The ones' complement sum of 16-bit words over an initial sum. -/
def csum16 (init : Nat) (l : List Byte) : Nat := fold16 (fold16 ((beWords16 l).foldl (· + ·) init))

/-! ### SHA-256 and HMAC -/

/-- The primes below 312, of which there are 64. -/
def smallPrimes : List Nat := (List.range 312).filter fun n => decide (2 ≤ n) && (List.range 18).all fun d => decide (d < 2) || decide (n ≤ d) || n % d != 0

/-- The first 32 bits of the fraction of the k-th root of n, by trying bits from the top. -/
def rootFraction (k n : Nat) : Nat :=
  (List.range 35).foldl (fun r i => if (r + 2 ^ (34 - i)) ^ k ≤ n * 2 ^ (32 * k) then r + 2 ^ (34 - i) else r) 0 % 2 ^ 32

/-- The xor of a word's rotations to the right. -/
def turned (w : Word) (l : List Nat) : Word := l.foldl (fun x n => x ^^^ w.rotateRight n) 0

/-- The eight working words after one round with a word of the schedule and its constant together. -/
def mixWords : List Word → Word → List Word
  | [a, b, c, d, e, f, g, h], x =>
    let t := x + h + turned e [6, 11, 25] + ((f &&& e) ||| (g &&& ~~~e))
    [t + turned a [2, 13, 22] + (((a ||| b) &&& c) ||| (a &&& b)), a, b, c, d + t, e, f, g]
  | l, _ => l

/-- One round on the working words and the next sixteen words of the schedule, of which it uses up the first and adds one behind. -/
def mixRound (s : List Word × List Word) (k : Nat) : List Word × List Word :=
  let at_ (i : Nat) : Word := s.2.getD i 0
  let low := turned (at_ 1) [7, 18] ^^^ (at_ 1 >>> 3)
  let high := turned (at_ 14) [17, 19] ^^^ (at_ 14 >>> 10)
  (mixWords s.1 (at_ 0 + BitVec.ofNat 32 k), s.2.drop 1 ++ [low + at_ 0 + high + at_ 9])

/-- The digest words after one more block of sixteen words. -/
def digestBlock (h block : List Word) : List Word :=
  let r := (smallPrimes.map (rootFraction 3)).foldl mixRound (h, block)
  List.zipWith (· + ·) h r.1

/-- Blocks taken off a padded message one after the other; `n` counts them. -/
def digestBlocks : Nat → List Byte → List Word → List Word
  | 0, _, h => h
  | n + 1, m, h => digestBlocks n (m.drop 64) (digestBlock h ((List.range 16).map fun i => BitVec.ofNat 32 (beNat (slice m (4 * i) 4))))

/-- SHA-256: a 1 bit and zeros fill the message to 8 bytes short of whole blocks, its length in bits fills those. -/
def sha256 (l : List Byte) : List Byte :=
  let n := (l.length + 72) / 64
  let m := l ++ 0x80 :: (List.replicate (64 * n - 9 - l.length) 0 ++ beBytes 8 (8 * l.length))
  (digestBlocks n m ((smallPrimes.take 8).map fun p => BitVec.ofNat 32 (rootFraction 2 p))).flatMap fun w => beBytes 4 w.toNat

/-- HMAC-SHA256. -/
def hmacSha256 (key msg : List Byte) : List Byte :=
  let k := if 64 < key.length then sha256 key else key
  let k := k ++ List.replicate (64 - k.length) 0
  sha256 (k.map (· ^^^ 0x5C) ++ sha256 (k.map (· ^^^ 0x36) ++ msg))

/-! ### AES and GCM -/

/-- Doubling in the field of AES. -/
def gfDouble (a : Nat) : Nat := Nat.xor (a * 2 % 256) (a / 128 * 0x1B)

/-- The rows of the S-box of AES (FIPS 197, figure 7), the entry of column 0 in the low byte of its row. -/
def aesRows : List Nat :=
  [0x76ABD7FE2B670130C56F6BF27B777C63, 0xC072A49CAFA2D4ADF04759FA7DC982CA, 0x1531D871F1E5A534CCF73F362693FDB7, 0x75B227EBE28012079A059618C323C704,
    0x842FE329B3D63B52A05A6E1B1A2C8309, 0xCF584C4A39BECB6A5BB1FC20ED00D153, 0xA89F3C507F02F94585334D43FBAAEFD0, 0xD2F3FF1021DAB6BCF5389D928F40A351,
    0x73195D643D7EA7C41744975FEC130CCD, 0xDB0B5EDE14B8EE4688902A22DC4F8160, 0x79E4959162ACD3C25C2406490A3A32E0, 0x08AE7A65EAF4566CA94ED58D6D37C8E7,
    0x8A8BBD4B1F74DDE8C6B4A61C2E2578BA, 0x9E1DC186B95735610EF6034866B53E70, 0xDF2855CEE9871E9B948ED9691198F8E1, 0x16BB54B00F2D99416842E6BF0D89A18C]

/-- The S-box of AES. -/
def aesSub (a : Nat) : Nat := aesRows.getD (a / 16) 0 / 2 ^ (8 * (a % 16)) % 256

/-- The round keys of AES, as bytes, most recent word last: nk key words. -/
def aesExpand (key : List Byte) : List Nat :=
  let nk := key.length / 4
  let total := 4 * (nk + 7)
  let step (w : List (List Nat)) (i : Nat) : List (List Nat) :=
    let prev := w.getLastD []
    let old := w.getD (i - nk) []
    let t := if i % nk = 0 then
        let rot := (prev.drop 1 ++ prev.take 1).map aesSub
        let rc := (List.range (i / nk - 1)).foldl (fun a _ => gfDouble a) 1
        (Nat.xor (rot.getD 0 0) rc) :: rot.drop 1
      else if nk = 8 ∧ i % 8 = 4 then prev.map aesSub else prev
    w ++ [(old.zip t).map fun p => Nat.xor p.1 p.2]
  let w0 := (List.range nk).map fun i => (slice key (4 * i) 4).map BitVec.toNat
  (((List.range (total - nk)).map (· + nk)).foldl step w0).flatten

/-- The columns mixed. -/
def aesMix (st : List Nat) : List Nat :=
  (List.range 16).map fun i =>
    let c := i / 4 * 4
    let g (k : Nat) := st.getD (c + (i + k) % 4) 0
    Nat.xor (Nat.xor (gfDouble (g 0)) (Nat.xor (gfDouble (g 1)) (g 1))) (Nat.xor (g 2) (g 3))

/-- Bytes substituted and rows shifted. -/
def aesSubShift (st : List Nat) : List Nat := (List.range 16).map fun i => aesSub (st.getD ((i / 4 + i % 4) % 4 * 4 + i % 4) 0)

/-- A round key added. -/
def aesAdd (st rk : List Nat) (r : Nat) : List Nat := (st.zip ((rk.drop (16 * r)).take 16)).map fun p => Nat.xor p.1 p.2

/-- AES encryption of one block under expanded keys. -/
def aesBlock (rk : List Nat) (blk : List Byte) : List Byte :=
  let nr := rk.length / 16 - 1
  let s0 := aesAdd (blk.map BitVec.toNat) rk 0
  let s1 := (List.range (nr - 1)).foldl (fun st i => aesAdd (aesMix (aesSubShift st)) rk (i + 1)) s0
  (aesAdd (aesSubShift s1) rk nr).map (BitVec.ofNat 8)

/-- Multiplication in the field of GHASH. -/
def ghMul (x y : Nat) : Nat :=
  ((List.range 128).foldl (fun (acc : Nat × Nat) i =>
    (if x.testBit (127 - i) then Nat.xor acc.1 acc.2 else acc.1,
     if acc.2 % 2 = 1 then Nat.xor (acc.2 / 2) (0xE1 * 2 ^ 120) else acc.2 / 2)) (0, y)).1

/-- A byte string padded with zeros to whole blocks, as blocks. -/
def blocks16 (l : List Byte) : List Nat := (List.range ((l.length + 15) / 16)).map fun i => beNat (slice l (16 * i) 16)

/-- GHASH of additional data and text. -/
def ghash (h : Nat) (aad txt : List Byte) : Nat :=
  (blocks16 aad ++ blocks16 txt ++ [aad.length * 8 * 2 ^ 64 + txt.length * 8]).foldl (fun y b => ghMul (Nat.xor y b) h) 0

/-- The counter-mode key stream applied to a text, from counter 2. -/
def gcmCtr (rk : List Nat) (iv : List Byte) (txt : List Byte) : List Byte :=
  ((List.range ((txt.length + 15) / 16)).flatMap fun i =>
    ((slice txt (16 * i) 16).zip (aesBlock rk (iv ++ beBytes 4 (i + 2)))).map fun p => p.1 ^^^ p.2).take txt.length

/-- The GCM tag of additional data and ciphertext. -/
def gcmTag (rk : List Nat) (iv aad ct : List Byte) : List Byte :=
  let h := beNat (aesBlock rk (List.replicate 16 0))
  let j := beNat (aesBlock rk (iv ++ beBytes 4 1))
  beBytes 16 (Nat.xor (ghash h aad ct) j)

/-- GCM encryption with a 96-bit IV: ciphertext and tag. -/
def gcmEnc (key iv aad pt : List Byte) : List Byte × List Byte :=
  let rk := aesExpand key
  let ct := gcmCtr rk iv pt
  (ct, gcmTag rk iv aad ct)

/-- GCM decryption with a 96-bit IV: plaintext and the tag that authenticates it. -/
def gcmDec (key iv aad ct : List Byte) : List Byte × List Byte :=
  let rk := aesExpand key
  (gcmCtr rk iv ct, gcmTag rk iv aad ct)

end Sys2Proof.Machine
end

