-- ==== Sys2Proof/Machine/Routes.lean ====
section
/-! DEFINITION. Courier addressing (R429, R440 to R447): fabric words, routes, multipath groups, buckets and flowlets, and the words a Courier envelope carries beside its sixteen. -/

namespace Sys2Proof.Machine

/-- A change of the Courier block; a link, a group. -/
def State.withCour (s : State) (f : CourSt → CourSt) : State := { s with cour := f s.cour }
def State.link (s : State) (k : Nat) : CourLink := mapGet default s.cour.links k
def State.withLink (s : State) (k : Nat) (f : CourLink → CourLink) : State := s.withCour fun c => { c with links := mapSet default c.links k (f (s.link k)) }
def State.group (s : State) (g : Nat) : CourGroup := mapGet default s.cour.groups g
def State.withGroup (s : State) (g : Nat) (f : CourGroup → CourGroup) : State :=
  s.withCour fun c => { c with groups := mapSet default c.groups g (f (s.group g)) }

/-- A link's state (R425): 0 DOWN, 1 LOCKING, 2 HELLO, 3 CHECK, 4 UP, 5 FAILED, 6 LEAVING. -/
def linkState (s : State) (k : Nat) : Nat := s.rf (Reg.linkStat k) 31 29

/-- This module's number. -/
def ownModule (s : State) : Nat := s.rf Reg.courId 9 0

/-! ### The words beside an envelope's sixteen -/

/-- An envelope with all of them: 16 the copy mark and, in bit 1, that it was queued when its link entered LEAVING, 17 the bucket it is placed by, 18 DST, SRC, DIRECT, MC and HOPS, 19 FLOW and RPH. -/
def courExt (e : Env) : Env := e ++ List.replicate (20 - e.length) 0

def cTag (e : Env) : Nat := (ew e 17).toNat
def cDst (e : Env) : Nat := ef e 18 31 22
def cSrc (e : Env) : Nat := ef e 18 21 12
def cDirect (e : Env) : Bool := bitOf (ew e 18) 6
def cMc (e : Env) : Bool := bitOf (ew e 18) 5
def cHops (e : Env) : Nat := ef e 18 4 0
def cFlow (e : Env) : Nat := ef e 19 31 16
def cRph (e : Env) : Nat := ef e 19 13 0

/-- The words written. -/
def courInfo (e : Env) (tag dst src : Nat) (direct mc : Bool) (hops flow rph : Nat) : Env :=
  let e := setEf (courExt e) 17 31 0 tag
  let e := setEf e 18 31 0 (dst * 2 ^ 22 + src * 2 ^ 12 + b2n direct * 64 + b2n mc * 32 + hops)
  setEf e 19 31 0 (flow * 2 ^ 16 + rph)

/-- FLOW of a frame that enters the system here (R444): the CRC-16 of its addresses, its IN_PORT, and the four bytes at L4_OFF. -/
def flowOf (s : State) (e : Env) : Nat :=
  let b := (s.frame (eCell e)).bytes
  crc16 (s.rf Reg.courMpCfg 15 0) (slice b 0 12 ++ beBytes 2 (eInPort e) ++ (if eL4 e = 0 then [] else slice b (eL4 e) 4))

/-- The flow of a parcel as a number: SRC, DST, CLASS, TENANCY, FLOW. -/
def flowKey (src dst cls ten flow : Nat) : Nat := (((src * 1024 + dst) * 8 + cls) * 16 + ten) * 65536 + flow

/-! ### Groups (R441, R445) -/

/-- The link of a way, and whether the way is usable. -/
def wayLink (s : State) (g w : Nat) : Nat := (s.group g).ways.getD w 0 % 32
def wayUsable (s : State) (g w : Nat) : Bool := ((s.group g).ways.getD w 0).testBit 7 && linkState s (wayLink s g w) == 4
def usableWays (s : State) (g : Nat) : List Nat := (List.range 8).filter (wayUsable s g)

/-- The tag of a bucket. -/
def bucketTag (g b : Nat) : Nat := g * 256 + b + 1

/-- The bucket of a flow, and the flowlet table after its use: an entry used within 50 µs keeps its bucket. -/
def flowBucket (s : State) (g key : Nat) : State × Nat :=
  let ix := Config.courHash (2 ^ 32) key % 4096
  let f := mapGet (0, 0) (s.group g).flowlets ix
  let b := if f.1 ≠ 0 ∧ s.up - f.2 ≤ 50000 * nsUnit then f.1 - 1 else Config.courHash (Config.courSeed s.cour.seedGen g % 2 ^ 32) key % 256
  (s.withGroup g fun x => { x with flowlets := mapSet (0, 0) x.flowlets ix (b + 1, s.up) }, b)

/-- The move a bucket is under. -/
def moveOf (s : State) (g b : Nat) : Option BucketMove := (s.group g).moves.find? fun m => m.bucket == b

/-- The entry of a destination module. -/
def routeOf (s : State) (dst : Nat) : Word := mapGet 0 s.cour.routes dst

/-- Class 7's way: XWAY if usable, else the first usable one after it in slot order (R442). -/
def expressWay (s : State) (g x : Nat) : Option Nat := ((List.range 8).map fun i => (x + i) % 8).find? (wayUsable s g)

/-- The link routed to, if there is a valid way (R442): the state, the link, the bucket's tag, and whether the bucket is moving. -/
def routeLink (s : State) (dst cls key : Nat) : State × Option (Nat × Nat × Bool) :=
  let r := routeOf s dst
  let g := fld r 23 16
  if !bitOf r 31 then (s, none)
  else if !bitOf r 30 then (s, if linkState s (fld r 4 0) = 4 then some (fld r 4 0, 0, false) else none)
  else if cls = 7 then (s, (expressWay s g (fld r 29 27)).map fun w => (wayLink s g w, 0, false))
  else if (usableWays s g).isEmpty then (s, none)
  else
    let p := flowBucket s g key
    let w := (s.group g).buckets.getD p.2 0
    if (moveOf s g p.2).isSome then (p.1, some (wayLink s g w, bucketTag g p.2, true))
    else if wayUsable s g w then (p.1, some (wayLink s g w, bucketTag g p.2, false))
    else (p.1, none)

/-- Whether a destination has a valid way. -/
def routeOk (s : State) (dst : Nat) : Bool :=
  let r := routeOf s dst
  bitOf r 31 && (if bitOf r 30 then !(usableWays s (fld r 23 16)).isEmpty else linkState s (fld r 4 0) == 4)

/-! ### Placing an envelope (R429) -/

/-- What becomes of a unicast envelope for a Courier pigeonhole: 0 dropped and counted, 1 held with its moving bucket, 2 placed in the pigeonhole its PH then names. -/
def courPlace (s : State) (e : Env) : State × Nat × Env :=
  let own := ownModule s
  let local_ := decide (e.length < 20)
  let w := ew e 13
  let v := !local_ || bitOf w 31
  let dst := if local_ then fld w 29 20 else cDst e
  let rph := if local_ then fld w 13 0 else cRph e
  let src := if local_ then own else cSrc e
  let flow := if local_ then flowOf s e else cFlow e
  let direct := if local_ then bitOf w 30 else cDirect e
  let hops := if local_ then 0 else cHops e
  if !local_ && cMc e then (s, 2, e)
  else if !v || dst == own || decide (4415 < rph) then (s.count Reg.courNoaddrCnt, 0, e)
  else
    let r := if direct then (s, some ((ePh e - 4096) / 8, 0, false)) else routeLink s dst (eClass e) (flowKey src dst (eClass e) (eTenancy e) flow)
    match r.2 with
    | none => (r.1.count Reg.courNorouteCnt, 0, e)
    | some (k, tag, held) =>
      if eClass e ≠ 7 ∧ eLength e > r.1.rf (Reg.linkCfg k) 29 16 + 4 then (r.1.count Reg.courGmaxCnt, 0, e)
      else
        let e1 := courInfo (if direct then e else setEf e 9 31 19 (4096 + k * 8 + eClass e)) tag dst src direct false hops flow rph
        if held then
          let g := (tag - 1) / 256
          (r.1.withGroup g fun x => { x with moves := x.moves.map fun m => if m.bucket = (tag - 1) % 256 then { m with held := m.held ++ [e1] } else m }, 1, e1)
        else (r.1, 2, e1)

/-- The first lane of the lane group that carries a link. -/
def linkLane (s : State) (k : Nat) : Option Nat :=
  (List.range 128).find? fun l => decide (6 ≤ s.rf (Reg.laneCfg l) 3 0) && decide (s.rf (Reg.laneCfg l) 3 0 ≤ 8) && s.rf (Reg.laneCfg l) 23 19 == k

/-- Lanes of the link a lane group carries. -/
def modeLanes (s : State) (k : Nat) : Nat :=
  match linkLane s k with
  | some l => 2 ^ (s.rf (Reg.laneCfg l) 3 0 - 6)
  | none => 1

end Sys2Proof.Machine
end

