-- ==== Sys2Proof/Machine/Forward.lean ====
section
/-! DEFINITION. Alarm records and their summaries (R548, R552), and their forwarding over Courier links (R466, R467). -/

namespace Sys2Proof.Machine

/-- The thirty-two bytes of an alarm record (R548). -/
def alarmWords (a : Alarm) : List Word :=
  [a.pm % 2 ^ 32, a.pm / 2 ^ 32, a.sev * 2 ^ 30 + b2n a.sum * 2 ^ 29 + b2n a.fwd * 2 ^ 28 + a.modn % 1024 * 2 ^ 18 + a.island % 256 * 2 ^ 10 + a.inst % 1024,
   a.code * 2 ^ 16 + a.seq % 65536, a.a0, a.a1, a.a2, a.a3].map (BitVec.ofNat 32)

/-- A record added to a slot (R552): a summary adds its COUNT and widens the postmarks; another record leaves the first postmark at that of the record that opened
the slot, as the manual's example after R553 has it. -/
def Summary.add (x : Summary) (a : Alarm) : Summary :=
  let n := if a.sum then a.a0 else 1
  let last := if a.sum then a.a1 + a.a2 * 2 ^ 32 else a.pm
  { x with count := satAdd 0xFFFFFFFF x.count n, first := if a.sum then min x.first a.pm else x.first, last := max x.last last }

/-- A slot opened by a record. -/
def openSlot (a : Alarm) : Summary :=
  { code := a.code, modn := a.modn, island := a.island, inst := a.inst, sev := a.sev, seq := a.seq, count := if a.sum then a.a0 else 1,
    first := a.pm, last := if a.sum then a.a1 + a.a2 * 2 ^ 32 else a.pm }

/-- The record a slot becomes when it moves into the queue (R553). -/
def Summary.record (x : Summary) : Alarm :=
  { pm := x.first, sev := x.sev, sum := true, fwd := false, modn := x.modn, island := x.island, inst := x.inst, code := x.code, seq := x.seq,
    a0 := x.count, a1 := x.last % 2 ^ 32, a2 := x.last / 2 ^ 32, a3 := 0 }

/-- The record eight words hold. -/
def alarmOf (w : List Nat) : Alarm :=
  let g (i : Nat) : Nat := w.getD i 0
  { pm := g 1 * 2 ^ 32 + g 0, sev := bits (g 2) 31 30, sum := (g 2).testBit 29, fwd := (g 2).testBit 28, modn := bits (g 2) 27 18, island := bits (g 2) 17 10,
    inst := bits (g 2) 9 0, code := bits (g 3) 31 16, seq := bits (g 3) 15 0, a0 := g 4, a1 := g 5, a2 := g 6, a3 := g 7 }

/-- Bytes of a link's stream that n records take in ALARM parcels of up to eight. -/
def alarmCost (n : Nat) : Nat := 32 * n + 32 * ((n + 7) / 8)

/-- What a link's alarm bucket lacks of 2,304 bytes now, in 2⁻²¹ bytes: it fills at 1 % of the byte stream, 1/32 byte each ns on each lane. -/
def alarmLack (s : State) (k lanes : Nat) : Nat := (s.link k).alarmMissing - (s.up - (s.link k).alarmAt) * lanes

/-- Whether the bucket has room for n records. -/
def alarmRoom (s : State) (k lanes n : Nat) : Bool := decide (alarmCost n * 2 ^ 21 + alarmLack s k lanes ≤ 2304 * 2 ^ 21)

/-- The slot a record without room opens in a link's summaries, by source module and code. -/
def linkSlot (a : Alarm) : Summary := { openSlot a with island := 0xFF, inst := 0 }

/-- A record for a link waits to be sent, or is merged into a summary slot, or into the overflow summary when 256 are open (R467). -/
def alarmForLink (s : State) (k lanes : Nat) (a : Alarm) : State :=
  let l := s.link k
  let same (x : Summary) : Bool := x.modn == a.modn && x.code == a.code
  if alarmRoom s k lanes (l.alarms.length + 1) then s.withLink k fun l => { l with alarms := l.alarms ++ [a] }
  else if l.sums.any same then s.withLink k fun l => { l with sums := l.sums.map fun x => if same x then x.add a else x }
  else if l.sums.length < 256 then s.withLink k fun l => { l with sums := l.sums ++ [linkSlot a] }
  else s.withLink k fun l =>
    { l with ovr := match l.ovr with
        | some x => some (x.add a)
        | none => some { linkSlot a with code := 0x0906, modn := ownModule s, sev := alarmSev 0x0906 } }

/-- Whether a record is sent toward the collector (R466). -/
def alarmForwards (s : State) (a : Alarm) : Bool :=
  s.rb Reg.courAlarmCfg 31 && decide (a.sev ≤ s.rf Reg.courAlarmCfg 13 12) && s.rf Reg.courAlarmCfg 9 0 != ownModule s

/-- A record sent toward the collector by the route of class 0 (R466). -/
def State.forwardAlarm (s : State) (a : Alarm) : State :=
  let dst := s.rf Reg.courAlarmCfg 9 0
  if !alarmForwards s a then s
  else
    let r := routeLink s dst 0 (flowKey (ownModule s) dst 0 0 0)
    match r.2 with
    | some (k, _, _) => alarmForLink r.1 k (modeLanes s k) a
    | none => r.1

end Sys2Proof.Machine
end

