-- ==== Sys2Proof/Machine/Evt.lean ====
section
/-! DEFINITION. The event block (chapter 16, R548 to R559): the alarm queue with its summaries, the log and trace rings, the
MSI-X messages and ATTN_N. -/

namespace Sys2Proof.Machine

/-- A change of the event block. -/
def State.withEvt (s : State) (f : EvtSt → EvtSt) : State := { s with evt := f s.evt }

/-! ### MSI-X (R557, R558) -/

/-- A message of vector v of function f goes out; a masked vector sets its pending bit instead. -/
def State.msixSend (s : State) (f v : Nat) : State :=
  if s.rb (Reg.msixTable f (4 * v + 3)) 0 then s.setRf (Reg.msixPba f) v v 1
  else s.withEvt fun e => { e with msixSent := mapSet 0 e.msixSent (f * 4 + v) (mapGet 0 e.msixSent (f * 4 + v) + 1) }

/-- EVT_MSIX_MOD of a moderated vector. -/
def msixMod (v : Nat) : Nat := if v = 2 then Reg.msixMod2 else if v = 3 then Reg.msixMod3 else Reg.msixMod0

/-- The message of a moderated vector of function 0 is sent, and its pending count returns to 0. -/
def State.msixFlush (s : State) (v : Nat) : State :=
  (s.withEvt fun e => { e with msixPend := mapSet 0 e.msixPend v 0, msixSince := mapErase e.msixSince v }).msixSend 0 v

/-- An event of vector 0, 2 or 3: sent when PEND events are pending, at once with HOLDOFF 0 or an urgent alarm, and otherwise held. -/
def State.msixEvent (s : State) (v : Nat) (urgent : Bool) : State :=
  let n := mapGet 0 s.evt.msixPend v + 1
  let s1 := s.withEvt fun e =>
    { e with msixPend := mapSet 0 e.msixPend v n, msixSince := if n = 1 then mapInsert (mapErase e.msixSince v) v s.up else e.msixSince }
  if s.rf (msixMod v) 23 16 ≤ n ∨ s.rf (msixMod v) 15 0 = 0 ∨ (urgent ∧ s.rb (msixMod v) 31) then s1.msixFlush v else s1

/-- MSIX_HOLDOFF (R558): HOLDOFF µs have passed since the first pending event of a moderated vector. -/
def execMsixHoldoff (v dt : Nat) (s : State) : Host.Outcome State Fault Refusal :=
  let s := advance s dt
  let due := match s.evt.msixSince.find? (fun p => p.1 == v) with
    | some p => decide (p.2 + s.rf (msixMod v) 15 0 * 1000 * nsUnit ≤ s.up)
    | none => false
  occur (s.life.rails && [0, 2, 3].contains v && due) s (s.msixFlush v)

/-- Vectors unmasked with a message pending send it (R558). -/
def State.msixUnmask (s : State) (f v : Nat) : State :=
  if s.rb (Reg.msixPba f) v && !s.rb (Reg.msixTable f (4 * v + 3)) 0 then (s.setRf (Reg.msixPba f) v v 0).msixSend f v else s

/-! ### The log ring (R555) -/

/-- Words as bytes, each word's least significant byte first. -/
def wordBytes (l : List Word) : List Byte := l.flatMap fun w => leBytes 4 w.toNat

/-- The module address of an offset from a base in MiB of tenancy 0's region. -/
def ringAddr (s : State) (baseMiB ofs : Nat) : Nat := (s.rf (Reg.tenDramBase 0) 15 0 + baseMiB) * 2 ^ 20 + ofs

/-- A run of lost records with one more. -/
def Gap.add (g : Gap) (pm : Nat) : Gap :=
  { count := satAdd 0xFFFFFFFF g.count 1, first := if g.count = 0 then pm else g.first, last := pm }

/-- A record put at WPTR of the log ring, through the LOG port of the DRAM. -/
def State.logPut (s : State) (a : Alarm) : State :=
  let w := s.rf Reg.logWptr 20 0
  let n := s.evt.logDone + 1
  let s1 := s.withEvt fun e => { e with logQ := e.logQ ++ [(ringAddr s (s.rf Reg.logCfg 15 0) (w * 32), wordBytes (alarmWords a))], logDone := n }
  let s2 := s1.setRf Reg.logWptr 20 0 (w + 1)
  if 2097152 ≤ n then s2.setRf Reg.logWptr 31 31 1 else s2

/-- The next SEQ taken. -/
def State.bumpSeq (s : State) : State := s.withEvt fun e => { e with seq := (e.seq + 1) % 65536 }

/-- The LOG_GAP summary of the records lost. -/
def logGapRec (s : State) : Alarm :=
  let g := s.evt.logGap
  { pm := g.first, sev := alarmSev 0x0907, sum := true, fwd := false, modn := s.rf Reg.courId 9 0, island := 81, inst := 0, code := 0x0907,
    seq := s.evt.seq, a0 := g.count, a1 := g.last % 2 ^ 32, a2 := g.last / 2 ^ 32, a3 := 0 }

/-- A record reaches the log: one less urgent than SEV is not logged; one that finds EN 0, DRAM not ready or the queue of 512
full is counted; otherwise it is written, after a LOG_GAP summary when records were lost before it. -/
def State.logRecord (s : State) (a : Alarm) : State :=
  if s.rf Reg.logCfg 27 26 < a.sev then s
  else
    let need := if s.evt.logGap.count = 0 then 1 else 2
    if !s.rb Reg.logCfg 31 || !s.dramReady || decide (512 < s.evt.logQ.length + need) then
      (s.withEvt fun e => { e with logGap := e.logGap.add a.pm }).count Reg.evtLogDropCnt
    else if need = 2 then
      ((((s.logPut (logGapRec s)).bumpSeq.withEvt fun e => { e with logGap := ⟨0, 0, 0⟩ }).msixEvent 2 false).logPut a)
    else s.logPut a

/-! ### The alarm queue (R550 to R553) -/

/-- Records the queue holds. -/
def queueDepth : Nat := 1024

/-- Summary slots, the ALARM_LOST summary apart. -/
def slotCount : Nat := 256

/-- Whether a slot is the ALARM_LOST summary. -/
def isLost (x : Summary) : Bool := x.code == 0x0906 && x.island == 0xFF

/-- COALESCE (R552): the record goes into its open slot, opens one, or goes into the ALARM_LOST summary. -/
def coalesce (m : Nat) (l : List Summary) (a : Alarm) : List Summary :=
  let same (x : Summary) := !isLost x && x.code == a.code && x.modn == a.modn && x.island == a.island && x.inst == a.inst
  if l.any same then l.map fun x => if same x then x.add a else x
  else if a.code = 0x0906 ∧ a.island = 0xFF ∧ l.any isLost then l.map fun x => if isLost x then x.add a else x
  else if (l.filter (fun x => !isLost x)).length < slotCount then l ++ [openSlot a]
  else if l.any isLost then l.map fun x => if isLost x then x.add a else x
  else l ++ [{ openSlot a with code := 0x0906, modn := m, island := 0xFF, inst := 0, sev := alarmSev 0x0906 }]

/-- A record enters the queue, which is an event of vector 0 (R557). -/
def State.enqueue (s : State) (a : Alarm) : State :=
  (s.withEvt fun e => { e with queue := e.queue ++ [a] }).msixEvent 0 (a.sev == 0)

/-- SUMMARY_MOVE (R553): while the queue has a free entry the slot opened earliest moves into it. A summary of another module's
alarms is marked as received over a link. -/
def State.moveSummary (s : State) : State :=
  match s.evt.slots with
  | x :: r =>
    if s.evt.queue.length < queueDepth then
      (s.withEvt fun e => { e with slots := r }).enqueue { x.record with fwd := x.modn != s.rf Reg.courId 9 0 }
    else s
  | [] => s

/-- The severity of the least urgent record held. -/
def leastUrgent (q : List Alarm) : Nat := (q.map (·.sev)).foldl max 0

/-- The place of the newest record of a severity, and of the oldest. -/
def newestOf (q : List Alarm) (sev : Nat) : Nat := q.length - 1 - (q.reverse.findIdx (fun a => a.sev == sev))
def oldestOf (q : List Alarm) (sev : Nat) : Nat := q.findIdx (fun a => a.sev == sev)

/-- A record arriving at the queue (R551): queued, or queued in place of a less urgent record, or coalesced. -/
def State.arriveAlarm (s : State) (a : Alarm) : State :=
  let m := s.rf Reg.courId 9 0
  let q := s.evt.queue
  if q.length < queueDepth then s.enqueue a
  else if a.sev < leastUrgent q then
    let i := newestOf q (leastUrgent q)
    let old := q.getD i default
    ((s.withEvt fun e => { e with queue := dropAt e.queue i, slots := coalesce m e.slots old }).count Reg.evtCoalesceCnt).enqueue a
  else (s.withEvt fun e => { e with slots := coalesce m e.slots a }).count Reg.evtCoalesceCnt

/-- What EVT does with an arriving record (R550, R555): it takes the next SEQ, is logged, and is queued or coalesced;
a record of this module is also sent toward the collector (R466). -/
def State.takeAlarm (s : State) (a : Alarm) : State :=
  let a := { a with seq := s.evt.seq }
  let s1 := s.bumpSeq.withEvt fun e => { e with recent := (e.recent ++ [a]).drop (e.recent.length + 1 - 1536) }
  let s2 := (s1.logRecord a).arriveAlarm a
  if a.fwd then s2 else s2.forwardAlarm a

/-- ALARM_RECORD (R550): EVT takes the next record of an island's ALARM hatch, or (island 81) the next that reached it from the Hall
itself or over a Courier link. -/
def execAlarmRecord (island : Nat) (s : State) : Host.Outcome State Fault Refusal :=
  if island = 81 then
    match s.evt.inbox with
    | [] => .next s
    | a :: r => occur s.life.rails s ((s.withEvt fun e => { e with inbox := r }).takeAlarm a)
  else
    let h := hatchNo 0x14 island
    let s1 := s.setHatch h (s.hatch h).consume
    match (s.hatch h).front with
    | none => .next s
    | some e => match e.pay with
      | .alarm a => occur (s.life.rails && hatchExists h) s (s1.takeAlarm a)
      | _ => occur (s.life.rails && hatchExists h) s s1

/-- ALARM_POP (R550, R553): a read of EVT_ALQ_W0 by function 0 or a Hall engine thread removes the most urgent record that entered
first, and copies it into W0 to W7 for the reader; on an empty queue all read 0. The earliest open summary then moves in. -/
def execAlarmPop (m : Nat) (s : State) : Host.Outcome State Fault Refusal :=
  let latch (s : State) (ws : List Word) : State :=
    (List.range 8).foldl (fun t i =>
      { t with latches := mapInsert (mapErase t.latches (holdKey m (Reg.alqW i))) (holdKey m (Reg.alqW i)) (ws.getD i 0) }) s
  occur s.life.rails s
    (s.access m (Reg.alqW 0) fun s =>
      match s.evt.queue with
      | [] => (latch s []).answer m 0
      | q =>
        let i := oldestOf q ((q.map (·.sev)).foldl min 3)
        let ws := alarmWords (q.getD i default)
        ((latch (s.withEvt fun e => { e with queue := dropAt e.queue i }) ws).answer m (ws.getD 0 0)).moveSummary)

/-! ### The trace ring (R556) -/

/-- Records the trace ring holds. -/
def trcSlots (s : State) : Nat := 65536 * 2 ^ s.rf Reg.trcCfg 19 16

/-- Records written and not yet read by the host. -/
def trcLevel (s : State) : Nat :=
  (s.rf Reg.trcWptr 25 0 + trcSlots s - s.rf Reg.trcRptr 25 0 % trcSlots s) % trcSlots s

/-- Whether a trace record can be written: the slot after WPTR is not RPTR and the TRACE port's queue has a place. -/
def trcRoom (s : State) : Bool := decide (trcLevel s + 1 < trcSlots s) && decide (s.evt.trcQ.length < 512)

/-- A record placed at WPTR; reaching the watermark, or a GAP, is an event of vector 3 (R557). -/
def State.trcPut (s : State) (w : List Word) (gap : Bool) : State :=
  let p := s.rf Reg.trcWptr 25 0
  let wm := s.rf Reg.msixMod3 30 24 * 1024
  let before := trcLevel s
  let s1 := (s.withEvt fun e => { e with trcQ := e.trcQ ++ [(ringAddr s (s.rf Reg.trcCfg 15 0) (p * 16), wordBytes w)] }).setRf
    Reg.trcWptr 25 0 ((p + 1) % trcSlots s)
  if gap || (decide (before < wm) && decide (wm ≤ trcLevel s1)) then s1.msixEvent 3 false else s1

/-- The GAP record of the trace records dropped. -/
def trcGapRec (g : Gap) : List Word := [g.first, 15, g.count, g.last].map (BitVec.ofNat 32)

/-- When the ring has room again after records were dropped, a GAP record is written first (R556). -/
def State.traceGap (s : State) : State :=
  if s.rb Reg.trcCfg 31 ∧ s.evt.trcGap.count ≠ 0 ∧ trcRoom s then
    (s.trcPut (trcGapRec s.evt.trcGap) true).withEvt fun e => { e with trcGap := ⟨0, 0, 0⟩ }
  else s

/-- A trace record reaches the ring: with EN 0 there is no ring; a full ring or queue drops and counts it; records dropped
before are told of first (R556). -/
def State.trace (s : State) (w : List Word) : State :=
  if !s.rb Reg.trcCfg 31 then s
  else
    let s1 := s.traceGap
    if trcRoom s1 then s1.trcPut w false
    else (s1.withEvt fun e => { e with trcGap := e.trcGap.add (w.getD 0 0).toNat }).count Reg.evtTrcDropCnt

/-- Whether the trace ring takes the next record, after the GAP record that may go before it. -/
def trcTakes (s : State) : Bool :=
  s.rb Reg.trcCfg 31 && trcRoom s.traceGap

/-- TRACE_RECORD (R310, R556): the next logbook record reaches the trace ring; one that cannot be written is counted. -/
def execTraceRecord (s : State) : Host.Outcome State Fault Refusal :=
  match s.evt.trcIn with
  | [] => .next s
  | w :: r =>
    let s1 := s.withEvt fun e => { e with trcIn := r }
    occur s.life.rails s (if trcTakes s then s1.trace w else (s1.trace w).count Reg.wshopLogDropCnt)

/-- TRACE_MARK (R556): a write of EVT_TRC_MARK places a MARK record with the value and the writer's identity. -/
def execTraceMark (m : Nat) (val : Word) (s : State) : Host.Outcome State Fault Refusal :=
  occur s.life.rails s
    (s.access m Reg.trcMark fun s =>
      s.trace [BitVec.ofNat 32 (pmNow s), BitVec.ofNat 32 (fld val 27 0 * 16 + 14), BitVec.ofNat 32 m, 0])

/-! ### ATTN_N (R559) -/

/-- Whether the module drives ATTN_N low. -/
def attnDriven (s : State) : Bool :=
  s.life.rails && s.mode != 0 && s.mode != 5 &&
    (s.rb Reg.attnCfg 31 || s.evt.queue.any fun a => decide (a.sev ≤ s.rf Reg.attnCfg 1 0))

/-- ATTN_SAMPLE (R559): the line is sampled at a level; a mismatch that begins raises an alarm and is counted. -/
def execAttnSample (dt : Nat) (high : Bool) (s : State) : Host.Outcome State Fault Refusal :=
  let s := advance s dt
  let low := attnDriven s
  let bad := (low && high) || (!low && !s.rb Reg.attnCfg 30 && !high)
  let s1 := (s.setRf Reg.attnCfg 28 28 (b2n high)).withEvt fun e => { e with attnMismatch := bad }
  occur s.life.rails s
    (if bad && !s.evt.attnMismatch then
      (s1.count Reg.evtAttnMisCnt).raise 0x0904 81 0 (b2n (!low)) (b2n high)
    else s1)

end Sys2Proof.Machine
end

