-- ==== Sys2Proof/Machine/Dram.lean ====
section
/-! DEFINITION. The DRAM controller (chapter 11): addresses, requests and their order, ECC and poison, rank service, training, retirement and
migration. -/

namespace Sys2Proof.Machine

/-- A change of the DRAM controller's state. -/
def State.withDram (s : State) (f : DramSt → DramSt) : State := { s with dram := f s.dram }

/-! ### Addresses (R371, R387) -/

/-- Channel, sub-channel, logical rank, bank (of 16), row and line index of a line (the line number is the module address ÷ 64). -/
def lineChan (l : Nat) : Nat := Nat.xor (l % 4) (l / 16384 % 4)
def lineSub (l : Nat) : Nat := l / 4 % 2
def lineRank (l : Nat) : Nat := l / 512 % 2
def lineBank (l : Nat) : Nat := l / 1024 % 8 * 2 + l / 8192 % 2
def lineRow (l : Nat) : Nat := l / 16384
def lineIndex (l : Nat) : Nat := l / 1024 * 128 + l / 4 % 128

/-- The line with an index in a logical rank of a channel. -/
def lineAt (ch rank i : Nat) : Nat :=
  let hi := i / 128
  hi * 1024 + rank * 512 + i % 128 * 4 + Nat.xor ch (hi / 16 % 4)

/-- Lines of a logical rank. -/
def rankLines : Nat := 134217728

/-- The physical rank that holds a logical rank, and the spare of a channel (R372). -/
def mapOf (s : State) (ch rank : Nat) : Nat := s.rf (Reg.chStat ch) (2 * rank + 1) (2 * rank)
def spareOf (s : State) (ch : Nat) : Nat := 3 - mapOf s ch 0 - mapOf s ch 1
def spareUsed (s : State) (ch : Nat) : Bool := s.rb (Reg.chStat ch) 31
def migrating (s : State) (ch : Nat) : Bool := s.rb (Reg.chStat ch) 30
def retiredOf (s : State) (ch : Nat) : Nat := s.rf (Reg.chStat ch) 26 25

/-- Lines the copy engine of a channel has copied (R387). -/
def migPtr (s : State) (ch : Nat) : Nat := mapGet 0 s.dram.migCopied ch

/-- Lines that RATE lets it have copied by now: RATE lines in each microsecond from 5 µs after the retirement, or on from those due when RATE was last written (R387). -/
def migDue (s : State) (ch : Nat) : Nat :=
  let b := mapGet (0, 0) s.dram.migRate ch
  min rankLines (b.2 + (s.up - b.1) * s.rf Reg.spareCfg 7 0 / (1000 * nsUnit))

/-- RATE is written: the lines due go on from those due now (R387); `s` is the state before. -/
def migKeep (s t : State) : State :=
  let one (m : NMap (Nat × Nat)) (ch : Nat) : NMap (Nat × Nat) :=
    let b := mapGet (0, 0) m ch
    if migrating s ch ∧ b.1 < s.up then mapSet (0, 0) m ch (s.up, migDue s ch) else m
  t.withDram fun d => { d with migRate := [0, 1, 2, 3].foldl one d.migRate }

/-- The physical rank that serves a line (R372, R389). -/
def physOf (s : State) (l : Nat) : Nat :=
  let ch := lineChan l
  let p := mapOf s ch (lineRank l)
  if migrating s ch && retiredOf s ch == p && decide (lineIndex l < migPtr s ch) then spareOf s ch else p

/-- Counter number of a physical rank (R395). -/
def rankNo (ch phys : Nat) : Nat := ch * 3 + phys

/-! ### Contents (R376, R384) -/

/-- A line's bytes cleared. -/
def clearLine (d : DramSt) (l : Nat) : DramSt := { d with mem := mapClear d.mem (l * 64) 64 }

/-- A line poisoned: it holds data 0. -/
def poisonLine (d : DramSt) (l : Nat) : DramSt := { clearLine d l with poison := if d.poison.contains l then d.poison else d.poison ++ [l] }

/-- A line has been written by a requester (R144). -/
def lineWritten (l : List Nat) (n : Nat) : List Nat := if l.contains n then l else l ++ [n]

/-- A write performed: a poisoned word poisons the line; a partial write to a poisoned line is discarded, and one of all 64 bytes makes it good (R249, R376). -/
def dramApply (d : DramSt) (r : DramReq) : DramSt :=
  if r.poison then poisonLine d r.line
  else if d.poison.contains r.line ∧ r.data.length < 64 then d
  else { d with mem := memWrite d.mem (r.line * 64 + r.ofs) r.data, poison := d.poison.filter (· != r.line), direct := lineWritten d.direct r.line }

/-- The contents as a reader finds them, with the writes of a list of requests performed on them. -/
def dramAfter (d : DramSt) (l : List DramWait) : DramSt := (l.filter (·.r.wr)).foldl (fun d w => dramApply d w.r) d

/-- Whether the 64 KiB block of a line has been filled: by the whole fill, by the background fill so far, which goes up from block 0, or for a write (R384). -/
def lineFilled (s : State) (l : Nat) : Bool := s.rb Reg.dramStat 29 || decide (l / 1024 < s.dram.fillPtr) || s.dram.filled.contains (l / 1024)
def fillBlock (s : State) (l : Nat) : State :=
  if lineFilled s l then s else s.withDram fun d => { d with filled := d.filled ++ [l / 1024] }

/-! ### Retirement (R386, R390, R391) -/

/-- A rank is retired, unless the channel's spare has been used: SPARE_USED, MIGRATING, CAUSE and RETIRED, an alarm, and a cause of reduced service. -/
def retireRank (s : State) (ch phys cause : Nat) : State :=
  if spareUsed s ch then s
  else
    let s1 := ((s.setRf (Reg.chStat ch) 31 30 3).setRf (Reg.chStat ch) 29 27 cause).setRf (Reg.chStat ch) 26 25 phys
    let s2 := s1.withDram fun d => { d with migAt := mapSet 0 d.migAt ch s.up, migRate := mapSet (0, 0) d.migRate ch (s.up + 5000 * nsUnit, 0), migCopied := mapSet 0 d.migCopied ch 0 }
    let s3 := s2.setRf Reg.lifeMargin0 11 8 (s.rf Reg.lifeMargin0 11 8 - 1)
    ((s3.setRf (Reg.migPtr ch) 27 0 0).raise 0x0503 82 ch phys cause).causeUp 0

/-- A correctable error of a rank is counted; above CE_LIMIT in its 24-hour window it retires the rank (R374, R386). -/
def correctable (s : State) (ch phys : Nat) : State :=
  let r := rankNo ch phys
  let win := (s.up - s.life.entryAt) / (86400 * secUnit)
  let old := mapGet (0, 0) s.dram.ceWin r
  let n := if old.1 = win then old.2 + 1 else 1
  let lim := s.rf Reg.spareCfg 31 16
  let s1 := (s.count (Reg.ceCnt r)).withDram fun d => { d with ceWin := mapSet (0, 0) d.ceWin r (win, n) }
  if lim ≠ 0 ∧ lim < n ∧ (mapOf s ch 0 = phys ∨ mapOf s ch 1 = phys) then retireRank s1 ch phys 4 else s1

/-- DRAM_UE (R375, R377): an uncorrectable error of a rank is counted, its line is poisoned, an alarm names it and the rank is retired. -/
def uncorrectable (s : State) (l phys cause : Nat) : State :=
  let ch := lineChan l
  let r := rankNo ch phys
  let s1 := ((s.count (Reg.ueCnt r)).withDram fun d => poisonLine d l).raise 0x0501 82 ch (l * 64 % 2 ^ 32) (l * 64 / 2 ^ 32) r
  retireRank s1 ch phys cause

/-- What a read of a line from a rank meets, whoever makes it (R374, R375, R377, R382): `ecc` 0 no error, 1 corrected, 2 the second read decodes, 3 it does not, 4 a replay
after a parity or CRC error succeeds, 5 and 6 every replay fails. -/
def readError (s : State) (l phys ecc : Nat) : State :=
  if ecc = 1 ∨ ecc = 2 ∨ ecc = 4 then correctable s (lineChan l) phys
  else if ecc = 3 then uncorrectable s l phys 1
  else if ecc = 5 ∨ ecc = 6 then uncorrectable s l phys 2
  else s

/-! ### Requests (R373, R378, R379, R383) -/

/-- When a port's oldest request that waits for its data was received. -/
def oldestSince (s : State) (p : Nat) : Option Nat := ((s.dram.queue.find? fun w => !w.r.wr && w.r.port == p).map (·.since))

/-- A port's urgency level (R378). -/
def portLevel (s : State) (p : Nat) : Nat :=
  match oldestSince s p with
  | none => 0
  | some t =>
    let w := s.up - t
    let g := portTarget s p
    if g ≤ w then 3 else if g * 3 ≤ w * 4 then 2 else if g ≤ w * 2 then 1 else 0

/-- Data or an acknowledgement of a request received at a time goes to the island that asked, through DRAM_RSP: status 0 done, 1 POISON, 2 an error (R383). A host read
through BAR2 returns the dword at its place in the line, and 0xFFFF_FFFF where there is none, marked EP for POISON (R383, R392). The latency is known when the answer enters
DRAM_RSP (R378). -/
def respond (s : State) (r : DramReq) (since status : Nat) (data : List Byte) : State :=
  if r.src = 0xFF then noteLatency s r.port since
  else if r.src = 0xFE then
    let s1 := noteLatency s r.port since
    if r.wr then s1
    else if status = 1 then s1.answerPoisoned (0x0F00 + r.ref)
    else s1.answer (0x0F00 + r.ref) (if status = 0 then BitVec.ofNat 32 (leNat (slice data r.ofs 4)) else 0xFFFFFFFF)
  else
    let h := hatchNo 0x10 r.src
    let e : HEntry := { pay := .dramRsp r.ref status data, flow := rspMark r.port since, xpr := false }
    let s1 := s.offer h e
    if (s1.hatch h).held.length = (s.hatch h).held.length then s1.rspEntered h e else s1

/-- Writes a channel has queued. -/
def queuedWrites (s : State) (ch : Nat) : Nat := (s.dram.queue.filter fun w => w.r.wr && lineChan w.r.line == ch).length

/-- A request is received (R373): before READY it ends in an error at once (R383); a write is queued and acknowledged, and its block filled (R384). -/
def receive (s : State) (r : DramReq) : State :=
  if !s.dramReady then respond s r s.up 2 []
  else
    let s1 := s.withDram fun d => { d with queue := d.queue ++ [⟨r, s.up⟩] }
    if r.wr then respond (fillBlock s1 r.line) r s.up 0 [] else s1

/-- Whether a channel has room for a request: up to 64 writes are queued (R379). -/
def hasRoom (s : State) (r : DramReq) : Bool := !r.wr || !s.dramReady || decide (queuedWrites s (lineChan r.line) < 64)

/-- Bytes written from a module address, as one write for each line they touch. -/
def splitLines : Nat → Nat → List Byte → List (Nat × Nat × List Byte)
  | 0, _, _ => []
  | n + 1, a, b =>
    if b.isEmpty then []
    else
      let k := 64 - a % 64
      (a / 64, a % 64, b.take k) :: splitLines n (a + k) (b.drop k)

/-- The region of a tenancy: its first module address and its size (R477). -/
def regionBase (s : State) (t : Nat) : Nat := s.rf (Reg.tenDramBase t) 15 0 * 2 ^ 20
def regionSize (s : State) (t : Nat) : Nat := s.rf (Reg.tenDramCfg t) 31 15 * 2 ^ 20

/-- The writes of a record to a ring in tenancy 0's region, through a port that asks for no answer; what lies beyond the region is not written (R477, log entry 73). -/
def ringWrites (s : State) (port addr : Nat) (b : List Byte) : List DramReq :=
  ((splitLines (b.length + 1) addr b).filter fun p => decide (p.1 * 64 + p.2.1 + p.2.2.length ≤ regionBase s 0 + regionSize s 0)).map fun p =>
    ⟨port, 0xFF, 0, 0xFFFF, 0, true, p.1, p.2.1, p.2.2, false⟩

/-- DRAM_REQUEST (R373): the controller receives the next request of an island's DRAM_REQ hatch, or (3, 4) the next record of the LOG or TRACE port. -/
def execDramRequest (src dt : Nat) (s : State) : Host.Outcome State Fault Refusal :=
  let s := advance s dt
  if src = 3 then
    match s.evt.logQ with
    | [] => .next s
    | (a, b) :: q =>
      let l := ringWrites s 3 a b
      occur (s.life.rails && l.all (hasRoom s)) s (l.foldl receive (s.withEvt fun e => { e with logQ := q }))
  else if src = 4 then
    match s.evt.trcQ with
    | [] => .next s
    | (a, b) :: q =>
      let l := ringWrites s 4 a b
      occur (s.life.rails && l.all (hasRoom s)) s ((l.foldl receive (s.withEvt fun e => { e with trcQ := q })).traceGap)
  else
    let h := hatchNo 0x0F src
    match (s.hatch h).front with
    | some { pay := .dramReq r, flow := _, xpr := _ } =>
      occur (s.life.rails && hatchExists h && hasRoom s r) s (receive (s.setHatch h (s.hatch h).consume) r)
    | some _ => occur (s.life.rails && hatchExists h) s (s.setHatch h (s.hatch h).consume)
    | none => .next s

/-- Whether the request at a place of the queue may be performed: none before it names its line, but for the writes before a read (R373). -/
def mayPerform (q : List DramWait) (i : Nat) : Bool :=
  match q[i]? with
  | some w => (q.take i).all fun o => o.r.line != w.r.line || (!w.r.wr && o.r.wr)
  | none => false

/-- The key of the bank a line lies in, and whether its row is open. -/
def bankKey (s : State) (l : Nat) : Nat := ((lineChan l * 2 + lineSub l) * 3 + physOf s l) * 16 + lineBank l
def rowOpen (s : State) (l : Nat) : Bool := mapGet 0 s.dram.rows (bankKey s l) == lineRow l + 1

/-- The place of the request a channel performs next (R379). -/
def nextRequest (s : State) (ch : Nat) : Option Nat :=
  let q := s.dram.queue
  let all := (List.range q.length).filter fun i => (match q[i]? with | some w => lineChan w.r.line == ch | none => false) && mayPerform q i
  let wr (i : Nat) : Bool := match q[i]? with | some w => w.r.wr | none => false
  let lvl (i : Nat) : Nat := match q[i]? with | some w => portLevel s w.r.port | none => 0
  let opn (i : Nat) : Bool := match q[i]? with | some w => rowOpen s w.r.line | none => false
  let writes := all.filter wr
  let reads := all.filter fun i => !wr i
  let top (l : List Nat) : Nat := (l.map lvl).foldl max 0
  let pool := if 48 ≤ queuedWrites s ch ∧ !writes.isEmpty then writes
    else if reads.isEmpty then writes
    else if writes.isEmpty ∨ top writes ≤ top reads then reads else writes
  let best := pool.filter fun i => lvl i == top pool
  if top pool < 3 then (match best.find? opn with | some i => some i | none => best.head?) else best.head?

/-! ### Rank service (R381, R382) -/

/-- Whether a physical rank is active; whether it is the unused spare. -/
def rankActive (s : State) (ch phys : Nat) : Bool :=
  mapOf s ch 0 == phys || mapOf s ch 1 == phys || (migrating s ch && phys == spareOf s ch)
def rankServed (s : State) (ch phys : Nat) : Bool := rankActive s ch phys || (!spareUsed s ch && phys == spareOf s ch)

/-- When a service of a rank is due: `kind` 0 refresh, 1 temperature, 2 calibration, 3 retune, by an interval since the last. -/
def serviceDue (s : State) (kind r interval : Nat) : Bool := decide (max (mapGet 0 s.dram.served (kind * 16 + r)) s.dram.readyAt + interval ≤ s.up)
def serviceDone (s : State) (kind r : Nat) : State := s.withDram fun d => { d with served := mapSet 0 d.served (kind * 16 + r) s.up }

/-- The refresh interval of a rank, by the temperature it reported last. -/
def refreshInterval (s : State) (r : Nat) : Nat :=
  let t := mapGet 0 s.dram.temps r
  if 95 < t then 975 * nsUnit else if 85 < t then 1950 * nsUnit else 3900 * nsUnit

/-- Whether a port of a channel is at level 3. -/
def channelUrgent (s : State) (ch : Nat) : Bool :=
  s.dram.queue.any fun w => lineChan w.r.line == ch && portLevel s w.r.port == 3

/-- The rows a refresh closes: those of one bank in each bank group (MODE 0), or of the whole rank. -/
def closeRows (s : State) (ch phys bank : Nat) : State :=
  let all := s.rb Reg.refCfg 31
  s.withDram fun d =>
    { d with rows := d.rows.filter fun p => !(p.1 / 96 == ch && p.1 / 16 % 3 == phys && (all || p.1 % 2 == bank % 2)) }

/-! ### Performing commands (R373 to R380, R384, R387 to R390) -/

/-- The read of a partial write (R374 to R376, R392): a poisoned line is counted and stays poisoned, an error is handled as in any read. -/
def mergeRead (s : State) (r : DramReq) (ecc : Nat) : State :=
  if r.poison ∨ 64 ≤ r.data.length then s
  else if s.dram.poison.contains r.line then s.count Reg.poisonRdCnt
  else if ecc ≤ 3 then readError s r.line (physOf s r.line) ecc else s

/-- A write performed, or lost when its rank was retired before it (R390): `ecc` as for DRAM_COMMAND. -/
def performWrite (s : State) (w : DramWait) (ecc : Nat) : State :=
  let l := w.r.line
  let ch := lineChan l
  let phys := physOf s l
  let cause := s.rf (Reg.chStat ch) 29 27
  if ecc = 5 ∨ ecc = 6 then
    if !spareUsed s ch then
      retireRank (((s.count (Reg.ueCnt (rankNo ch phys))).withDram fun d => { d with queue := w :: d.queue }).raise 0x0501 82 ch (l * 64 % 2 ^ 32) (l * 64 / 2 ^ 32)
        (rankNo ch phys)) ch phys (ecc - 3)
    else if migrating s ch && (cause == 2 || cause == 3) && phys == retiredOf s ch && decide (w.since ≤ mapGet 0 s.dram.migAt ch) then
      let s1 := (s.withDram fun d => poisonLine d l).count Reg.dramLateErrCnt
      if w.r.thread = 0xFFFF then s1 else s1.withDram fun d => { d with late := d.late ++ [(w.r.thread, w.r.tag, l * 64)] }
    else uncorrectable s l phys (ecc - 3)
  else
    let s1 := (mergeRead s w.r ecc).withDram fun d => dramApply d w.r
    if ecc = 4 then correctable s1 ch phys else s1

/-- The writes to a line that stand before a read in the queue, and whether the read reaches the devices: no write of all 64 bytes is among them, and the block has
been filled (R373, R384). -/
def writesBefore (before : List DramWait) (l : Nat) : List DramWait := before.filter fun o => o.r.line == l && o.r.wr
def reachesDevice (s : State) (before : List DramWait) (l : Nat) : Bool := !((writesBefore before l).any fun o => o.r.data.length == 64) && lineFilled s l

/-- A read performed (R374 to R377, R392). -/
def performRead (s : State) (w : DramWait) (before : List DramWait) (ecc : Nat) : State :=
  let l := w.r.line
  let s1 := if reachesDevice s before l then readError s l (physOf s l) ecc else s
  let d := dramAfter s1.dram (writesBefore before l)
  if d.poison.contains l then respond (s1.count Reg.poisonRdCnt) w.r w.since 1 []
  else respond s1 w.r w.since 0 (memRead d.mem (l * 64) 64)

/-- The logical rank being copied (R387). -/
def migRank (s : State) (ch : Nat) : Nat := if mapOf s ch 0 = retiredOf s ch then 0 else 1

/-- The pointer of a copy goes on by n lines. -/
def copied (s : State) (ch n : Nat) : State := s.withDram fun d => { d with migCopied := mapSet 0 d.migCopied ch (migPtr s ch + n) }

/-- The i-th line of the rank copied as the pointer passes it (R387, R391): a line that cannot be recovered, or that the spare does not take (`ecc` 6), is poisoned there; a
line already poisoned, or never filled, is copied as it is. -/
def copyLine (s : State) (ch i ecc : Nat) : State :=
  let l := lineAt ch (migRank s ch) i
  if s.dram.poison.contains l || !lineFilled s l then s
  else if ecc = 6 then uncorrectable s l (spareOf s ch) 3 else readError s l (retiredOf s ch) ecc

/-- A run of copy commands on lines that are due: n of them without an error, and then one that meets `ecc`. -/
def copyRun (s : State) (ch n ecc : Nat) : State :=
  let s1 := copied s ch (min n (migDue s ch - migPtr s ch))
  if migPtr s1 ch < migDue s ch then copied (copyLine s1 ch (migPtr s1 ch) ecc) ch 1 else s1

/-- The lines left are copied; `bad` names those among them, by their index, that cannot be recovered. -/
def copyRest (s : State) (ch : Nat) (bad : List Nat) : State :=
  let p := migPtr s ch
  copied ((bad.filter fun i => decide (p ≤ i) && decide (i < rankLines)).foldl (fun t i => copyLine t ch i 3) s) ch (rankLines - p)

/-- When the line that is copied next became due. -/
def copySince (s : State) (ch : Nat) : Nat :=
  let b := mapGet (0, 0) s.dram.migRate ch
  b.1 + (migPtr s ch + 1 - b.2) * (1000 * nsUnit) / max 1 (s.rf Reg.spareCfg 7 0)

/-- Whether a channel's next command is the copy engine's: a line is due, and the request that would go next is below level 2, or of level 2 and younger; 48 writes or more,
performed at once, and level 3 go before (R379, R388). DESIGN CHOICE (log entry 74): at level 2 the older goes first. -/
def copyNext (s : State) (ch : Nat) : Bool :=
  migrating s ch && decide (migPtr s ch < migDue s ch) &&
    match (nextRequest s ch).bind fun i => s.dram.queue[i]? with
    | none => true
    | some w =>
      let v := portLevel s w.r.port
      !(w.r.wr && decide (48 ≤ queuedWrites s ch)) && (decide (v < 2) || (v == 2 && decide (copySince s ch < w.since)))

/-- The refreshes and calibrations of a channel that can no longer wait are performed before anything else (R379, R382): a refresh with no port at level 3 or with 4
postponed, and a calibration latch. -/
def serveForced (s : State) (ch : Nat) : State :=
  [0, 1, 2].foldl (fun t p =>
    let r := rankNo ch p
    let n := mapGet 0 t.dram.postponed r
    let due := serviceDue t 0 r (refreshInterval t r)
    let t1 :=
      if !rankActive t ch p || (channelUrgent t ch && !(due && decide (4 ≤ n))) then t
      else if due then closeRows (serviceDone t 0 r) ch p (t.up / refreshInterval t r)
      else if 0 < n then closeRows (t.withDram fun d => { d with postponed := mapSet 0 d.postponed r 0 }) ch p (t.up / refreshInterval t r)
      else t
    if rankServed t1 ch p && serviceDue t1 2 r (128000000 * nsUnit) then serviceDone t1 2 r else t1) s

/-- The blocks of 64 KiB in module DRAM. -/
def dramBlocks : Nat := 1048576

/-- DRAM_COMMAND (R373 to R380, R384, R387 to R389): a channel performs what comes next: what can no longer wait, and then a request, a run of lines of the copy
engine, or with nothing waiting a run of blocks of the background fill. `ecc` modulo 8 says what the devices answer: 0 no error, 1 corrected, 2 the second read decodes,
3 it does not, 4 a replay after a parity or CRC error succeeds, 5 every replay of a command fails, 6 of a write's CRC; `ecc` / 8 is how many lines or blocks of a run come
before, without an error. -/
def execDramCommand (ch dt ecc : Nat) (s : State) : Host.Outcome State Fault Refusal :=
  let s := advance s dt
  let s1 := serveForced s ch
  occur (s.life.rails && s.dramReady && decide (ch < 4)) s
    (if copyNext s1 ch then copyRun s1 ch (ecc / 8) (ecc % 8)
     else match nextRequest s1 ch with
      | some i => (match s1.dram.queue[i]? with
        | some w =>
          let before := s1.dram.queue.take i
          let s2 := s1.withDram fun d => { d with queue := dropAt d.queue i }
          let s3 := if w.r.wr || reachesDevice s1 before w.r.line then s2.withDram fun d => { d with rows := mapSet 0 d.rows (bankKey s w.r.line) (lineRow w.r.line + 1) } else s2
          if w.r.wr then performWrite s3 w (ecc % 8) else performRead s3 w before (ecc % 8)
        | none => s1)
      | none => if s1.rb Reg.dramStat 29 then s1 else s1.withDram fun d => { d with fillPtr := min dramBlocks (d.fillPtr + ecc / 8 + 1) })

/-- REFRESH (R381, R382): a rank's interval has passed and it is refreshed, or, while a port of its channel is at level 3, postponed, up to four times; or, with
none at level 3, a postponed refresh is issued. -/
def execRefresh (ch phys dt bank : Nat) (postpone : Bool) (s : State) : Host.Outcome State Fault Refusal :=
  let s := advance s dt
  let r := rankNo ch phys
  let n := mapGet 0 s.dram.postponed r
  let due := serviceDue s 0 r (refreshInterval s r)
  let hot := channelUrgent s ch
  let setN (t : State) (k : Nat) : State := t.withDram fun d => { d with postponed := mapSet 0 d.postponed r k }
  occur (s.life.rails && s.dramReady && decide (ch < 4) && decide (phys < 3) && rankActive s ch phys && (due || (decide (0 < n) && !hot))) s
    (if due then (if hot && postpone && decide (n < 4) then setN (serviceDone s 0 r) (n + 1) else closeRows (serviceDone s 0 r) ch phys bank)
     else closeRows (setN s (n - 1)) ch phys bank)

/-- TEMP_READ (R381): the rank's temperature is read; above 95 °C an alarm is raised once per excursion. -/
def execTempRead (ch phys dt temp : Nat) (s : State) : Host.Outcome State Fault Refusal :=
  let s := advance s dt
  let r := rankNo ch phys
  let s1 := (serviceDone s 1 r).withDram fun d =>
    { d with temps := mapSet 0 d.temps r temp, hot := if 95 < temp then (if d.hot.contains r then d.hot else d.hot ++ [r]) else d.hot.filter (· != r) }
  occur (s.life.rails && s.dramReady && decide (ch < 4) && decide (phys < 3) && rankServed s ch phys && serviceDue s 1 r (1000000 * nsUnit)) s
    (if 95 < temp ∧ s.dram.hot.contains r = false then s1.raise 0x0502 82 ch r else s1)

/-- ZQ_CALIBRATION (R381): the calibration latch of a rank, 128 ms after the last. -/
def execZqCalibration (ch phys dt : Nat) (s : State) : Host.Outcome State Fault Refusal :=
  let s := advance s dt
  let r := rankNo ch phys
  occur (s.life.rails && s.dramReady && decide (ch < 4) && decide (phys < 3) && rankServed s ch phys && serviceDue s 2 r (128000000 * nsUnit)) s (serviceDone s 2 r)

/-- READ_TIMING_RETUNE (R381): the read timing of a rank, 100 ms after the last. -/
def execReadTimingRetune (ch phys dt : Nat) (s : State) : Host.Outcome State Fault Refusal :=
  let s := advance s dt
  let r := rankNo ch phys
  occur (s.life.rails && s.dramReady && decide (ch < 4) && decide (phys < 3) && rankServed s ch phys && serviceDue s 3 r (100000000 * nsUnit)) s (serviceDone s 3 r)

/-- Between two scrub reads of a logical rank, so that every line is read once per SCRUB_H hours (R381). -/
def scrubStep (s : State) : Nat := s.rf Reg.refCfg 7 0 * 3600 * secUnit / rankLines

/-- PATROL_SCRUB (R381, R382): the next line of a logical rank is read when its turn in the period has come, exactly as a requester's read is, and written back when it is
corrected. -/
def execPatrolScrub (ch rank dt ecc : Nat) (s : State) : Host.Outcome State Fault Refusal :=
  let s := advance s dt
  let k := ch * 2 + rank
  let i := mapGet 0 s.dram.patrol k
  let l := lineAt ch rank i
  let at_ := max (mapGet 0 s.dram.patrolAt k) s.dram.readyAt + scrubStep s
  let s1 := s.withDram fun d =>
    { d with patrol := mapSet 0 d.patrol k ((i + 1) % rankLines), patrolAt := mapSet 0 d.patrolAt k (max at_ (s.up - scrubStep s)) }
  occur (s.life.rails && s.dramReady && decide (ch < 4) && decide (rank < 2) && s.rf Reg.refCfg 7 0 != 0 && decide (at_ ≤ s.up)) s
    (if lineFilled s l then readError s1 l (physOf s l) ecc else s1)

/-! ### Start (R383 to R385) -/

/-- A channel after training, with the physical ranks that failed it (R385). -/
def trainChannel (bad : List Nat) (s : State) (ch : Nat) : State :=
  let f (p : Nat) : Bool := bad.contains (rankNo ch p)
  if f 0 || f 1 || f 2 then
    let w := if f 0 then 0 else if f 1 then 1 else 2
    let s1 := (((s.setRf (Reg.chStat ch) 31 31 1).setRf (Reg.chStat ch) 29 27 6).setRf (Reg.chStat ch) 26 25 w)
    let s2 := if f 2 then s1 else if f 0 then s1.setRf (Reg.chStat ch) 1 0 2 else s1.setRf (Reg.chStat ch) 3 2 2
    (s2.setRf Reg.lifeMargin0 11 8 (s.rf Reg.lifeMargin0 11 8 - 1)).causeUp 0
  else s

/-- TRAINING_DONE (R383, R385): training ends with the physical ranks that failed; READY is set unless a channel has fewer than two ranks. -/
def execTrainingDone (dt : Nat) (bad : List Nat) (s : State) : Host.Outcome State Fault Refusal :=
  let s := advance s dt
  let s1 := [0, 1, 2, 3].foldl (trainChannel bad) (s.withDram fun d => { d with trained := true, readyAt := s.up })
  let down := [0, 1, 2, 3].any fun ch => decide (2 ≤ ([0, 1, 2].filter fun p => bad.contains (rankNo ch p)).length)
  occur (s.life.rails && !s.dram.trained) s (if down then s1.causeUp 6 else s1.setRf Reg.dramStat 30 30 1)

/-- FILL_DONE (R384): the background fill has covered the remaining blocks. -/
def execFillDone (dt : Nat) (s : State) : Host.Outcome State Fault Refusal :=
  let s := advance s dt
  occur (s.life.rails && s.dramReady && !s.rb Reg.dramStat 29) s ((s.setRf Reg.dramStat 29 29 1).withDram fun d => { d with filled := [], fillPtr := 0 })

/-! ### Retirement by the host, and the end of a migration -/

/-- Whether a write of DRAM_RANK_CTL is refused (R391). -/
def rankCtlRefused (val : Word) (s : State) : Bool := spareUsed s (fld val 3 2) || !s.dramReady || decide (2 ≤ fld val 1 0)

/-- DRAM_RANK_RETIRE (R386, R391): RETIRE retires logical rank RANK of channel CH with cause HOST. -/
def execDramRankRetire (m : Nat) (val : Word) (s : State) : Host.Outcome State Fault Refusal :=
  occur (s.life.rails && bitOf val 31) s
    (s.command m Reg.rankCtl val (rankCtlRefused val) fun s => retireRank s (fld val 3 2) (mapOf s (fld val 3 2) (fld val 1 0)) 5)

/-- MIGRATION_DONE (R387): every line is due, the lines left are copied, of which `bad` names those that cannot be recovered, and with the last the logical rank maps to the
spare, and the retired rank is powered down. -/
def execMigrationDone (ch dt : Nat) (bad : List Nat) (s : State) : Host.Outcome State Fault Refusal :=
  let s := advance s dt
  let rank := migRank s ch
  let s0 := if migPtr s ch = rankLines then s else copyRest s ch bad
  let s1 := ((s0.setRf (Reg.chStat ch) (2 * rank + 1) (2 * rank) (spareOf s ch)).setRf (Reg.chStat ch) 30 30 0).setRf (Reg.migPtr ch) 27 0 rankLines
  occur (s.life.rails && decide (ch < 4) && migrating s ch && decide (rankLines ≤ max (migPtr s ch) (migDue s ch))) s (s1.raise 0x0504 82 ch)

end Sys2Proof.Machine
end

