-- ==== Sys2Proof/Machine/Sorter.lean ====
section
/-! DEFINITION. The Sorter: the parse graph and its walk (R115 to R119, R621), the class rules (R117) and admission to the
ingress envelope store (R113). -/

namespace Sys2Proof.Machine

/-! ### The parse graph -/

/-- The two words of a parse state: selector offset and width, mark, class action, flag action and protocol index, and how the
header's length is found (the parse state entry). -/
def parseWords (selOff selW mark act flag pcls base lofs lmask scale : Nat) : Nat × Nat :=
  (selOff * 2 ^ 24 + selW * 2 ^ 22 + mark * 2 ^ 19 + act * 2 ^ 16 + flag * 2 ^ 14 + pcls * 2 ^ 11 + 0xFF,
   base * 2 ^ 24 + lofs * 2 ^ 16 + lmask * 2 ^ 8 + scale * 2 ^ 6)

/-- The default graph's states (R621); every other state is empty, with NEXT_DEF 0xFF. -/
def defaultParse : Nat → Nat × Nat
  | 0x00 => parseWords 12 2 0 0 0 0 14 0 0 0
  | 0x01 => parseWords 2 2 4 1 0 0 4 0 0 0
  | 0x02 => parseWords 2 2 4 1 0 0 4 0 0 0
  | 0x03 => parseWords 4 2 0 0 0 0 6 0 0 0
  | 0x04 => parseWords 0 0 0 0 0 0 6 0 0 0
  | 0x08 => parseWords 0 0 1 0 0 0 28 0 0 0
  | 0x10 => parseWords 9 1 1 2 2 0 0 0 0x0F 2
  | 0x11 => parseWords 6 1 1 4 3 0 40 0 0 0
  | 0x12 => parseWords 0 1 0 0 0 0 8 1 0xFF 3
  | 0x13 => parseWords 0 1 2 0 0 0 4 0 0 0
  | 0x14 => parseWords 0 0 0 0 0 0 4 0 0 0
  | 0x15 => parseWords 2 2 2 0 0 0 8 0 0 0
  | 0x18 => parseWords 0 0 3 3 1 0 34 0 0 0
  | 0x19 => parseWords 0 0 3 3 1 0 34 0 0 0
  | 0x1C => parseWords 0 0 3 3 0 1 8 0 0 0
  | 0x1D => parseWords 0 0 3 3 0 2 8 0 0 0
  | 0x1E => parseWords 0 0 3 3 0 3 4 0 0 0
  | _ => (0xFF, 0)

/-- The EtherTypes below the tags, and the states they enter (R621). -/
def etherNext : List (Nat × Nat) :=
  [(0x892F, 0x03), (0x88E5, 0x04), (0x0806, 0x08), (0x0800, 0x10), (0x86DD, 0x11), (0x88F7, 0x18), (0x88B8, 0x1C), (0x88BA, 0x1D)]

/-- The IPv6 next headers and the states they enter (R621). -/
def v6Next : List (Nat × Nat) := [(0, 0x12), (43, 0x12), (60, 0x12), (58, 0x13), (17, 0x15)]

/-- The default transitions in entry order: from state, selector value, next state (R621). -/
def defaultEdges : List (Nat × Nat × Nat) :=
  ([(0x8100, 0x01), (0x88A8, 0x02)] ++ etherNext).map (fun p => (0x00, p)) ++
  ([(0x8100, 0x01)] ++ etherNext).map (fun p => (0x02, p)) ++
  etherNext.map (fun p => (0x01, p)) ++
  (etherNext.drop 1).map (fun p => (0x03, p)) ++
  [(0x10, 17, 0x15)] ++
  v6Next.map (fun p => (0x11, p)) ++
  v6Next.map (fun p => (0x12, p)) ++
  [133, 134, 135, 136, 137].map (fun t => (0x13, t, 0x14)) ++
  [(0x15, 319, 0x19), (0x15, 320, 0x19), (0x15, 102, 0x1E)]

/-- Transition entry i of the default graph: entries 0 to 52 as listed, the rest invalid (R621). -/
def defaultTrans (i : Nat) : Nat × Nat :=
  match defaultEdges[i]? with
  | some (st, v, nx) =>
    (2 ^ 31 + st * 2 ^ 16 + nx, v * 2 ^ 16 + (if st = 0x10 ∨ st = 0x11 ∨ st = 0x12 ∨ st = 0x13 then 0x00FF else 0xFFFF))
  | none => (0, 0)

/-- A parse state of a slice. -/
def parseState (x : SliceSt) (n : Nat) : Nat × Nat := mapGet (defaultParse n) x.parse n

/-- A transition entry of a slice. -/
def transEntry (x : SliceSt) (i : Nat) : Nat × Nat := mapGet (defaultTrans i) x.trans i

/-- The next state: that of the first valid entry, in index order, of the current state whose VALUE equals the selector ANDed with
MASK, and otherwise NEXT_DEF (R115). -/
def nextState (x : SliceSt) (st sel dflt : Nat) : Nat :=
  match (List.range 1024).find? (fun i =>
      let e := transEntry x i
      bits e.1 31 31 == 1 && bits e.1 23 16 == st && e.2 / 2 ^ 16 == Nat.land sel (e.2 % 2 ^ 16)) with
  | some i => (transEntry x i).1 % 256
  | none => dflt

/-- What a walk finds. -/
structure ParseRes where
  pstate : Nat := 0
  l3 : Option Nat := none
  l4 : Option Nat := none
  l5 : Option Nat := none
  vtag : Option Nat := none
  cls : Option Nat := none
  ptp : Bool := false
  ect : Bool := false
  err : Bool := false
  v4 : Option Nat := none
  v6 : Option Nat := none
  ethType : Nat := 0
  proto : Nat := 0
deriving DecidableEq, Repr, Inhabited

/-- Byte i of a head. -/
def hb (head : List Byte) (i : Nat) : Nat := (head.getD i 0).toNat

/-- The Sorter registers a walk reads: the class map, MAP_SRC and SORT_PROTO_CLASS. -/
structure ClassCfg where
  map : Nat
  mapSrc : Bool
  proto : Nat

/-- The class action of a header at pos: only where the header begins, and the field it reads lies, within bytes 0 to 63 (R117). -/
def classAction (c : ClassCfg) (head : List Byte) (pos act pcls : Nat) (old : Option Nat) : Option Nat :=
  let m (i : Nat) : Option Nat := some (bits c.map (3 * i + 2) (3 * i))
  if 64 ≤ pos then old
  else if act = 1 then m (hb head pos / 32)
  else if act = 2 then (if c.mapSrc ∧ pos + 1 < 64 then m (hb head (pos + 1) / 32) else old)
  else if act = 3 then some (bits c.proto (3 * pcls + 2) (3 * pcls))
  else if act = 4 then (if c.mapSrc then m (hb head pos / 2 % 8) else old)
  else old

/-- The walk of the parse graph over the first hv bytes of a head (R115 to R118): from state st at byte pos, with the states left
of the 32, the known LENGTH if any, and what has been found so far. The walk is counted when the header itself extends beyond LENGTH (a length byte beyond HEAD_VALID adds nothing
to it); a selector or length field beyond HEAD_VALID ends it without a count. -/
def parseWalk (x : SliceSt) (c : ClassCfg) (head : List Byte) (hv : Nat) (len : Option Nat) :
    Nat → Nat → Nat → ParseRes → ParseRes
  | 0, st, _, r => if st = 0xFF then r else { r with err := true }
  | fuel + 1, st, pos, r =>
    if st = 0xFF then r
    else
      let w := parseState x st
      let selOff := bits w.1 31 24
      let selW := bits w.1 23 22
      let mark := bits w.1 21 19
      let act := bits w.1 18 16
      let flag := bits w.1 15 14
      let pcls := bits w.1 13 11
      let scale := (([0, 1, 4, 8] : List Nat).getD (bits w.2 7 6) 0)
      let lmask := bits w.2 15 8
      let uses := decide (scale ≠ 0) && decide (lmask ≠ 0)
      let lofs := bits w.2 23 16
      let hlen := bits w.2 31 24 + (if uses ∧ pos + lofs < hv then Nat.land (hb head (pos + lofs)) lmask * scale else 0)
      let ext := max (pos + hlen) (max (if selW = 0 then 0 else pos + selOff + selW) (if uses then pos + lofs + 1 else 0))
      if (match len with | some l => decide (l < pos + hlen) | none => false) then { r with err := true }
      else if hv < ext then { r with cls := classAction c head pos act pcls r.cls }
      else
        let sel := if selW = 1 then hb head (pos + selOff) else hb head (pos + selOff) * 256 + hb head (pos + selOff + 1)
        let r1 := { r with
          pstate := st
          l3 := if mark = 1 ∧ r.l3.isNone then some pos else r.l3
          l4 := if mark = 2 ∧ r.l4.isNone then some pos else r.l4
          l5 := if mark = 3 ∧ r.l5.isNone then some pos else r.l5
          vtag := if mark = 4 ∧ r.vtag.isNone then some pos else r.vtag
          cls := classAction c head pos act pcls r.cls
          ptp := r.ptp || (flag == 1 && decide (hb head pos % 16 ≤ 3))
          ect := r.ect || (flag == 2 && hb head (pos + 1) % 4 != 0) || (flag == 3 && hb head (pos + 1) / 16 % 4 != 0)
          v4 := if st = 0x10 ∧ r.v4.isNone then some pos else r.v4
          v6 := if st = 0x11 ∧ r.v6.isNone then some pos else r.v6
          ethType := if selW = 2 ∧ r.l3.isNone ∧ mark ≠ 1 ∧ mark ≠ 2 then sel else r.ethType
          proto := if selW = 1 ∧ (st = 0x10 ∨ st = 0x11 ∨ st = 0x12) then sel else r.proto }
        parseWalk x c head hv len fuel (if selW = 0 then w.1 % 256 else nextState x st sel (w.1 % 256)) (pos + hlen) r1

/-- The Sorter configuration of a port: its class map, MAP_SRC and the slice's protocol classes. -/
def classCfg (s : State) (port : Nat) : ClassCfg :=
  { map := s.rf (Reg.sortPortClass (port / 32) (port % 32)) 23 0, mapSrc := s.rb (Reg.sortPortCfg (port / 32) (port % 32)) 25
    proto := s.rf (Reg.sortProtoClass (port / 32)) 23 0 }

/-- A walk over a frame of a port. -/
def walkFrame (s : State) (port : Nat) (head : List Byte) (hv : Nat) (len : Option Nat) : ParseRes :=
  parseWalk (s.slice (port / 32)) (classCfg s port) head hv len 32 0 0 {}

/-- The class of a frame, final when its first flit has been parsed (R117). -/
def frameClass (s : State) (port : Nat) (first : List Byte) (whole : Bool) : Nat :=
  ((walkFrame s port first first.length (if whole then some first.length else none)).cls).getD
    (s.rf (Reg.sortPortCfg (port / 32) (port % 32)) 21 19)

/-! ### Admission (R51, R113) -/

/-- Slots of a store held by a class. -/
def slotsOf (x : SliceSt) (cls : Nat) : Nat := (x.store.filter fun i => i.cls == cls).length

/-- Whether a frame of a class is admitted to the ingress envelope store (R113). -/
def storeAdmits (s : State) (sl cls : Nat) : Bool :=
  let x := s.slice sl
  decide (slotsOf x cls < s.rf (Reg.sortAdmitLim sl cls) 9 0) &&
    decide (x.store.length < (if cls = 7 then 512 else 512 - s.rf (Reg.sortAdmitCfg sl) 24 16))

/-- Tenancy of a port in the active map, and in the copy an old frame sees (R31, R118). -/
def portTenancy (s : State) (port : Nat) (old : Bool) : Nat :=
  bits (s.reg (if old then Reg.tenPortMap (port / 8) else Reg.tenPortAct (port / 8))).toNat (4 * (port % 8) + 3) (4 * (port % 8))

/-- Whether a tenancy is being reset: TEN_STATUS.STATE is RESETTING (R480). -/
def tenResetting (s : State) (t : Nat) : Bool := s.rf (Reg.tenStatus t) 31 30 == 1

/-- Whether a tenancy is ACTIVE; the ports of any other refuse frames (R480 to R482). -/
def tenActive (s : State) (t : Nat) : Bool := s.rf (Reg.tenStatus t) 31 30 == 0

end Sys2Proof.Machine
end

