-- ==== Sys2Proof/Machine/Tables.lean ====
section
/-! DEFINITION. The Directory's tables as data: cuckoo buckets (R132), longest prefixes (R136 to R138), VLAN and ternary entries
(R124), and the choice between old and new copies (R31, R32). -/

namespace Sys2Proof.Machine

/-! ### Cuckoo tables -/

/-- Buckets of a table: STATIC 4 Ki, LEARN 64 Ki, EXT 2^n (R124). -/
def bucketCount (code extBits : Nat) : Nat := if code = 1 then 4096 else if code = 2 then 65536 else 2 ^ extBits

/-- The two buckets of a key under a seed word: SEED1 seeds the first hash, SEED2 the second (R132). -/
def bucketsOf (code extBits : Nat) (seed : Word) (key : Nat) : Nat × Nat :=
  (Config.dirHash code 0 (fld seed 15 0) key % bucketCount code extBits, Config.dirHash code 1 (fld seed 31 16) key % bucketCount code extBits)

/-- The bucket an entry does not stand in. -/
def otherBucket (code extBits : Nat) (seed : Word) (key b : Nat) : Nat :=
  let p := bucketsOf code extBits seed key
  if p.1 = b then p.2 else p.1

/-- The entries of a bucket. -/
def bucketAt (t : NMap (List DirEntry)) (b : Nat) : List DirEntry := mapGet [] t b

/-- The entry of a key, wherever it stands. -/
def hashFind (t : NMap (List DirEntry)) (code extBits : Nat) (seed : Word) (key : Nat) : Option DirEntry :=
  let p := bucketsOf code extBits seed key
  match (bucketAt t p.1).find? (fun e => e.key == key) with
  | some e => some e
  | none => (bucketAt t p.2).find? (fun e => e.key == key)

/-- The slot of a key: bucket × 4 + place. -/
def hashSlot (t : NMap (List DirEntry)) (code extBits : Nat) (seed : Word) (key : Nat) : Nat :=
  let p := bucketsOf code extBits seed key
  match (bucketAt t p.1).findIdx? (fun e => e.key == key) with
  | some i => p.1 * 4 + i
  | none => p.2 * 4 + ((bucketAt t p.2).findIdx? (fun e => e.key == key)).getD 0

/-- A table with the entry of a key changed where it stands. -/
def hashUpdate (t : NMap (List DirEntry)) (code extBits : Nat) (seed : Word) (e : DirEntry) : NMap (List DirEntry) :=
  let p := bucketsOf code extBits seed e.key
  let f (b : Nat) (t : NMap (List DirEntry)) := mapSet [] t b ((bucketAt t b).map fun x => if x.key = e.key then e else x)
  f p.2 (f p.1 t)

/-- A table without a key. -/
def hashDelete (t : NMap (List DirEntry)) (code extBits : Nat) (seed : Word) (key : Nat) : NMap (List DirEntry) :=
  let p := bucketsOf code extBits seed key
  let f (b : Nat) (t : NMap (List DirEntry)) := mapSet [] t b ((bucketAt t b).filter fun x => x.key != key)
  f p.2 (f p.1 t)

/-- A chain of at most d moves that frees a slot of bucket b: each move is (from, entry, to), the first out of b (R132). Of several
chains the one with the fewest moves and lowest places is taken (log entry 9). -/
def chainOf (t : NMap (List DirEntry)) (code extBits : Nat) (seed : Word) : Nat → Nat → Option (List (Nat × DirEntry × Nat))
  | 0, _ => none
  | d + 1, b =>
    let es := bucketAt t b
    match es.find? (fun e => decide ((bucketAt t (otherBucket code extBits seed e.key b)).length < 4)) with
    | some e => some [(b, e, otherBucket code extBits seed e.key b)]
    | none => es.findSome? fun e =>
        let o := otherBucket code extBits seed e.key b
        (chainOf t code extBits seed d o).map fun c => (b, e, o) :: c

/-- The shortest chain of at most n moves out of either of two buckets. -/
def findChain (t : NMap (List DirEntry)) (code extBits : Nat) (seed : Word) (n b1 b2 : Nat) : Option (List (Nat × DirEntry × Nat)) :=
  (List.range n).findSome? fun i =>
    match chainOf t code extBits seed (i + 1) b1 with
    | some c => some c
    | none => chainOf t code extBits seed (i + 1) b2

/-- The moves of a chain carried out from the free slot back (R132). -/
def applyChain (t : NMap (List DirEntry)) : List (Nat × DirEntry × Nat) → NMap (List DirEntry)
  | [] => t
  | (a, e, b) :: r =>
    let t := applyChain t r
    let t := mapSet [] t b (bucketAt t b ++ [e])
    mapSet [] t a ((bucketAt t a).filter fun x => x.key != e.key)

/-- An insertion of a key not present: a free slot of either bucket, else the shortest chain of moves, else it fails (R132). -/
def hashInsert (t : NMap (List DirEntry)) (code extBits : Nat) (seed : Word) (kicks : Nat) (e : DirEntry) : Option (NMap (List DirEntry)) :=
  let p := bucketsOf code extBits seed e.key
  if (bucketAt t p.1).length < 4 then some (mapSet [] t p.1 (bucketAt t p.1 ++ [e]))
  else if (bucketAt t p.2).length < 4 then some (mapSet [] t p.2 (bucketAt t p.2 ++ [e]))
  else match findChain t code extBits seed kicks p.1 p.2 with
    | some c =>
      let t := applyChain t c
      let b := match c with | (b, _, _) :: _ => b | [] => p.1
      some (mapSet [] t b (bucketAt t b ++ [e]))
    | none => none

/-- Every entry of a table. -/
def hashEntries (t : NMap (List DirEntry)) : List DirEntry := t.flatMap (·.2)

/-- A shadow built under a new seed by walking a table; false when an entry finds no place (R134). -/
def buildShadow (t : NMap (List DirEntry)) (code extBits : Nat) (seed : Word) (kicks : Nat) : NMap (List DirEntry) × Bool :=
  (hashEntries t).foldl (fun (acc : NMap (List DirEntry) × Bool) e =>
    match hashInsert acc.1 code extBits seed kicks e with
    | some t => (t, acc.2)
    | none => (acc.1, false)) ([], true)

/-! ### Longest prefixes -/

/-- The width of an address family. -/
def famBits (v6 : Bool) : Nat := if v6 then 128 else 32

/-- Whether a prefix covers an address. -/
def covers (p : Prefix4) (addr : Nat) : Bool := addr / 2 ^ (famBits p.v6 - p.plen) == p.addr / 2 ^ (famBits p.v6 - p.plen)

/-- The longest prefix of a root that covers an address (R137). -/
def lpmFind (l : List Prefix4) (v6 : Bool) (root addr : Nat) : Option Prefix4 :=
  (l.filter fun p => p.v6 == v6 && p.root == root && covers p addr).foldl
    (fun best p => match best with | some b => if b.plen < p.plen then some p else some b | none => some p) none

/-- The child blocks a prefix set needs: family, root, depth in bits and the address bits above it (R136 to R138). -/
def lpmBlocks (l : List Prefix4) : List (Bool × Nat × Nat × Nat) :=
  (l.flatMap fun p => ((List.range 15).map fun i => 16 + 8 * i).filterMap fun d =>
    if d < p.plen then some (p.v6, p.root, d, p.addr / 2 ^ (famBits p.v6 - d)) else none).eraseDups

/-- Entry i of a child block: the longest prefix that ends in it, if any, and whether it names a child (R137). -/
def blockEntry (l : List Prefix4) (b : Bool × Nat × Nat × Nat) (i : Nat) : Option (Nat × Nat) × Option Nat :=
  let w := famBits b.1
  let lo := (b.2.2.2 * 256 + i) * 2 ^ (w - b.2.2.1 - 8)
  let inside := l.filter fun p => p.v6 == b.1 && p.root == b.2.1
  let here := inside.filter fun p => decide (b.2.2.1 < p.plen) && decide (p.plen ≤ b.2.2.1 + 8) && covers p lo
  let best := here.foldl (fun best p => match best with | some (n, r) => if n < p.plen then some (p.plen, p.result) else some (n, r) | none => some (p.plen, p.result)) none
  let child := inside.any fun p => decide (b.2.2.1 + 8 < p.plen) && p.addr / 2 ^ (w - b.2.2.1 - 8) == b.2.2.2 * 256 + i
  (best, if child then some i else none)

/-- Entry words a block takes: its runs of equal entries (R137). -/
def blockWords (l : List Prefix4) (b : Bool × Nat × Nat × Nat) : Nat :=
  1 + ((List.range 255).filter fun i => blockEntry l b i != blockEntry l b (i + 1)).length

/-- Entry words and child blocks of an image (R138). -/
def lpmUse (l : List Prefix4) : Nat × Nat :=
  let bs := lpmBlocks l
  ((bs.map (blockWords l)).foldl (· + ·) 0, bs.length)

/-! ### Copies -/

/-- Whether a frame of a postmark is looked up in the old copy: earlier than the last epoch, with the old copy still readable and
the frame formed within 1 ms of it (R31, R32). -/
def usesOld (s : State) (pm : Nat) : Bool :=
  decide (pm < s.epoch.lastAt) && s.epoch.oldReadable && decide (s.now < s.epoch.lastAt + 1000000 * nsUnit)

/-- Whether a frame of an earlier postmark is looked up in the new copy (R32). -/
def isLate (s : State) (pm : Nat) : Bool := decide (pm < s.epoch.lastAt) && !usesOld s pm

/-- The seed word a lookup uses for a table of a slice: after an exchange the new table stands under NEW_SEED until the old one is
released (R134). EXT, one table in DRAM, stands under the seeds of slice 0. -/
def seedOf (s : State) (sl code : Nat) (old : Bool) : Word :=
  let i := if code = 6 then 0 else sl
  let new := (s.slice i).swapped.contains code && !old
  if code = 1 then s.reg (if new then Reg.dirNewSeedStatic i else Reg.dirHashSeedStatic i)
  else if code = 2 then s.reg (if new then Reg.dirNewSeedLearn i else Reg.dirHashSeedLearn i)
  else s.reg (if new then Reg.dirNewSeedExt i else Reg.dirHashSeedExt i)

/-- NEW_SEED of a table. -/
def newSeedOf (s : State) (sl code : Nat) : Word :=
  let i := if code = 6 then 0 else sl
  if code = 1 then s.reg (Reg.dirNewSeedStatic i) else if code = 2 then s.reg (Reg.dirNewSeedLearn i) else s.reg (Reg.dirNewSeedExt i)

/-- DIR_REHASH of a table of a slice. -/
def rehashReg (sl code : Nat) : Nat := if code = 1 then Reg.dirRehashStatic sl else if code = 2 then Reg.dirRehashLearn sl else Reg.dirRehashExt sl

/-- DIR_HASH_CFG of a table of a slice. -/
def hashCfgReg (sl code : Nat) : Nat := if code = 1 then Reg.dirHashCfgStatic sl else if code = 2 then Reg.dirHashCfgLearn sl else Reg.dirHashCfgExt sl

/-- KICKS of a table. -/
def kicksOf (s : State) (sl code : Nat) : Nat := s.rf (hashCfgReg (if code = 6 then 0 else sl) code) 3 0

/-- The VLAN entry of a VID in a copy. -/
def vlanEntry (s : State) (old : Bool) (vid : Nat) : Word := mapGet 0 (if old then s.dirs.vlanS else s.dirs.vlanA) vid

/-- The static entry of a key in a copy. After a rehash the old copy is the old table under the old seed. -/
def staticFind (s : State) (sl : Nat) (old : Bool) (key : Nat) : Option DirEntry :=
  let x := s.slice sl
  hashFind (if old then x.statS else x.statA) 1 0 (seedOf s sl 1 old) key

/-- The learned entry of a key; a frame on the old side of a rehash epoch reads the old table (R134). -/
def learnFind (s : State) (sl : Nat) (old : Bool) (key : Nat) : Option DirEntry :=
  let x := s.slice sl
  if old && x.swapped.contains 2 then hashFind x.learnShadow 2 0 (seedOf s sl 2 true) key else hashFind x.learn 2 0 (seedOf s sl 2 false) key

/-- Half-seconds since ENTRY modulo 65,536: DIR_AGE_NOW (R130). -/
def ageNow (s : State) : Nat := (s.up - s.life.entryAt) / (secUnit / 2) % 65536

/-- A learned entry's data: PORT in [8:0], STAMP in [24:9]. -/
def learnData (port stamp : Nat) : Nat := port % 512 + (stamp % 65536) * 512
def learnPort (d : Nat) : Nat := d % 512
def learnStamp (d : Nat) : Nat := d / 512

/-- The key of STATIC and LEARN: TENANCY, FID, MAC (R124). -/
def macKey (ten fid mac : Nat) : Nat := ten * 2 ^ 60 + fid * 2 ^ 48 + mac

/-- Learned entries a tenancy holds in a slice. -/
def learnedOf (x : SliceSt) (ten : Nat) : Nat := ((hashEntries x.learn).filter fun e => e.key / 2 ^ 60 == ten).length

/-- The ternary key of a frame (R124, R125), as T0 to T5. -/
def ternKey (s : State) (port ten cls vid : Nat) (r : ParseRes) (head : List Byte) (hv : Nat) : List Nat :=
  let at_ (i : Nat) : Nat := if i < hv then hb head i else 0
  let tos := match r.v4, r.v6 with
    | some p, _ => at_ (p + 1)
    | none, some p => at_ p % 16 * 16 + at_ (p + 1) / 16
    | none, none => 0
  let sel := (s.reg (Reg.dirTernSel (port / 32))).toNat
  let word (i : Nat) : Nat :=
    let f := bits sel (8 * i + 7) (8 * i)
    let base := f / 64
    let o := (if base = 1 then r.l3 else if base = 2 then r.l4 else r.l5).getD 0
    if base ≠ 0 ∧ o = 0 then 0
    else
      let p := (if base = 0 then 0 else o) + (f % 64) * 2
      ((at_ p * 256 + at_ (p + 1)) * 256 + at_ (p + 2)) * 256 + at_ (p + 3)
  [r.pstate * 2 ^ 24 + ten * 2 ^ 20 + (port % 32) * 2 ^ 15 + cls * 2 ^ 12 + vid, r.ethType * 2 ^ 16 + r.proto * 2 ^ 8 + tos,
   word 0, word 1, word 2, word 3]

/-- A ternary rule as stored: value words, mask words, then the data word with V and ACTION. -/
def ternMatches (rule : List Word) (key : List Nat) : Bool :=
  bitOf (rule.getD 12 0) 31 && (List.range 6).all fun i =>
    Nat.land (key.getD i 0) (rule.getD (6 + i) 0).toNat == Nat.land (rule.getD i 0).toNat (rule.getD (6 + i) 0).toNat

/-- The matching rule of the lowest index (R124): rules are held in rising index order. -/
def ternFind (x : SliceSt) (key : List Nat) : Option (Nat × Word) :=
  (x.tern.find? fun p => ternMatches p.2 key).map fun p => (p.1, p.2.getD 12 0)

end Sys2Proof.Machine
end

