-- ==== Sys2Proof/Machine/Directory.lean ====
section
/-! DEFINITION. The Directory: the lookups of a frame and their result words (R120 to R122), learning and its insertion unit
(R126 to R133), the extension's hot cache (R142 to R144), the host's commands (R139, R140), rehash (R134) and aging (R130). -/

namespace Sys2Proof.Machine

/-- n of the extension table: 10 to 24. -/
def extBits : Nat := 10 + Config.extSize % 15

/-! ### Results -/

/-- A result word (the result word format). -/
def resWord (hit : Bool) (tbl low : Nat) : Nat := b2n hit * 2 ^ 31 + tbl * 2 ^ 28 + low % 2 ^ 28

/-- The ports and groups of a forwarding result. -/
def resGrp (r : Nat) : Bool := r.testBit 27
def resDest (r : Nat) : Nat := r % 2 ^ 14

/-- The default destination a RESULT0 gives (R121). -/
def setDest (e : Env) (r0 cls flood : Nat) (vlanHit : Bool) : Env :=
  if !vlanHit then setEf (setEf (setEf (setEf e 9 31 19 0x1FFF) 9 18 10 0) 11 17 17 0) 11 9 9 1
  else if r0.testBit 31 then
    if resGrp r0 then setEf (setEf e 11 17 17 1) 10 29 16 (resDest r0)
    else setEf (setEf e 9 18 10 (r0 % 512)) 9 31 19 (r0 % 512 * 8 + cls)
  else setEf (setEf (setEf e 11 17 17 1) 10 29 16 flood) 11 9 9 1

/-- The VID that bridges a frame: that of the first VTAG mark, PVID for none or 0 (R118). -/
def frameVid (r : ParseRes) (head : List Byte) (pvid : Nat) : Nat :=
  match r.vtag with
  | some p => let v := (hb head p * 256 + hb head (p + 1)) % 4096; if v = 0 then pvid else v
  | none => pvid

/-- RESULT0's tables for a key: VLAN, then STATIC, then LEARN (R120, R124). A VID of 4,095 is a VLAN miss (R118). -/
def lookupMac (s : State) (sl : Nat) (old : Bool) (ten vid mac : Nat) : Nat × Option Word :=
  let v := vlanEntry s old vid
  if vid = 4095 ∨ !bitOf v 31 ∨ fld v 30 27 ≠ ten then (resWord false 3 0, none)
  else
    let key := macKey ten (fld v 26 15) mac
    match staticFind s sl old key with
    | some e => (resWord true 1 e.data, some v)
    | none => match learnFind s sl old key with
      | some e => (resWord true 2 (learnPort e.data), some v)
      | none => (resWord false 2 0, some v)

/-- The LPM result of an address for a tenancy (R137). -/
def lookupLpm (s : State) (old v6 : Bool) (ten addr : Nat) : Nat × Nat :=
  let root := mapGet 0 (if old then s.dirs.rootS else s.dirs.rootA) (ten + 16 * b2n v6)
  let tbl := if v6 then 5 else 4
  if root < 4 then (resWord false tbl 0, 0)
  else match lpmFind (if old then s.dirs.lpmS else s.dirs.lpmA) v6 (root % 4) addr with
    | some p => (resWord true tbl p.result, p.plen)
    | none => (resWord false tbl 0, 0)

/-- A key of the extension table: TENANCY, KTYPE and 88 key bits (R124). -/
def extKeyOf (ten ktype low : Nat) : Nat := ten * 2 ^ 92 + ktype * 2 ^ 88 + low % 2 ^ 88

/-- The 88 key bits of a frame for a key type (the extension key types); a field its frame does not have is 0. -/
def extLow (ktype fid mac : Nat) (r : ParseRes) (head : List Byte) : Nat :=
  let n (p k : Nat) : Nat := beNat (slice head p k)
  if ktype = 1 then
    match r.v4 with
    | some p => n (p + 16) 4 * 2 ^ 56 + n (p + 12) 4 * 2 ^ 24 + hb head (p + 9) * 2 ^ 16 + (match r.l4 with | some q => n (q + 2) 2 | none => 0)
    | none => 0
  else if ktype = 2 then fid * 2 ^ 48 + mac
  else (match r.l5 with | some q => n q 2 | none => 0) * 2 ^ 48 + mac

/-! ### The hot cache (R142 to R144) -/

/-- Whether a bucket is in the hot cache. -/
def inCache (x : SliceSt) (b : Nat) : Bool := x.cache.any fun p => p.1 == b

/-- The live entry of an extension key in the buckets a slice caches. -/
def cacheFind (x : SliceSt) (b key : Nat) : Option DirEntry :=
  match x.cache.find? (fun p => p.1 == b) with
  | some p => p.2.1.find? fun e => e.key == key
  | none => none

/-- The line of DRAM that holds a bucket of the extension table, of the table in use or of the other one (log entry 33). -/
def extLineOf (s : State) (shadow : Bool) (b : Nat) : Nat := Config.extLine (b2n (s.dirs.extPlace != shadow)) b % 2 ^ 30

/-- The extension table in use, or the other one, as DRAM holds it: a bucket whose line another requester has written reads as that line's bytes, and one on a poisoned line holds no entry
(R144, R376, log entry 33). -/
def extView (s : State) (shadow : Bool) : NMap (List DirEntry) :=
  let t := if shadow then s.dirs.extShadow else s.dirs.ext
  if s.dram.direct.isEmpty ∧ s.dram.poison.isEmpty then t
  else (List.range (2 ^ extBits)).foldl (fun t b =>
    if s.dram.poison.contains (extLineOf s shadow b) then mapSet [] t b []
    else if s.dram.direct.contains (extLineOf s shadow b) then
      mapSet [] t b ((Config.extDecode (memRead s.dram.mem (extLineOf s shadow b * 64) 64)).map fun p => (⟨p.1, p.2⟩ : DirEntry)) else t) t

/-- Whether a bucket of the extension table stands on a poisoned line. -/
def extPoisoned (s : State) (shadow : Bool) (b : Nat) : Bool := !s.dram.poison.isEmpty && s.dram.poison.contains (extLineOf s shadow b)

/-- A fill of a bucket begins: a read through the slice's DRAM_REQ and the DIR port (R142, R378). Its lookups find the bucket as it stands now (R141). -/
def startFill (s : State) (sl : Nat) (shadow : Bool) (b : Nat) : State × Nat :=
  let x := s.slice sl
  let n := s.help.nextRef
  let f : ExtFill := { no := x.fillNo, bucket := b, stale := shadow, since := s.up, ref := n, data := bucketAt (extView s shadow) b }
  let s1 := s.setSlice sl { x with fills := x.fills ++ [f], fillNo := x.fillNo + 1 }
  ({ s1 with help := { s1.help with nextRef := n + 1 } }.offer (hatchNo 0x0F (48 + sl))
    { pay := .dramReq ⟨0, 48 + sl, n, 0xFFFF, 0, false, extLineOf s shadow b, 0, [], false⟩, flow := 0, xpr := false }, x.fillNo)

/-- The fill of a bucket that a lookup joins: one in flight and not stale, or a new one (R142, R143). -/
def joinFill (s : State) (sl : Nat) (shadow : Bool) (b : Nat) : State × Nat :=
  match (s.slice sl).fills.find? (fun f => f.bucket == b && !f.stale && !shadow) with
  | some f => (s, f.no)
  | none => startFill s sl shadow b

/-- The fills a lookup waits for. -/
def joinFills (s : State) (sl : Nat) (shadow : Bool) (l : List Nat) : State × List Nat :=
  l.foldl (fun (acc : State × List Nat) b => let j := joinFill acc.1 sl shadow b; (j.1, acc.2 ++ [j.2])) (s, [])

/-- Envelopes of a slice that wait for fills. -/
def waiters (x : SliceSt) : Nat := (x.store.filter fun i => !i.waiting.isEmpty).length

/-- Whether a lookup of an old frame reads the extension table that the epoch has replaced (R31, R134). -/
def extOld (s : State) (old : Bool) : Bool := old && (s.slice 0).swapped.contains 6

/-- What a slice's hot cache gives an extension lookup: its result, or the buckets that must be read from DRAM. The hot caches hold buckets of the new table only, so a
lookup in the table that an epoch has replaced reads both buckets from DRAM (DESIGN CHOICE, log entry 72). -/
def cacheLook (s : State) (sl key : Nat) (old : Bool) : Option Nat × List Nat :=
  let x := s.slice sl
  let p := bucketsOf 6 extBits (seedOf s sl 6 old) key
  if extOld s old then (none, [p.1, p.2].eraseDups)
  else match cacheFind x p.1 key, cacheFind x p.2 key with
    | some e, _ => (some e.data, [])
    | none, some e => (some e.data, [])
    | none, none => (none, ([p.1, p.2].eraseDups).filter fun b => !inCache x b)

/-- An extension lookup of a frame begun: a hit in a cached bucket, the fills it must wait for, or a miss when the pool of 256 is full (R142). -/
def extBegin (s : State) (sl key : Nat) (old : Bool) : State × Option Nat × List Nat :=
  let c := cacheLook s sl key old
  if c.2.isEmpty then (s, c.1, [])
  else if 256 ≤ waiters (s.slice sl) then (s.count (Reg.dirExtPoolFullCnt sl), none, [])
  else let r := joinFills s sl (extOld s old) c.2; (r.1, none, r.2)

/-- An extension result word. -/
def extWord (r : Option Nat) : Nat := match r with | some d => resWord true 6 d | none => resWord false 6 0

/-! ### Learning (R126 to R131) -/

/-- A learning insertion is queued, or discarded and counted when the queue of 64 is full (R128). -/
def queueLearn (s : State) (sl key port : Nat) (cell : Option Nat) : State :=
  let x := s.slice sl
  if x.learnQ.length < 64 then s.setSlice sl { x with learnQ := x.learnQ ++ [{ key := key, port := port, cell := cell }] }
  else s.count (Reg.dirLearnDropCnt sl)

/-- Whether a table of a slice has a shadow that changes must reach: building or built, and not yet exchanged. -/
def hasShadow (s : State) (sl code : Nat) : Bool :=
  (s.slice sl).building.contains code || (s.rb (rehashReg (if code = 6 then 0 else sl) code) 30 && !(s.slice sl).swapped.contains code)

/-- A learning table with the stamp of a key's entry set where it stands. -/
def hashStamp (t : NMap (List DirEntry)) (seed : Word) (key now : Nat) : NMap (List DirEntry) :=
  let p := bucketsOf 2 0 seed key
  let f (b : Nat) (t : NMap (List DirEntry)) :=
    mapSet [] t b ((bucketAt t b).map fun x => if x.key = key then { x with data := learnData (learnPort x.data) now } else x)
  f p.2 (f p.1 t)

/-- A source hit sets the stamp of a learned entry in every table that holds it (R130, R134). -/
def stampHit (s : State) (sl : Nat) (e : DirEntry) : State :=
  let x := s.slice sl
  s.setSlice sl { x with learn := hashStamp x.learn (seedOf s sl 2 false) e.key (ageNow s)
                         learnShadow := if hasShadow s sl 2 then hashStamp x.learnShadow (newSeedOf s sl 2) e.key (ageNow s) else x.learnShadow }

/-- The learning lookup of a source (R120, R126, R130): whether LEARN is set, and the state with the stamp refreshed or an
insertion queued. DESIGN CHOICE (log entry 68): a miss of this lookup, which writes no result word, sets LEARN and not MISS. -/
def learnSource (s : State) (sl ten fid src port mode : Nat) (cell : Option Nat) (old : Bool) : State × Bool :=
  let key := macKey ten fid src
  if src.testBit 40 then (s, false)
  else match staticFind s sl old key with
    | some _ => (s, false)
    | none =>
      let found := learnFind s sl old key
      let s1 := match found with | some e => stampHit s sl e | none => s
      let wanted := match found with | some e => learnPort e.data != port | none => true
      if wanted then ((if mode = 1 then queueLearn s1 sl key port cell else s1), true) else (s1, false)

/-! ### The lookups of a frame (R120 to R122) -/

/-- The sixteen words of a new envelope as the Sorter fills it (R118, R46, R47, R66, R67). -/
def sorterEnv (s : State) (port cell cls pm len hv tblEpoch : Nat) (cut sample : Bool) (ten : Nat) (r : ParseRes) (head : List Byte) : Env :=
  let dei := match r.vtag with | some p => hb head p / 16 % 2 | none => 0
  let p := pmOf pm
  let sealNo := if pm < s.epoch.lastAt then s.epoch.prevSeal else s.epoch.sealEpoch
  ([cell,
    ten * 2 ^ 28 + dei * 2 ^ 26 + cls * 2 ^ 23 + port * 2 ^ 14 + len,
    tblEpoch * 2 ^ 8 + sealNo,
    p % 2 ^ 32, p / 2 ^ 32,
    fracOf pm * 2 ^ 16 + hv,
    0, 0, 0, 0,
    b2n sample * 2 ^ 7,
    b2n cut * 2 ^ 16 + b2n r.ect * 2 ^ 15 + b2n r.ptp * 2 ^ 13,
    r.pstate * 2 ^ 24 + r.l3.getD 0 * 2 ^ 16 + r.l4.getD 0 * 2 ^ 8 + r.l5.getD 0,
    0, 0, 0xFF00] : List Nat).map (BitVec.ofNat 32)

/-- What the Sorter and the Directory leave in the store's slot of a frame. -/
structure Formed where
  env : Env
  extKey : Nat
  waiting : List Nat

/-- An envelope is formed (R46, R47, R115 to R122, R126, R32, R66): the walk, the envelope fields, RESULT0 to RESULT2, the default
destination, MISS and LEARN. DESIGN CHOICE (log entry 70): a walk that visits both an IPv4 and an IPv6 header, which only a host's graph can make, gives the LPM lookup the IPv4
address. -/
def formEnvelope (s : State) (port cell cls pm len hv : Nat) (cut sample : Bool) (head : List Byte) : State × Formed :=
  let sl := port / 32
  let lp := port % 32
  let cfg := s.reg (Reg.sortPortCfg sl lp)
  let r := walkFrame s port head hv (if len = 0 then none else some len)
  let s := if r.err then s.count (Reg.sortParseErrCnt sl) else s
  let old := usesOld s pm
  let s := if isLate s pm then s.count (Reg.dirEpochLateCnt sl) else s
  let now := s.rf Reg.epochStatus 7 0
  let ten := portTenancy s port old
  let vid := frameVid r head (fld cfg 11 0)
  let dmac := beNat (slice head 0 6)
  let smac := beNat (slice head 6 6)
  let e := sorterEnv s port cell cls pm len hv (if old then (now + 255) % 256 else now) cut sample ten r head
  let r0 := lookupMac s sl old ten vid dmac
  let fid := match r0.2 with | some v => fld v 26 15 | none => 0
  let flood := match r0.2 with | some v => fld v 13 0 | none => 0
  let e := setDest (setEf e 6 31 0 r0.1) r0.1 cls flood r0.2.isSome
  let l3 := bitOf cfg 29
  let ktype := fld cfg 28 27
  let ip := match r.v4, r.v6 with | some p, _ => some (p, false) | none, some p => some (p, true) | none, none => none
  let lpm := match ip with
    | some (p, v6) => if l3 then some (lookupLpm s old v6 ten (beNat (slice head (p + (if v6 then 24 else 16)) (if v6 then 16 else 4)))).1 else none
    | none => none
  let key := extKeyOf ten ktype (extLow ktype fid dmac r head)
  let x := if ktype ≠ 0 ∧ cls ≠ 7 then extBegin s sl key old else (s, none, [])
  let s := x.1
  let fall := match lpm with | some w => some w | none => if ktype ≠ 0 then some (resWord false 6 0) else none
  let r1 := match x.2.1 with | some d => some (resWord true 6 d) | none => fall
  let e := match r1 with | some w => setEf e 7 31 0 w | none => e
  let e := match r1 with | some w => if w.testBit 31 ∨ !x.2.2.isEmpty then e else setEf e 11 9 9 1 | none => e
  let e := if bitOf cfg 26 then
      match ternFind (s.slice sl) (ternKey s port ten cls vid r head hv) with
      | some (i, d) => setEf e 8 31 0 (resWord true 7 (i * 2 ^ 16 + fld d 15 0))
      | none => setEf (setEf e 8 31 0 (resWord false 7 0)) 11 9 9 1
    else e
  let mode := fld cfg 31 30
  let lrn : Bool := match r0.2 with | some v => bitOf v 14 | none => false
  let l := if mode ≠ 0 ∧ lrn = true then learnSource s sl ten fid smac port mode (some cell) old else (s, false)
  (l.1, { env := setEf e 11 10 10 (b2n l.2), extKey := key, waiting := x.2.2 })

/-! ### Completion of extension lookups -/

/-- A store slot whose fill has ended: with data it hits or goes on waiting, without data it is a miss (R142). -/
def fillItem (it : StoreItem) (no : Nat) (data : Option (List DirEntry)) : StoreItem :=
  if !it.waiting.contains no then it
  else
    let hit : Option DirEntry := match data with | some d => d.find? (fun (e : DirEntry) => e.key == it.extKey) | none => none
    match hit, data with
    | some e, _ => { it with waiting := [], env := it.env.map fun v => setEf v 7 31 0 (resWord true 6 e.data) }
    | none, some _ =>
      let w := it.waiting.filter (· != no)
      { it with waiting := w, env := if w.isEmpty then it.env.map (fun v => if bitOf (ew v 7) 31 then v else setEf v 11 9 9 1) else it.env }
    | none, none => { it with waiting := [], env := it.env.map fun v => if bitOf (ew v 7) 31 then v else setEf v 11 9 9 1 }

/-- A helper's query of the extension table that waits for fills: it ends with a hit, or goes on waiting, or is a miss (R145). -/
def fillJob (no : Nat) (data : Option (List DirEntry)) (j : HelpJob) : HelpJob :=
  if !j.waits.contains no then j
  else match data with
    | none => { j with waits := [] }
    | some d => match d.find? fun (e : DirEntry) => e.key == j.extKey with
      | some e => { j with waits := [], res0 := resWord true 6 e.data }
      | none => { j with waits := j.waits.filter (· != no) }

/-- The queries of a slice's helper, running or yielded, as a fill ends. -/
def fillJobs (s : State) (sl no : Nat) (data : Option (List DirEntry)) : State :=
  { s with help := { s.help with helpers := s.help.helpers.map fun p =>
      (p.1, if p.1 = sl then { p.2 with units := p.2.units.map fun u =>
          (u.1, { u.2 with run := u.2.run.map (fillJob no data), yielded := u.2.yielded.map (fillJob no data) }) } else p.2) } }

/-- A fill ends: every lookup that waits on it is completed or goes on; the data is cached unless the fill is stale or bad, within
the cache's 32 Ki buckets (R142, R143). DESIGN CHOICE (log entry 69): a full cache gives up the bucket with the lowest number. -/
def endFill (s : State) (sl : Nat) (f : ExtFill) (data : Option (List DirEntry)) : State :=
  let x := s.slice sl
  let cache := match data with
    | some d => if f.stale then x.cache
      else mapInsert (mapErase (if x.cache.length < 32768 then x.cache else x.cache.drop 1) f.bucket) f.bucket (d, 0)
    | none => x.cache
  fillJobs (s.setSlice sl { x with fills := x.fills.filter (fun g => g.no != f.no), store := x.store.map fun it => fillItem it f.no data, cache := cache }) sl f.no data

/-- The answers to a slice's DRAM requests that its DRAM_RSP hatch shows: reference and status. -/
def fillAnswers (s : State) (sl : Nat) : List (Nat × Nat) :=
  let x := s.hatch (hatchNo 0x10 (48 + sl))
  (x.taken ++ x.gFifo).filterMap fun e => match e.pay with | .dramRsp r st _ => some (r, st) | _ => none

/-- A hatch of answers without those of a kind; the visible ones are counted as removed. -/
def dropAnswers (x : Hatch) (p : Nat → Bool) : Hatch :=
  let mine (e : HEntry) : Bool := match e.pay with | .dramRsp r _ _ => p r | _ => false
  let n := (x.gFifo.filter mine).length
  { x with taken := x.taken.filter (fun e => !mine e), gFifo := x.gFifo.filter (fun e => !mine e), gUnseen := x.gUnseen + n, gRemoved := x.gRemoved + n }

/-- Whether a DRAM answer of a helper block's island is still awaited: by a move of the helper, by a fill of the slice, or by the LOAD of a graph. -/
def awaited (s : State) (h r : Nat) : Bool :=
  ((mapGet default s.help.helpers h).units.any fun u => (u.2.run.toList ++ u.2.yielded.toList).any fun j => decide (j.ref ≤ r) && decide (r < j.ref + j.refs)) ||
    (decide (h < 16) && (s.slice h).fills.any fun f => f.ref == r) ||
    (h == 24 && s.wshop.load.any fun l => decide (l.ref ≤ r) && decide (r < l.ref + l.refs))

/-- EXT_FILL (R142, R375, R383, R392): the answer to fill `no` has come to the slice: the bucket, or (`bad`) POISON or an error, which makes its lookups miss. Answers
that nobody awaits any more are dropped with it. -/
def execExtFill (sl no dt : Nat) (bad : Bool) (s : State) : Host.Outcome State Fault Refusal :=
  let s := advance s dt
  match (s.slice sl).fills.find? (fun f => f.no == no && (fillAnswers s sl).any fun a => a.1 == f.ref) with
  | none => .next s
  | some f =>
    let ok := (fillAnswers s sl).any fun a => a.1 == f.ref && a.2 == 0
    let s1 := s.setHatch (hatchNo 0x10 (48 + sl)) (dropAnswers (s.hatch (hatchNo 0x10 (48 + sl))) fun r => r == f.ref || !awaited s sl r)
    occur (s.dataPath && decide (sl < 16) && ok != bad) s
      (if ok then endFill s1 sl f (some f.data) else (endFill s1 sl f none).count (Reg.dirExtErrCnt sl))

/-- EXT_FILL_TIMEOUT (R142): a fill has taken longer than 20 µs. -/
def execExtFillTimeout (sl no dt : Nat) (s : State) : Host.Outcome State Fault Refusal :=
  let s := advance s dt
  match (s.slice sl).fills.find? (fun f => f.no == no) with
  | none => .next s
  | some f =>
    let n := ((s.slice sl).store.filter fun it => it.waiting.contains no).length
    occur (s.dataPath && decide (f.since + 20000 * nsUnit < s.up)) s ((endFill s sl f none).count (Reg.dirExtTimeoutCnt sl) n)

/-- HOTCACHE_SWEEP (R144): each 1 ms sweep drops the lines that a sweep has seen before and marks the others seen. -/
def execHotcacheSweep (sl dt : Nat) (s : State) : Host.Outcome State Fault Refusal :=
  let s := advance s dt
  let x := s.slice sl
  occur (s.dataPath && decide (sl < 16) && decide (x.hotAt + 1000000 * nsUnit ≤ s.up)) s
    (s.setSlice sl { x with hotAt := s.up, cache := (x.cache.filter fun p => p.2.2 == 0).map fun p => (p.1, (p.2.1, 1)) })

/-- A bucket is dropped from every hot cache, and its fills in flight become stale (R139, R143). -/
def invalidate (s : State) (b : Nat) : State :=
  { s with slices := s.slices.map fun p =>
      (p.1, { p.2 with cache := mapErase p.2.cache b, fills := p.2.fills.map fun f => if f.bucket = b then { f with stale := true } else f }) }

/-! ### The insertion unit -/

/-- An insertion failed under REHASH: REQ and one alarm (R133). -/
def rehashRequest (s : State) (sl code : Nat) : State :=
  if s.rb (rehashReg sl code) 31 then s
  else (s.setRf (rehashReg sl code) 31 31 1).raise 0x0302 (48 + sl) sl code

/-- An entry is written also into the shadow while one is being built or waits for its epoch (R134). -/
def shadowInsert (s : State) (sl code : Nat) (shadow : NMap (List DirEntry)) (e : DirEntry) : NMap (List DirEntry) × Bool :=
  match hashInsert (hashDelete shadow code extBits (newSeedOf s sl code) e.key) code extBits (newSeedOf s sl code) (kicksOf s sl code) e with
  | some t => (t, true)
  | none => (shadow, false)

/-- BUILT falls and FAILED rises in a Room. -/
def buildFails (s : State) (sl code : Nat) : State := (s.setRf (rehashReg sl code) 30 30 0).setRf (rehashReg sl code) 29 29 1

/-- The shadow could not hold an entry: the build fails; slice 0 shows it for the STATIC shadow of any slice (R134). -/
def shadowFails (s : State) (sl code : Nat) : State :=
  let x := s.slice sl
  let s1 := s.setSlice sl { x with shadowBad := (x.shadowBad.filter (· != code)) ++ [code] }
  let s2 := if x.building.contains code then s1 else buildFails s1 sl code
  if code = 1 ∧ sl ≠ 0 ∧ s.rb (rehashReg 0 1) 30 = true then buildFails s2 0 1 else s2

/-- The learned entry of a key is set in the table and the shadow, as an insertion, a refresh or a move. -/
def learnWrite (s : State) (sl : Nat) (e : DirEntry) (table : NMap (List DirEntry)) : State :=
  let x := s.slice sl
  if hasShadow s sl 2 then
    let p := shadowInsert s sl 2 x.learnShadow e
    let s1 := s.setSlice sl { x with learn := table, learnShadow := p.1 }
    if p.2 then s1 else shadowFails s1 sl 2
  else s.setSlice sl { x with learn := table }

/-- How a learning insertion ends: 0 added, 1 refreshed or moved, 7 over the tenancy's limit, 3 failed. -/
def learnPut (s : State) (sl key port : Nat) : State × Nat :=
  let x := s.slice sl
  let seed := seedOf s sl 2 false
  let e : DirEntry := { key := key, data := learnData port (ageNow s) }
  match hashFind x.learn 2 0 seed key with
  | some o =>
    let s1 := learnWrite s sl e (hashUpdate x.learn 2 0 seed e)
    ((if learnPort o.data = port then s1 else s1.count (Reg.dirMoveCnt sl)), 1)
  | none =>
    if s.rf (Reg.dirTenLimit sl (key / 2 ^ 60)) 18 0 ≤ learnedOf x (key / 2 ^ 60) then (s.count (Reg.dirLearnLimitCnt sl), 7)
    else match hashInsert x.learn 2 0 seed (kicksOf s sl 2) e with
      | some t => (learnWrite s sl e t, 0)
      | none => (s.count (Reg.dirInsFailCnt sl), 3)

/-- The flood of a failed learning insertion whose frame's envelope is still in the store (R133). -/
def floodItem (s : State) (sl cell : Nat) : State :=
  let x := s.slice sl
  s.setSlice sl { x with store := x.store.map fun it =>
    if it.cell = cell then
      { it with env := it.env.map fun v =>
          let w := ew v 6
          let vl := vlanEntry s (usesOld s it.pm) (frameVid (walkFrame s it.port it.head (eHeadValid v) none) it.head
            (s.rf (Reg.sortPortCfg sl (it.port % 32)) 11 0))
          if bitOf w 31 then
            setDest (setEf (setEf v 6 31 0 (resWord false 2 0)) 11 17 17 0) (resWord false 2 0) it.cls (fld vl 13 0) true
          else v }
    else it }

/-- A queued learning insertion is performed (R128, R129, R132, R133). -/
def doLearn (s : State) (sl : Nat) (q : LearnReq) : State :=
  let p := learnPut s sl q.key q.port
  if p.2 = 3 then
    if s.rb (Reg.dirHashCfgLearn sl) 8 then rehashRequest p.1 sl 2 else match q.cell with | some c => floodItem p.1 sl c | none => p.1
  else p.1

/-- A learned entry is removed from the table and the shadow. -/
def learnDrop (s : State) (sl key : Nat) : State :=
  let x := s.slice sl
  s.setSlice sl { x with learn := hashDelete x.learn 2 0 (seedOf s sl 2 false) key,
                         learnShadow := if hasShadow s sl 2 then hashDelete x.learnShadow 2 0 (newSeedOf s sl 2) key else x.learnShadow }

/-- AGE_SWEEP (R130): every learned entry older than twice LIMIT half-seconds is removed and counted. -/
def execAgeSweep (sl dt : Nat) (s : State) : Host.Outcome State Fault Refusal :=
  let s := advance s dt
  let x := s.slice sl
  let now := ageNow s
  let lim := 2 * s.rf (Reg.dirLearnCfg sl) 15 0
  let dead := (hashEntries x.learn).filter fun e => decide (lim < (now + 65536 - learnStamp e.data) % 65536)
  let s1 := s.setSlice sl { x with sweepAt := s.up }
  occur (s.life.rails && decide (sl < 16) && decide (x.sweepAt + secUnit ≤ s.up)) s
    (if s.rb (Reg.dirLearnCfg sl) 31 && !dead.isEmpty then
      (dead.foldl (fun t e => learnDrop t sl e.key) s1).count (Reg.dirAgeOutCnt sl) dead.length
    else s1)

/-! ### Commands (R139, R140) -/

/-- The operand registers of a DIR Room as a command latches them. -/
def latchCmd (s : State) (sl : Nat) (val : Word) : DirCmd :=
  { op := fld val 3 0, table := fld val 11 8, bcast := bitOf val 17, active := bitOf val 16
    keys := [Reg.dirKey0 sl, Reg.dirKey1 sl, Reg.dirKey2 sl, Reg.dirKey3 sl, Reg.dirKey4 sl, Reg.dirKey5 sl].map s.reg
    masks := [Reg.dirMask0 sl, Reg.dirMask1 sl, Reg.dirMask2 sl, Reg.dirMask3 sl, Reg.dirMask4 sl, Reg.dirMask5 sl].map s.reg
    data := [Reg.dirData0 sl, Reg.dirData1 sl].map s.reg }

/-- Whether an operation accepts a table (table of command operations). -/
def opAccepts (op tbl : Nat) : Bool :=
  if op = 1 ∨ op = 2 ∨ op = 3 then [1, 2, 4, 5, 6].contains tbl
  else if op = 4 then tbl == 6
  else if op = 5 then [3, 7, 4, 5].contains tbl
  else if op = 6 then [3, 7, 4, 5].contains tbl
  else if op = 7 then tbl == 2
  else false

/-- Whether BCAST is given as the operation requires or refuses it. -/
def bcastFits (op tbl : Nat) (b : Bool) : Bool :=
  if op = 1 ∨ op = 2 then b == (tbl != 2)
  else if op = 4 then b
  else if op = 5 then b == (tbl != 7)
  else !b

/-- A GO that is refused (R139). -/
def dirRefused (sl : Nat) (val : Word) (s : State) : Bool :=
  s.rb (Reg.dirCmdStat sl) 31 || !opAccepts (fld val 3 0) (fld val 11 8) || !bcastFits (fld val 3 0) (fld val 11 8) (bitOf val 17) ||
    (bitOf val 17 && sl != 0)

/-- A word of a command. -/
def ck (c : DirCmd) (i : Nat) : Nat := (c.keys.getD i 0).toNat
def cd (c : DirCmd) (i : Nat) : Nat := (c.data.getD i 0).toNat

/-- The STATIC or LEARN key of a command: TENANCY, FID, MAC. -/
def cmdMacKey (c : DirCmd) : Nat := ck c 1 * 2 ^ 32 + ck c 0

/-- The EXT key of a command. -/
def cmdExtKey (c : DirCmd) : Nat := ck c 2 * 2 ^ 64 + ck c 1 * 2 ^ 32 + ck c 0

/-- The address, prefix length and root of an LPM command. -/
def cmdLpm (c : DirCmd) : Bool × Nat × Nat × Nat :=
  let v6 := c.table == 5
  let k := if v6 then ck c 4 else ck c 1
  (v6, (if v6 then ((ck c 3 * 2 ^ 32 + ck c 2) * 2 ^ 32 + ck c 1) * 2 ^ 32 + ck c 0 else ck c 0), k % 256, k / 256 % 4)

/-- A prefix without the address bits below its length. -/
def trimAddr (v6 : Bool) (addr plen : Nat) : Nat := addr / 2 ^ (famBits v6 - plen) * 2 ^ (famBits v6 - plen)

def okRes (i : Nat) : CmdRes := { status := 0, index := i, data := [] }
def failRes (n : Nat) : CmdRes := { status := n, index := 0, data := [] }

/-- INSERT and DELETE of STATIC in the staging copy and the shadow of one slice: the state, and the Room's STATUS and slot (R30, R132, R134, R139). -/
def staticOne (s : State) (c : DirCmd) (sl : Nat) : State × Nat × Nat :=
  let key := cmdMacKey c
  let e : DirEntry := { key := key, data := cd c 0 % 2 ^ 28 }
  let x := s.slice sl
  let seed := s.reg (Reg.dirHashSeedStatic sl)
  let present := (hashFind x.statS 1 0 seed key).isSome
  let put (tb : NMap (List DirEntry)) : State :=
    if hasShadow s sl 1 then
      let sh := if c.op = 2 then (hashDelete x.statShadow 1 0 (newSeedOf s sl 1) key, true) else shadowInsert s sl 1 x.statShadow e
      let t := s.setSlice sl { x with statS := tb, statShadow := sh.1 }
      if sh.2 then t else shadowFails t sl 1
    else s.setSlice sl { x with statS := tb }
  if c.op = 2 then
    if present then (put (hashDelete x.statS 1 0 seed key), 0, hashSlot x.statS 1 0 seed key) else (s, 2, 0)
  else if present then (put (hashUpdate x.statS 1 0 seed e), 1, hashSlot x.statS 1 0 seed key)
  else match hashInsert x.statS 1 0 seed (kicksOf s sl 1) e with
    | some tb => (put tb, 0, hashSlot tb 1 0 seed key)
    | none =>
      let t := s.count (Reg.dirInsFailCnt sl)
      ((if t.rb (Reg.dirHashCfgStatic sl) 8 then rehashRequest t sl 1 else t), 3, 0)

/-- INSERT and DELETE of STATIC in every slice, each Room with its own STATUS and slot (R139). -/
def staticPut (s : State) (c : DirCmd) : State × CmdRes :=
  let r := (List.range 16).foldl (fun (acc : State × List (Nat × Nat)) sl => let o := staticOne acc.1 c sl; (o.1, acc.2 ++ [o.2])) (s, [])
  (r.1, { status := (r.2.getD 0 (0, 0)).1, index := (r.2.getD 0 (0, 0)).2, data := [], each := r.2 })

/-- The buckets whose contents differ between two tables. -/
def changedBuckets (t u : NMap (List DirEntry)) : List Nat := ((t ++ u).map (·.1)).eraseDups.filter fun b => bucketAt t b != bucketAt u b

/-- The extension table, or its shadow, is changed by a Directory: the lines of the buckets that change are written (R140). -/
def extWrite (s : State) (shadow : Bool) (t u : NMap (List DirEntry)) : State :=
  let one (d : DramSt) (b : Nat) : DramSt :=
    let l := extLineOf s shadow b
    { d with mem := memWrite d.mem (l * 64) (Config.extEncode ((bucketAt u b).map fun e => (e.key, e.data))), poison := d.poison.filter (· != l), direct := d.direct.filter (· != l) }
  let s1 := (changedBuckets t u).foldl (fun v b => fillBlock v (extLineOf s shadow b)) s
  { s1 with dirs := (if shadow then { s.dirs with extShadow := u } else { s.dirs with ext := u }), dram := (changedBuckets t u).foldl one s1.dram }

/-- A change of the extension table in use: every bucket written is invalidated in every slice (R140). -/
def extChange (s : State) (u : NMap (List DirEntry)) : State :=
  let t := extView s false
  (changedBuckets t u).foldl invalidate (extWrite s false t u)

/-- A change that also reaches the shadow while one is being built or waits for its epoch (R134). -/
def extShadowPut (s : State) (c : DirCmd) (e : DirEntry) : State :=
  if !hasShadow s 0 6 then s
  else
    let t := extView s true
    if c.op = 2 then extWrite s true t (hashDelete t 6 extBits (newSeedOf s 0 6) e.key)
    else
      let r := shadowInsert s 0 6 t e
      if r.2 then extWrite s true t r.1 else shadowFails s 0 6

/-- INSERT and DELETE of EXT: the DRAM buckets are written and then invalidated in every slice; a bucket on a poisoned line is a DRAM error (R139, R140). -/
def extPut (s : State) (c : DirCmd) : State × CmdRes :=
  let key := cmdExtKey c
  let seed := seedOf s 0 6 false
  let e : DirEntry := { key := key, data := cd c 0 % 2 ^ 28 }
  let p := bucketsOf 6 extBits seed key
  let t := extView s false
  let used (u : NMap (List DirEntry)) : Nat := hashSlot u 6 extBits seed key / 4
  let found := (hashFind t 6 extBits seed key).isSome
  if !s.dramReady || extPoisoned s false p.1 || extPoisoned s false p.2 then (s, failRes 6)
  else if c.op = 2 then
    if found then (extShadowPut (extChange s (hashDelete t 6 extBits seed key)) c e, okRes (used t)) else (s, failRes 2)
  else if found then (extShadowPut (extChange s (hashUpdate t 6 extBits seed e)) c e, { status := 1, index := used t, data := [] })
  else match hashInsert t 6 extBits seed (kicksOf s 0 6) e with
    | some u => (extShadowPut (extChange s u) c e, okRes (used u))
    | none =>
      let s1 := s.count (Reg.dirInsFailCnt 0)
      ((if s.rb (Reg.dirHashCfgExt 0) 8 then rehashRequest s1 0 6 else s1), failRes 3)

/-- INSERT and DELETE of a prefix in the staging image (R138). A prefix length beyond the family's width, or an address with bits
below it, is a bad key. -/
def lpmPut (s : State) (c : DirCmd) : State × CmdRes :=
  let k := cmdLpm c
  let v6 := k.1
  let addr := trimAddr v6 k.2.1 k.2.2.1
  let same (p : Prefix4) : Bool := p.v6 == v6 && p.root == k.2.2.2 && p.plen == k.2.2.1 && p.addr == addr
  if famBits v6 < k.2.2.1 ∨ addr ≠ k.2.1 then (s, failRes 4)
  else
    let had := s.dirs.lpmS.any same
    let rest := s.dirs.lpmS.filter fun p => !same p
    if c.op = 2 then (if had then ({ s with dirs := { s.dirs with lpmS := rest } }, okRes 0) else (s, failRes 2))
    else
      let l := rest ++ [{ v6 := v6, root := k.2.2.2, addr := addr, plen := k.2.2.1, result := cd c 0 % 2 ^ 28 }]
      let u := lpmUse l
      if 4194304 < u.1 ∨ 524288 < u.2 then (s, failRes 5)
      else ({ s with dirs := { s.dirs with lpmS := l } }, { status := b2n had, index := 0, data := [] })

/-- WRITE_IDX of TERN: a rule is written (R124, R139). -/
def ternWrite (s : State) (sl : Nat) (c : DirCmd) : State :=
  let x := s.slice sl
  let rule := c.keys ++ c.masks ++ [c.data.getD 0 0 &&& 0x8000FFFF]
  s.setSlice sl { x with tern := mapSet [] x.tern (cd c 1 % 2048) (if rule.all (· == 0) then [] else rule) }

/-- What a command on an epoch-class table or on EXT does (R30, R139, R140). -/
def dirWrite (s : State) (c : DirCmd) : State × CmdRes :=
  if c.op = 5 then
    if c.table = 3 then
      ({ s with dirs := { s.dirs with vlanS := mapSet 0 s.dirs.vlanS (ck c 0 % 4096) (c.data.getD 0 0) } }, okRes (ck c 0 % 4096))
    else
      let t := ck c 0 % 16
      ({ s with dirs := { s.dirs with rootS := mapSet 0 s.dirs.rootS (t + (if c.table = 5 then 16 else 0)) (cd c 0 % 8) } }, okRes t)
  else if c.table = 1 then staticPut s c
  else if c.table = 6 then (if c.op = 4 then (invalidate s (ck c 0 % 2 ^ 24), okRes (ck c 0 % 2 ^ 24)) else extPut s c)
  else lpmPut s c

/-- What a LOOKUP returns in DATA0 and DATA1 (R139). -/
def dirRead (s : State) (sl : Nat) (c : DirCmd) : CmdRes :=
  let x := s.slice sl
  let w (n : Nat) : Word := BitVec.ofNat 32 n
  let miss (t : Nat) : CmdRes := { status := 2, index := 0, data := [w (resWord false t 0)] }
  if c.op = 6 then
    if c.table = 3 then { status := 0, index := ck c 0 % 4096, data := [mapGet 0 (if c.active then s.dirs.vlanA else s.dirs.vlanS) (ck c 0 % 4096)] }
    else if c.table = 7 then
      let r := mapGet [] x.tern (cd c 1 % 2048)
      { status := 0, index := cd c 1 % 2048, data := (12 :: List.range 12).map fun i => r.getD i 0 }
    else { status := 0, index := ck c 0 % 16, data := [w (mapGet 0 (if c.active then s.dirs.rootA else s.dirs.rootS) (ck c 0 % 16 + (if c.table = 5 then 16 else 0)))] }
  else if c.table = 1 then
    let seed := if c.active then seedOf s sl 1 false else s.reg (Reg.dirHashSeedStatic sl)
    match hashFind (if c.active then x.statA else x.statS) 1 0 seed (cmdMacKey c) with
    | some e => { status := 0, index := hashSlot (if c.active then x.statA else x.statS) 1 0 seed (cmdMacKey c), data := [w (resWord true 1 e.data)] }
    | none => miss 1
  else if c.table = 2 then
    match hashFind x.learn 2 0 (seedOf s sl 2 false) (cmdMacKey c) with
    | some e => { status := 0, index := hashSlot x.learn 2 0 (seedOf s sl 2 false) (cmdMacKey c), data := [w (resWord true 2 (learnPort e.data)), w (learnStamp e.data)] }
    | none => miss 2
  else if c.table = 6 then
    let seed := seedOf s 0 6 false
    let p := bucketsOf 6 extBits seed (cmdExtKey c)
    let t := extView s false
    if !s.dramReady || extPoisoned s false p.1 || extPoisoned s false p.2 then { status := 6, index := 0, data := [] }
    else match hashFind t 6 extBits seed (cmdExtKey c) with
      | some e => { status := 0, index := hashSlot t 6 extBits seed (cmdExtKey c) / 4, data := [w (resWord true 6 e.data)] }
      | none => miss 6
  else
    let k := cmdLpm c
    match lpmFind (if c.active then s.dirs.lpmA else s.dirs.lpmS) k.1 k.2.2.2 k.2.1 with
    | some p => { status := 0, index := 0, data := [w (resWord true c.table p.result), w p.plen] }
    | none => miss c.table

/-- FLUSH (R139): the learned entries of a tenancy, optionally of one port, are deleted and counted. -/
def dirFlush (s : State) (sl : Nat) (c : DirCmd) : State × Nat :=
  let dead := (hashEntries (s.slice sl).learn).filter fun e =>
    e.key / 2 ^ 60 == ck c 1 / 2 ^ 28 && (!(cd c 0).testBit 31 || learnPort e.data == cd c 0 % 512)
  (dead.foldl (fun t e => learnDrop t sl e.key) s, dead.length)

/-! ### The insertion unit's work -/

/-- Host work is performed by the insertion unit: a host command's INSERT, DELETE or FLUSH of LEARN or WRITE_IDX of TERN, whose result is kept for DIR_CMD_DONE, or a
helper's DIR_LEARN, whose result waits for the helper (R131). -/
def doHost (s : State) (sl : Nat) (w : HostWork) : State :=
  let slot (t : State) := hashSlot (t.slice sl).learn 2 0 (seedOf t sl 2 false) w.key
  let c := (s.slice sl).cmd.getD default
  let r : State × Nat × Nat :=
    if w.op = 2 then
      match hashFind (s.slice sl).learn 2 0 (seedOf s sl 2 false) w.key with
      | some _ => (learnDrop s sl w.key, 0, slot s)
      | none => (s, 2, 0)
    else if w.op = 7 then let p := dirFlush s sl c; (p.1, 0, p.2)
    else if w.op = 5 then (ternWrite s sl c, 0, cd c 1 % 2048)
    else
      let p := learnPut s sl w.key w.port
      let t := if p.2 = 3 ∧ s.rb (Reg.dirHashCfgLearn sl) 8 then rehashRequest p.1 sl 2 else p.1
      (t, p.2, slot t)
  if w.ref = 0 then r.1.setSlice sl { r.1.slice sl with cmdRes := some { status := r.2.1, index := r.2.2, data := [] } }
  else { r.1 with help := { r.1.help with learned := mapSet 0 r.1.help.learned w.ref (r.2.1 + 1) } }

/-- LEARN_INSERT (R128, R131): the insertion unit performs one piece of work, alternating between host work and queued insertions
when both wait. -/
def execLearnInsert (sl : Nat) (s : State) : Host.Outcome State Fault Refusal :=
  let x := s.slice sl
  match x.hostQ, x.learnQ with
  | [], [] => .next s
  | w :: hr, [] => occur s.dataPath s (doHost (s.setSlice sl { x with hostQ := hr, lastHost := true }) sl w)
  | [], q :: lr => occur s.dataPath s (doLearn (s.setSlice sl { x with learnQ := lr, lastHost := false }) sl q)
  | w :: hr, q :: lr =>
    if x.lastHost then occur s.dataPath s (doLearn (s.setSlice sl { x with learnQ := lr, lastHost := false }) sl q)
    else occur s.dataPath s (doHost (s.setSlice sl { x with hostQ := hr, lastHost := true }) sl w)

/-- BUSY of a Room: it runs a command, a BCAST command included; in slice 0 until ALL_DONE (R139). -/
def dirBusy (s : State) (sl : Nat) : Bool :=
  (s.slice sl).cmd.isSome || s.dirs.bcastLeft.contains sl || (sl == 0 && !s.dirs.bcastLeft.isEmpty)

/-- The BUSY bits as the commands in progress make them. -/
def State.busyBits (s : State) : State := (List.range 16).foldl (fun t i => t.setRf (Reg.dirCmdStat i) 31 31 (b2n (dirBusy t i))) s

/-- A latched command is carried out: a change of LEARN or TERN goes to the insertion unit (R131), and everything else is done at once; its completion is published by DIR_CMD_DONE. -/
def dirPerform (s : State) (sl : Nat) (c : DirCmd) : State :=
  let finish (t : State) (r : CmdRes) : State := t.setSlice sl { t.slice sl with cmdRes := some r }
  if c.op ≠ 3 ∧ c.op ≠ 6 ∧ (c.table = 2 ∨ c.table = 7) then
    let x := s.slice sl
    s.setSlice sl { x with hostQ := x.hostQ ++ [{ op := c.op, key := cmdMacKey c, port := cd c 0 % 512, ref := 0 }] }
  else if c.op = 3 ∨ c.op = 6 then finish s (dirRead s sl c)
  else let r := dirWrite s c; finish r.1 r.2

/-- GO (R139): the command is latched, DONE and ALL_DONE fall, BUSY rises. -/
def dirStart (sl : Nat) (val : Word) (s : State) : State :=
  let c := latchCmd s sl val
  let s1 := s.setSlice sl { s.slice sl with cmd := some c, cmdRes := none }
  let s2 := if c.bcast then { s1 with dirs := { s1.dirs with bcastLeft := List.range 16 } } else s1
  let rooms := if c.bcast then List.range 16 else [sl]
  let s3 := rooms.foldl (fun t i => t.setRf (Reg.dirCmdStat i) 30 29 0) s2
  (dirPerform s3 sl c).busyBits

/-- A write of DIR_CMD with GO and a given OP. -/
def dirGo (op m sl : Nat) (val : Word) (s : State) : Host.Outcome State Fault Refusal :=
  occur (s.life.rails && decide (sl < 16) && bitOf val 31 && fld val 3 0 == op) s
    (s.command m (Reg.dirCmd sl) val (dirRefused sl val) (dirStart sl val))

/-- INSERT (R139). -/
def execDirInsert (m sl : Nat) (val : Word) (s : State) : Host.Outcome State Fault Refusal := dirGo 1 m sl val s
/-- DELETE (R139). -/
def execDirDelete (m sl : Nat) (val : Word) (s : State) : Host.Outcome State Fault Refusal := dirGo 2 m sl val s
/-- LOOKUP (R139). -/
def execDirLookupCmd (m sl : Nat) (val : Word) (s : State) : Host.Outcome State Fault Refusal := dirGo 3 m sl val s
/-- INVALIDATE (R139, R143). -/
def execDirInvalidate (m sl : Nat) (val : Word) (s : State) : Host.Outcome State Fault Refusal := dirGo 4 m sl val s
/-- WRITE_IDX (R139). -/
def execDirWriteIdx (m sl : Nat) (val : Word) (s : State) : Host.Outcome State Fault Refusal := dirGo 5 m sl val s
/-- READ_IDX (R139). -/
def execDirReadIdx (m sl : Nat) (val : Word) (s : State) : Host.Outcome State Fault Refusal := dirGo 6 m sl val s
/-- FLUSH (R139). -/
def execDirFlush (m sl : Nat) (val : Word) (s : State) : Host.Outcome State Fault Refusal := dirGo 7 m sl val s

/-- The result words of a command written back: DATA0 and DATA1, and for a ternary entry read, the keys and masks (R139, R572). -/
def dirResults (s : State) (sl : Nat) (d : List Word) : State :=
  let regs := [Reg.dirData0 sl] ++ (if d.length = 2 then [Reg.dirData1 sl]
    else [Reg.dirKey0 sl, Reg.dirKey1 sl, Reg.dirKey2 sl, Reg.dirKey3 sl, Reg.dirKey4 sl, Reg.dirKey5 sl,
      Reg.dirMask0 sl, Reg.dirMask1 sl, Reg.dirMask2 sl, Reg.dirMask3 sl, Reg.dirMask4 sl, Reg.dirMask5 sl])
  (regs.zip d).foldl (fun t p => t.setReg p.1 p.2) s

/-- DIR_CMD_DONE (R139, R140): a Directory has finished its command. For a BCAST command each of the sixteen finishes in turn, and ALL_DONE
is set with the last. -/
def execDirCmdDone (sl dt : Nat) (s : State) : Host.Outcome State Fault Refusal :=
  let s := advance s dt
  let x := s.slice sl
  let lead := if s.dirs.bcastLeft.contains sl then 0 else sl
  match (s.slice lead).cmdRes, (s.slice lead).cmd with
  | some r, some c =>
    let own := if c.bcast then r.each.getD sl (r.status, r.index) else (r.status, r.index)
    let put (t : State) : State := (((t.setRf (Reg.dirCmdStat sl) 30 30 1).setRf (Reg.dirCmdStat sl) 27 24 own.1).setRf (Reg.dirCmdStat sl) 23 0 own.2)
    if s.dirs.bcastLeft.contains sl then
      let left := s.dirs.bcastLeft.filter (· != sl)
      let s1 := put { s with dirs := { s.dirs with bcastLeft := left } }
      let s2 := if left.isEmpty then (s1.setSlice 0 { s1.slice 0 with cmd := none, cmdRes := none }).setRf (Reg.dirCmdStat 0) 29 29 1 else s1
      occur s.life.rails s s2.busyBits
    else if c.bcast then .next s
    else occur s.life.rails s (dirResults (put (s.setSlice sl { x with cmd := none, cmdRes := none })) sl r.data).busyBits
  | _, _ => .next s

/-! ### Rehash (R134) -/

/-- A BUILD that is refused: another is running, or BCAST is not as the table requires (R134). -/
def buildRefused (sl code : Nat) (val : Word) (s : State) : Bool :=
  if code = 2 then bitOf val 1 || (s.slice sl).building.contains 2
  else !bitOf val 1 || sl != 0 || (List.range 16).any fun i => (s.slice i).building.contains code

/-- A build begins in one Directory: its shadow under NEW_SEED. -/
def buildOne (s : State) (sl code : Nat) : State :=
  let x := s.slice sl
  let seed := newSeedOf s sl code
  let x := { x with building := x.building ++ [code], shadowBad := x.shadowBad.filter (· != code) }
  let s1 := (s.setRf (rehashReg sl code) 30 29 0)
  if code = 6 then
    let r := buildShadow (extView s false) 6 extBits seed (kicksOf s 0 6)
    extWrite (s1.setSlice sl { x with shadowBad := if r.2 then x.shadowBad else x.shadowBad ++ [6] }) true (extView s true) r.1
  else if code = 1 then
    let r := buildShadow x.statA 1 0 seed (kicksOf s sl 1)
    s1.setSlice sl { x with statShadow := r.1, shadowBad := if r.2 then x.shadowBad else x.shadowBad ++ [1] }
  else
    let r := buildShadow x.learn 2 0 seed (kicksOf s sl 2)
    s1.setSlice sl { x with learnShadow := r.1, shadowBad := if r.2 then x.shadowBad else x.shadowBad ++ [2] }

/-- BUILD (R134): a write of DIR_REHASH with BUILD; with BCAST it runs in every Directory under slice 0's NEW_SEED. -/
def execDirBuild (m sl code : Nat) (val : Word) (s : State) : Host.Outcome State Fault Refusal :=
  occur (s.life.rails && decide (sl < 16) && [1, 2, 6].contains code && bitOf val 0) s
    (s.command m (rehashReg sl code) val (buildRefused sl code val) fun s =>
      if code = 2 then buildOne s sl 2
      else
        let seedReg (i : Nat) := if code = 1 then Reg.dirNewSeedStatic i else Reg.dirNewSeedExt i
        let s1 := (List.range 16).foldl (fun t i => t.setReg (seedReg i) (t.reg (seedReg 0))) s
        if code = 6 then buildOne s1 0 6 else (List.range 16).foldl (fun t i => buildOne t i 1) s1)

/-- BUILD_DONE (R134): a Directory's build completes; slice 0's BUILT or FAILED for a BCAST build waits for every Directory. -/
def execBuildDone (sl code dt : Nat) (s : State) : Host.Outcome State Fault Refusal :=
  let s := advance s dt
  let x := s.slice sl
  let s1 := s.setSlice sl { x with building := x.building.filter (· != code) }
  let mark (t : State) (i : Nat) (bad : Bool) : State := if bad then t.setRf (rehashReg i code) 29 29 1 else t.setRf (rehashReg i code) 30 30 1
  let anyLeft := (List.range 16).any fun i => (s1.slice i).building.contains 1
  let anyBad := (List.range 16).any fun i => (s1.slice i).shadowBad.contains 1
  occur (s.life.rails && x.building.contains code && s.dramReadyFor code) s
    (if code = 1 then
      let s2 := if sl = 0 then s1 else mark s1 sl (x.shadowBad.contains 1)
      if anyLeft then s2 else mark s2 0 anyBad
    else mark s1 sl (x.shadowBad.contains code))

end Sys2Proof.Machine
end

