-- ==== Sys2Proof/Machine/Macsec.lean ====
section
/-! DEFINITION. MACsec at the ports (R493 to R498): verification of received frames before the Sorter and protection of sent
frames after the Editor. The frame format is that of IEEE 802.1AE (log entry 10). -/

namespace Sys2Proof.Machine

/-! ### Lanes and ports (R70, R71) -/

/-- A lane's configured mode. -/
def laneMode (s : State) (lane : Nat) : Nat := s.rf (Reg.laneCfg lane) 3 0

/-- Lanes of a mode's group (R70). -/
def groupSize (mode : Nat) : Nat := if mode = 5 ∨ mode = 8 then 4 else if mode = 7 then 2 else 1

/-- The first lane of the group a lane belongs to: itself, or the lane whose multi-lane mode it follows. -/
def groupLane (s : State) (lane : Nat) : Nat :=
  let a := lane / 4 * 4
  let b := lane / 2 * 2
  if groupSize (laneMode s a) = 4 then a else if groupSize (laneMode s b) = 2 then b else lane

/-- Whether a port number names a MAC (R71, R531). -/
def portExists (s : State) (p : Nat) : Bool :=
  let l := p / 4
  let m := laneMode s l
  decide (p < 512) && groupLane s l == l && !s.life.lanesFailed.contains l &&
    (if m = 4 then true else p % 4 == 0 && (m == 1 || m == 2 || m == 3 || m == 5))

/-- Rate of a port in Mb/s. -/
def portRate (s : State) (p : Nat) : Nat :=
  let m := laneMode s (p / 4)
  if m = 1 then 1000 else if m = 2 then 10000 else if m = 3 then 25000 else if m = 4 then 2500 else if m = 5 then 100000 else 0

/-- The time n bytes take on a port, in 2⁻¹⁶ ns. -/
def byteTime (s : State) (p n : Nat) : Nat := if portRate s p = 0 then 0 else n * 8 * 1000 * nsUnit / portRate s p

/-- MAX_LEN of a port. -/
def maxLen (s : State) (p : Nat) : Nat := s.rf (pReg Reg.portMacCfg p) 13 0

/-! ### MACsec -/

/-- Whether MACsec acts on the frames a port receives: enabled and not Disabled. -/
def rxSecured (s : State) (p : Nat) : Bool := s.rb (pReg Reg.portMacsecCfg p) 31 && s.rf (pReg Reg.portMacsecCfg p) 25 24 != 0

/-- Word w of SA entry i of a port. -/
def saWord (s : State) (p i w : Nat) : Word := (mapGet [] (s.port p).sas i).getD w 0

/-- A port with a word of an SA entry set. -/
def setSaWord (s : State) (p i w : Nat) (v : Word) : State :=
  let x := s.port p
  let e := mapGet [] x.sas i
  s.setPort p { x with sas := mapSet [] x.sas i (modAt (e ++ List.replicate (16 - e.length) 0) w fun _ => v) }

/-- PN of an SA entry, as 64 bits. -/
def saPn (s : State) (p i : Nat) : Nat := (saWord s p i 3).toNat * 2 ^ 32 + (saWord s p i 4).toNat

/-- An SA entry with a PN. -/
def setSaPn (s : State) (p i pn : Nat) : State :=
  setSaWord (setSaWord s p i 3 (BitVec.ofNat 32 (pn / 2 ^ 32 % 2 ^ 32))) p i 4 (BitVec.ofNat 32 (pn % 2 ^ 32))

/-- The key of an SA entry. -/
def saKey (s : State) (p i : Nat) : List Byte :=
  let k := mapGet default s.keySlots (fld (saWord s p i 0) 11 0)
  k.data.take (if s.rf (pReg Reg.portMacsecCfg p) 30 29 % 2 = 1 then 32 else 16)

/-- Whether the port's suite numbers packets with 64 bits. -/
def isXpn (s : State) (p : Nat) : Bool := decide (2 ≤ s.rf (pReg Reg.portMacsecCfg p) 30 29)

/-- The GCM IV of an SA and PN: SCI and PN, or for XPN the salt with SSCI and PN added modulo 2. -/
def saIv (s : State) (p i pn : Nat) : List Byte :=
  let w (k : Nat) := (saWord s p i k).toNat
  if isXpn s p then
    beBytes 12 (Nat.xor ((w 6 * 2 ^ 32 + w 7) * 2 ^ 32 + w 8) (w 5 * 2 ^ 64 + pn))
  else beBytes 4 (w 1) ++ beBytes 4 (w 2) ++ beBytes 4 (pn % 2 ^ 32)

/-- The confidentiality offset of a port. -/
def secOffset (s : State) (p : Nat) : Nat := ([0, 30, 50, 0] : List Nat).getD (s.rf (pReg Reg.portMacsecCfg p) 27 26) 0

/-- The valid receive SA of an SCI (if the frame carries one) and AN. -/
def rxSa (s : State) (p : Nat) (sci : Option (List Byte)) (an : Nat) : Option Nat :=
  ((List.range 8).map (· + 2)).find? fun i =>
    bitOf (saWord s p i 0) 31 && fld (saWord s p i 0) 30 29 == an &&
      (match sci with | some b => b == beBytes 4 (saWord s p i 1).toNat ++ beBytes 4 (saWord s p i 2).toNat | none => true)

/-- A received packet number in full: XPN recovers the upper half from the lowest acceptable PN. -/
def fullPn (s : State) (p i low : Nat) : Nat :=
  if isXpn s p then
    let b := saPn s p i
    let hi := b / 2 ^ 32
    (if low < 2 ^ 31 ∧ 2 ^ 31 ≤ b % 2 ^ 32 then hi + 1 else hi) * 2 ^ 32 + low
  else low

/-- How a received frame fares: the counter of its failure if any, the frame without SecTAG and ICV if it verified, and the SA and PN
used. -/
structure RxSecRes where
  fail : Option Nat
  plain : List Byte
  sa : Nat
  pn : Nat

/-- Verification of a received frame without its FCS (R494). -/
def verifyRx (s : State) (p : Nat) (f : List Byte) : RxSecRes :=
  if beNat (slice f 12 2) ≠ 0x88E5 then { fail := some (pReg Reg.portMacsecUntagCnt p), plain := f, sa := 0, pn := 0 }
  else
    let tci := hbAt f 14
    let hasSci := tci / 32 % 2 = 1
    let tagLen := if hasSci then 16 else 8
    let low := beNat (slice f 16 4)
    match rxSa s p (if hasSci then some (slice f 20 8) else none) (tci % 4) with
    | none => { fail := some (pReg Reg.portMacsecNosaCnt p), plain := f, sa := 0, pn := 0 }
    | some i =>
      let pn := fullPn s p i low
      let body := (f.drop (12 + tagLen)).take (f.length - 12 - tagLen - 16)
      let icv := f.drop (f.length - 16)
      let enc := tci / 8 % 2 = 1
      let clear := if enc then min (secOffset s p) body.length else body.length
      let aad := f.take (12 + tagLen) ++ body.take clear
      let r := gcmDec (saKey s p i) (saIv s p i pn) aad (body.drop clear)
      if pn < saPn s p i ∨ pn = 0 then { fail := some (pReg Reg.portMacsecReplayCnt p), plain := f, sa := i, pn := pn }
      else if f.length < 12 + tagLen + 16 ∨ r.2 ≠ icv then { fail := some (pReg Reg.portMacsecIcvCnt p), plain := f, sa := i, pn := pn }
      else { fail := none, plain := f.take 12 ++ body.take clear ++ r.1, sa := i, pn := pn }
where
  hbAt (f : List Byte) (i : Nat) : Nat := (f.getD i 0).toNat

/-- A received frame (without FCS) meets MACsec (R494): verified it goes on in the clear and raises the lowest acceptable PN by the
window; failed it is counted, and goes on as received in Check mode and not at all in Strict mode. -/
def secureRx (s : State) (p : Nat) (f : List Byte) : State × Option (List Byte) :=
  let r := verifyRx s p f
  match r.fail with
  | some cnt =>
    let s1 := s.count cnt
    if s.rf (pReg Reg.portMacsecCfg p) 25 24 = 2 then (s1, none) else (s1, some f)
  | none =>
    let low := r.pn + 1 - s.rf (pReg Reg.portMacsecCfg p) 15 0
    let s1 := setSaPn s p r.sa (max (saPn s p r.sa) low)
    (s1.stat (portSet p) 23, some r.plain)

/-- Bytes MACsec adds to a frame. -/
def secOverhead (s : State) (p : Nat) : Nat :=
  if s.rb (pReg Reg.portMacsecCfg p) 31 then (if s.rb (pReg Reg.portMacsecCfg p) 23 then 32 else 24) else 0

/-- The space of packet numbers of a port's suite. -/
def pnSpace (s : State) (p : Nat) : Nat := if isXpn s p then 2 ^ 64 else 2 ^ 32

/-- The packet number of a transmit SA taken: the next PN goes up by 1, and MACSEC_PN is raised as it passes three quarters of its space. -/
def takePn (s : State) (p i pn : Nat) : State :=
  let s1 := setSaPn s p i (pn + 1)
  let s2 := if pn ≤ pnSpace s p / 4 * 3 ∧ pnSpace s p / 4 * 3 < pn + 1 then s1.raise 0x0802 (48 + p / 32) p i else s1
  s2.stat (portSet p) 24

/-- A frame (without FCS) sent under MACsec (R495): the SecTAG and ICV added under the next PN, MACSEC_PN raised as the next PN passes
three quarters of its space; none when the SA is not valid or has no PN left. -/
def secureTx (s : State) (p : Nat) (f : List Byte) : State × Option (List Byte) :=
  let cfg := s.reg (pReg Reg.portMacsecCfg p)
  let i := fld cfg 22 22
  let pn := saPn s p i
  let spc := pnSpace s p
  if !bitOf (saWord s p i 0) 31 ∨ pn = 0 ∨ spc ≤ pn then (s.count (pReg Reg.portMacsecPnCnt p), none)
  else
    let sci := bitOf cfg 23
    let enc := bitOf cfg 28
    let body := f.drop 12
    let tci := (if sci then 0x20 else 0) + (if enc then 0x0C else 0) + fld (saWord s p i 0) 30 29
    let short := if body.length < 48 then body.length else 0
    let tag := beBytes 2 0x88E5 ++ beBytes 1 tci ++ beBytes 1 short ++ beBytes 4 (pn % 2 ^ 32) ++
      (if sci then beBytes 4 (saWord s p i 1).toNat ++ beBytes 4 (saWord s p i 2).toNat else [])
    let clear := if enc then min (secOffset s p) body.length else body.length
    let aad := f.take 12 ++ tag ++ body.take clear
    let r := gcmEnc (saKey s p i) (saIv s p i pn) aad (body.drop clear)
    (takePn s p i pn, some (f.take 12 ++ tag ++ body.take clear ++ r.1 ++ r.2))

end Sys2Proof.Machine
end

