-- ==== Sys2Proof/Machine/Depot.lean ====
section
/-! DEFINITION. The Depot's store and admission: cells and frames (R316 to R322), buffer sharing (R335 to R337), WRED (R338, R339),
pigeonholes (R324 to R326), multicast (R327, R328), mirroring (R344 to R346), redundancy (R351, R353) and the admission order (R347). -/

namespace Sys2Proof.Machine

/-! ### Cells and frames -/

/-- Cells of the cell memory. -/
def cellCount : Nat := 393216

/-- Whether a frame stands in the cell memory. -/
def hasFrame (s : State) (c : Nat) : Bool := s.frames.any fun p => p.1 == c

/-- Whether a cell is free to be taken. -/
def cellFree (s : State) (c : Nat) : Bool :=
  decide (c < cellCount) && !s.depot.leaked.contains c && !(s.frames.any fun p => p.1 == c || p.2.cells.contains c)

/-- Whether a pigeonhole is of class 7 (R336). -/
def phX7 (h : Nat) : Bool := decide (h < 4352) && h % 8 == 7

/-- use(h): the cells charged to a pigeonhole (R335). -/
def phUse (s : State) (h : Nat) : Nat := (s.frames.map fun p => (p.2.charges.filter (· == h)).length * p.2.cells.length).foldl (· + ·) 0

/-- MIN_CELLS of a pigeonhole. -/
def phMin (s : State) (h : Nat) : Nat := s.rf (Reg.phCfg h) 15 0

/-- Landing cells of classes 0 to 6 of a slice (R321). -/
def landingOf (s : State) (sl : Nat) : Nat :=
  (s.frames.map fun p => if p.2.landing = some sl ∧ !p.2.xpr then p.2.cells.length else 0).foldl (· + ·) 0

/-- Landing cells of every slice, of a kind. -/
def landingAll (s : State) (xpr : Bool) : Nat :=
  (s.frames.map fun p => if p.2.landing.isSome ∧ p.2.xpr = xpr then p.2.cells.length else 0).foldl (· + ·) 0

/-- The pigeonholes that cells are charged to. -/
def charged (s : State) : List Nat := (s.frames.flatMap fun p => p.2.charges).eraseDups

/-- The sum of MIN_CELLS over the pigeonholes that are not class 7 (R337): 3,872 registers of which those written differ from 32. -/
def sumMin (s : State) : Nat :=
  let d : Int := (s.regs.map fun p =>
    if Reg.phCfg 0 ≤ p.1 ∧ p.1 < Reg.phCfg 4416 ∧ p.1 % 64 = 0 ∧ !phX7 ((p.1 - Reg.phCfg 0) / 64) then ((fld p.2 15 0 : Int) - 32) else 0).foldl (· + ·) 0
  ((123904 : Int) + d).toNat

/-- Free cells of the shared pool: its size under R337, less what pigeonholes hold beyond MIN_CELLS and what is landing (R335; log entry 11). -/
def sharedFree (s : State) : Nat :=
  cellCount - s.rf Reg.depotPoolCfg 18 0 - sumMin s
    - (((charged s).filter fun h => !phX7 h).map fun h => phUse s h - phMin s h).foldl (· + ·) 0 - landingAll s false - s.depot.leaked.length

/-- Free cells of the express pool (R336, R337). -/
def expressFree (s : State) : Nat :=
  s.rf Reg.depotPoolCfg 18 0 - (((charged s).filter phX7).map fun h => phUse s h).foldl (· + ·) 0 - landingAll s true

/-- A cell withheld from the free list and counted (R319, R505). -/
def leakCell (s : State) (c : Nat) : State :=
  if s.depot.leaked.contains c ∨ cellCount ≤ c then s
  else ({ s with depot := { s.depot with leaked := s.depot.leaked ++ [c] } }).count Reg.depotLeakCells

/-- A frame leaves the cell memory: its chain returns to the free list (R318). -/
def freeFrame (s : State) (c : Nat) : State := { s with frames := mapErase s.frames c }

/-- An envelope or copy gives up its hold on a frame, and the charge of its pigeonhole (R318). -/
def dropRef (s : State) (c : Nat) (ph : Option Nat) : State :=
  if hasFrame s c then
    let f := s.frame c
    let ch := match ph with | some h => f.charges.erase h | none => f.charges
    if f.refs ≤ 1 then freeFrame s c else s.setFrame c { f with refs := f.refs - 1, charges := ch }
  else s

/-- A copy takes a hold on a frame (R318). -/
def addRef (s : State) (c : Nat) : State := if hasFrame s c then s.setFrame c { s.frame c with refs := (s.frame c).refs + 1 } else s

/-- A void ends in the Depot: its hold goes and its cause is counted (R60). -/
def freeVoid (s : State) (e : Env) : State :=
  let c := eDropCause e
  let s1 := dropRef s (eCell e) none
  if 1 ≤ c ∧ c ≤ 8 then s1.count (Reg.depotVoidCnt (c - 1)) else if 0x80 ≤ c then s1.count Reg.depotVoidFwCnt else s1

/-! ### Pigeonholes -/

/-- Whether an enabled lane group carries a Courier link (R325). -/
def linkCarried (s : State) (k : Nat) : Bool :=
  (List.range 128).any fun l => decide (6 ≤ laneMode s l) && decide (laneMode s l ≤ 8) && s.rb (Reg.laneCfg l) 16 && s.rf (Reg.laneCfg l) 23 19 == k &&
    !s.life.lanesFailed.contains l

/-- Admission step 4: the pigeonhole exists, is enabled and takes the envelope's tenancy; a port of a tenancy that is not
ACTIVE accepts nothing (R325, R326, R478, R480, R481). -/
def phAccepts (s : State) (h ten : Nat) : Bool :=
  if h < 4096 then
    portExists s (h / 8) && (ten == portTenancy s (h / 8) false || ten == 0) && tenActive s (portTenancy s (h / 8) false)
  else if h < 4352 then linkCarried s ((h - 4096) / 8)
  else decide (h < 4416) && s.rb (Reg.intCfg0 (h - 4352)) 31

/-- Admission step 5: the buffer threshold for n cells (R335, R336). -/
def phRoom (s : State) (h n : Nat) : Bool :=
  let u := phUse s h
  let m := phMin s h
  if phX7 h then decide (u + n ≤ m)
  else decide (u + n ≤ m) || decide (((u - m) + n) * 64 ≤ 2 ^ (s.rf (Reg.phCfg h) 23 20) * sharedFree s)

/-- The average occupancy of a pigeonhole brought up to date, in 2⁻³² cells (R338). -/
def wredAvg (s : State) (h : Nat) : Nat :=
  let a : Int := ((mapGet 0 s.depot.phAvg h : Nat) : Int)
  let d : Int := (phUse s h : Int) * 2 ^ 32 - a
  (a + d / (2 ^ s.rf (Reg.phCfg h) 27 24)).toNat

/-- What WRED does with a frame: 0 admits it, 1 marks it, 2 drops it (R338, R339). `draw` is the 32-bit random draw. -/
def wredJudge (s : State) (h avg draw : Nat) (e : Env) : Nat :=
  let p := s.reg (if eColour e = 0 then Reg.phWred0 h else if eColour e = 1 then Reg.phWred1 h else Reg.phWred2 h)
  let mn := fld p 10 0 * 32 * 2 ^ 32
  let mx := fld p 21 11 * 32 * 2 ^ 32
  if !bitOf p 31 ∨ avg ≤ mn then 0
  else if mx ≤ avg then 2
  else if draw % 2 ^ 32 * 256 * (mx - mn) < fld p 29 22 * (avg - mn) * 2 ^ 32 then (if bitOf p 30 ∧ eEct e = true then 1 else 2)
  else 0

/-- Admission steps 4 to 6 of an envelope or copy at a pigeonhole (R347): the state with what is counted and charged, and the envelope
if it is admitted. Every test updates the average occupancy (R338); class 7 takes no WRED (R336). -/
def admitAt (s : State) (h : Nat) (e : Env) : State × Option Env :=
  let c := eCell e
  let n := (s.frame c).cells.length
  let a := wredAvg s h
  let s1 := { s with depot := { s.depot with phAvg := mapSet 0 s.depot.phAvg h a } }
  if !phAccepts s h (eTenancy e) then (s.count Reg.depotNoportCnt, none)
  else if !phRoom s h n then (s1.count (Reg.phDropCnt h), none)
  else
    let charge (s : State) : State := if hasFrame s c then s.setFrame c { s.frame c with charges := (s.frame c).charges ++ [h] } else s
    if phClass h (eClass e) = 7 then (charge s1, some e)
    else
      let j := wredJudge s h a s.freeValue e
      if j = 2 then (s1.drawn.count (Reg.phWredCnt h), none)
      else if j = 1 then (charge (s1.drawn.count (Reg.phEcnCnt h)), some (setEf e 11 14 14 1))
      else (charge s1.drawn, some e)

/-- An envelope enters a pigeonhole. -/
def intoPh (s : State) (h : Nat) (e : Env) : State :=
  { s with depot := { s.depot with ph := mapSet [] s.depot.ph h (mapGet [] s.depot.ph h ++ [e]) } }

/-- A copy, which already has its hold on the frame, is admitted into a pigeonhole directly, or dropped. -/
def copyInto (s : State) (h : Nat) (e : Env) : State :=
  match admitAt s h e with
  | (s1, some e1) => intoPh s1 h e1
  | (s1, none) => dropRef s1 (eCell e) none

/-! ### Mirroring and sampling (R344 to R346) -/

/-- The envelope of a mirror or sample copy (R346). -/
def copyEnv (e : Env) (dest : Nat) (trunc sample : Bool) : Env :=
  let cls := if dest < 4352 ∧ !sample then dest % 8 else if eClass e = 7 then 6 else eClass e
  let e := setEf (setEf (setEf (setEf e 10 15 8 0) 10 7 7 0) 11 17 17 0) 11 12 12 (b2n trunc)
  let e := setEf (setEf e 1 25 23 cls) 9 31 19 dest
  let e := if dest < 4096 then setEf e 9 18 10 (dest / 8) else e
  e.take 16 ++ [1]

/-- One copy of a frame made into a pigeonhole. -/
def makeCopy (s : State) (e : Env) (dest : Nat) (trunc sample : Bool) : State :=
  copyInto (addRef s (eCell e)) dest (copyEnv e dest trunc sample)

/-- Whether a mirror session copies an envelope that is moved or admitted (`released` false), or released for a port. -/
def mirrorHits (s : State) (i : Nat) (e : Env) (released : Bool) (port : Nat) : Bool :=
  let c := s.reg (Reg.mirCfg i)
  let d := fld c 30 29
  bitOf c 31 && (if released then d == 1 && fld c 8 0 == port
    else (d == 0 && eSrc e == 0 && fld c 8 0 == eInPort e) || (d == 2 && (eMirror e).testBit i))

/-- The copies made after an envelope has been moved or admitted, or released: the sample copy first, then sessions 0 to 7 (R346). -/
def mirrorCopies (s : State) (e : Env) (released : Bool) (port : Nat) : State :=
  let s1 := if !released && eSample e then makeCopy s e (4352 + s.rf Reg.depotSampleCfg 5 0) true true else s
  (List.range 8).foldl (fun t i =>
    if mirrorHits t i e released port then makeCopy t e (t.rf (Reg.mirCfg i) 21 9) (t.rb (Reg.mirCfg i) 28) false else t) s1

/-! ### Redundancy (R351 to R353) -/

/-- The enabled redundancy instance that has a port as A or B, and whether as B. -/
def redOf (s : State) (port : Nat) : Option (Nat × Bool) :=
  (List.range 16).findSome? fun r =>
    let c := s.reg (Reg.redCfg0 r)
    if bitOf c 31 ∧ fld c 26 18 = port then some (r, false) else if bitOf c 31 ∧ fld c 17 9 = port then some (r, true) else none

def redA (s : State) (r : Nat) : Nat := s.rf (Reg.redCfg0 r) 26 18
def redB (s : State) (r : Nat) : Nat := s.rf (Reg.redCfg0 r) 17 9
def redMode (s : State) (r : Nat) : Nat := s.rf (Reg.redCfg0 r) 30 28

/-- The time in ms that receipt book stamps count. -/
def msNow (s : State) : Nat := s.now / (1000000 * nsUnit)

/-- The bucket of a receipt book. -/
def bookKey (r mac seq : Nat) : Nat := r * 16384 + Config.bookHash mac seq % 16384

/-- The live entries of a bucket: one older than ENTRY_AGE is treated as absent. -/
def bookLive (s : State) (r k : Nat) : List Receipt :=
  (mapGet [] s.depot.books k).filter fun e => decide (msNow s - e.stamp ≤ s.rf (Reg.redCfg1 r) 31 16)

/-- The receipt of a source and sequence number. -/
def bookFind (s : State) (r mac seq : Nat) : Option Receipt :=
  (bookLive s r (bookKey r mac seq)).find? fun e => e.mac == mac && e.seq == seq

/-- A receipt entered: over its own entry, in a free place, or over the oldest of a full bucket, which is counted (R351). -/
def bookPut (s : State) (r : Nat) (e : Receipt) : State :=
  let k := bookKey r e.mac e.seq
  let rest := (bookLive s r k).filter fun x => !(x.mac == e.mac && x.seq == e.seq)
  let set (s : State) (l : List Receipt) : State := { s with depot := { s.depot with books := mapSet [] s.depot.books k l } }
  if rest.length < 4 then set s (rest ++ [e])
  else
    let oldest := rest.foldl (fun (m : Nat) x => min m x.stamp) (rest.headD default).stamp
    let i := (rest.findIdx? fun x => x.stamp == oldest).getD 0
    (set s (dropAt rest i ++ [e])).count (Reg.redEvictCnt r)

/-- The source MAC of a frame. -/
def frameSrc (s : State) (c : Nat) : Nat := beNat (slice (s.frame c).bytes 6 6)

/-- Admission step 3 for a frame received on a redundancy port (R351): the receipt book is looked up. -/
def receiptCheck (s : State) (e : Env) : State × Bool :=
  match if eSrc e = 0 then redOf s (eInPort e) else none with
  | none => (s, true)
  | some (r, isB) =>
    let f := s.frame (eCell e)
    let s := s.stat (redSet r) (if isB then 3 else 2)
    if !f.rctOk then ((s.count (Reg.redNotagCnt r)).stat (redSet r) 4, true)
    else
      let mac := frameSrc s (eCell e)
      let old := (bookFind s r mac f.rseq).getD { mac := mac, seq := f.rseq, self := false, seenA := false, seenB := false, stamp := msNow s }
      if old.self then (s.stat (redSet r) 5, false)
      else if (if isB then old.seenA else old.seenB) then (s.count (Reg.redDupCnt r), false)
      else if (if isB then old.seenB else old.seenA) then (s.count (Reg.redSameLanCnt r), false)
      else
        let new := { old with seenA := old.seenA || !isB, seenB := old.seenB || isB, stamp := msNow s }
        ((bookPut s r new).stat (redSet r) 4, true)

/-- Whether a frame arrived on A or B of an instance. -/
def fromRed (s : State) (r : Nat) (e : Env) : Bool := eSrc e == 0 && (eInPort e == redA s r || eInPort e == redB s r)

/-- The ports a frame's copies go to by its lookup result once redundancy has its say (R351, R353): a copy for A or B from outside becomes copies for both; a frame from A or
B gets none for either, the ring copy of an HSR instance being made apart. -/
def redPorts (s : State) (e : Env) (ports : List Nat) : List Nat :=
  (List.range 16).foldl (fun ps r =>
    if !s.rb (Reg.redCfg0 r) 31 then ps
    else
      let a := redA s r
      let b := redB s r
      if fromRed s r e then ps.filter fun p => p != a && p != b
      else if ps.contains a ∨ ps.contains b then (ps.filter fun p => p != a && p != b) ++ [a, b] else ps) ports

/-- RSEQ assigned for each instance that sends the frame onto A and B, and its receipt entered with SELF (R351). -/
def redAssign (s : State) (e : Env) (ports : List Nat) : State :=
  (List.range 16).foldl (fun t r =>
    if t.rb (Reg.redCfg0 r) 31 ∧ !fromRed t r e ∧ (ports.contains (redA t r) ∨ ports.contains (redB t r)) then
      let q := mapGet 0 t.depot.rseqCtr r
      let t1 := { t with depot := { t.depot with rseqCtr := mapSet 0 t.depot.rseqCtr r ((q + 1) % 65536) } }
      let t2 := if hasFrame t1 (eCell e) then t1.setFrame (eCell e) { t1.frame (eCell e) with rseqV := true, rseq := q } else t1
      bookPut t2 r { mac := frameSrc t2 (eCell e), seq := q, self := true, seenA := false, seenB := false, stamp := msNow t2 }
    else t) s

/-! ### Virtual output queues -/

/-- The number of virtual output queue (i, e, c) (R323). -/
def voqNo (i e c : Nat) : Nat := (i * 16 + e) * 8 + c

/-- The ingress position of an envelope (R323). -/
def voqPos (e : Env) : Nat :=
  let n := eInPort e
  match eSrc e with
  | 0 => n / 32 % 16
  | 1 => n % 16
  | 2 => (2 * n + 1) % 16
  | _ => (4 * n + 3) % 16

/-- An entry joins the queue of its position, egress slice and class, in order of arrival. -/
def intoVoq (s : State) (sl cls : Nat) (e : Env) (lead : Bool) : State :=
  let q := voqNo (voqPos e) sl cls
  { s with depot := { s.depot with
      voq := mapSet [] s.depot.voq q (mapGet [] s.depot.voq q ++ [{ env := e, arr := s.depot.arrivals, next := 0, lead := lead }])
      arrivals := s.depot.arrivals + 1 } }

/-- A unicast copy for a port: steps 4 to 6, then its virtual output queue; dropped, it gives up its hold. The mark says whether it is admitted. -/
def toPort (s : State) (e : Env) (port cls : Nat) (lead : Bool) : State × Bool :=
  let h := port * 8 + cls
  let e := setEf (setEf (setEf e 9 31 19 h) 9 18 10 port) 11 17 17 0
  match admitAt s h e with
  | (s1, some e1) => (intoVoq s1 (port / 32) cls e1 lead, true)
  | (s1, none) => (dropRef s1 (eCell e) none, false)

/-- Copies of a frame for ports, each with a hold of its own; the first that is admitted is the one with which the mirror and sample copies are made, while `lead` is still to
be given (R344, R345). -/
def toPorts (s : State) (e : Env) (cls : Nat) (ports : List Nat) (lead : Bool) : State × Bool :=
  ports.foldl (fun acc p =>
    let r := toPort (addRef acc.1 (eCell e)) e p cls acc.2
    (r.1, acc.2 && !r.2)) (s, lead)

/-- The ring copies of a frame admitted from an HSR ring, whatever its lookup result: for the other ring port, and in a QuadBox for both ring ports of the peer, which enters it
with SELF (R353). One that came without a tag has no sequence number, and takes the peer's (R351; log entry 28). -/
def ringCopies (s : State) (e : Env) (lead : Bool) : State :=
  match if eSrc e = 0 then redOf s (eInPort e) else none with
  | none => s
  | some (r, isB) =>
    if redMode s r < 2 then s
    else
      let r1 := toPorts s e (eClass e) [if isB then redA s r else redB s r] lead
      let p := s.rf (Reg.redCfg1 r) 3 0
      if redMode s r = 3 ∧ s.rb (Reg.redCfg0 p) 31 = true then
        let f := r1.1.frame (eCell e)
        let s2 := if f.rctOk then bookPut r1.1 p { mac := frameSrc s (eCell e), seq := f.rseq, self := true, seenA := false, seenB := false, stamp := msNow s }
          else redAssign r1.1 e [redA s p]
        (toPorts s2 e (eClass e) [redA s p, redB s p] r1.2).1
      else r1.1

/-! ### Multicast (R327, R328) -/

/-- A multicast group entry: 18 words. -/
def mcEntry (s : State) (g : Nat) : List Word := mapGet [] s.depot.mc g

/-- Whether an envelope's group is valid and of its tenancy (R328). -/
def mcGood (s : State) (e : Env) : Bool :=
  let w := (mcEntry s (eMcGroup e)).getD 0 0
  bitOf w 31 && fld w 29 26 == eTenancy e

/-- The member ports of a group, after PRUNE (R327, R328). -/
def mcPorts (s : State) (e : Env) : List Nat :=
  let m := mcEntry s (eMcGroup e)
  (List.range 512).filter fun p => bitOf (m.getD (1 + p / 32) 0) (p % 32) &&
    !(bitOf (m.getD 0 0) 30 && eSrc e == 0 && eInPort e == p)

/-- The member Courier links of a group; a parcel's copy to the link it came by is pruned whatever PRUNE holds, and one that has crossed 15 links is copied to none (R431). -/
def mcLinks (s : State) (e : Env) : List Nat :=
  let m := mcEntry s (eMcGroup e)
  (List.range 32).filter fun k => bitOf (m.getD 17 0) k && !(eSrc e == 1 && (eInPort e == k || cHops e == 16))

/-- The copy of a multicast envelope for a link (R328, R430): for the link's peer, with the group in place of RPH. -/
def mcCopy (s : State) (e : Env) (k : Nat) : Env :=
  let e1 := setEf (setEf e 9 31 19 (4096 + k * 8 + eClass e)) 11 17 17 0
  courInfo e1 0 (s.rf (Reg.linkStat k) 28 19) (ownModule s) false true (cHops e) (flowOf s e) (eMcGroup e)

/-- The ports one multicast entry is copied to, of one egress slice, in ascending order. -/
def mcTargets (s : State) (e : Env) (sl : Nat) : List Nat :=
  let ps := redPorts s e (mcPorts s e)
  (List.range 32).map (fun i => sl * 32 + i) |>.filter fun p => ps.contains p

/-- The copies of a multicast envelope for its member links, made at once; the mark says whether one of them is admitted. -/
def linkCopies (s : State) (e : Env) : State × Bool :=
  (mcLinks s e).foldl (fun acc k =>
    let t := addRef acc.1 (eCell e)
    let h := 4096 + k * 8 + eClass e
    (copyInto t h (mcCopy s e k), acc.2 || (admitAt t h (mcCopy s e k)).2.isSome)) (s, false)

/-- A multicast envelope is admitted: a copy for each member link at once, an entry for each slice that holds a member port, whose PRUNE and redundancy are applied as its copies
are made (R328). -/
def admitMulti (s : State) (e : Env) : State :=
  let c := eCell e
  let r := linkCopies (redAssign s e (mcPorts s e)) e
  let s1 := if r.2 then mirrorCopies r.1 e false 0 else r.1
  let slices := (List.range 16).filter fun sl => (mcEntry s (eMcGroup e)).getD (1 + sl) 0 != 0 || !(mcTargets s e sl).isEmpty
  let s2 := slices.foldl (fun t sl => intoVoq (addRef t c) sl (eClass e) e (!r.2 && slices.head? == some sl)) s1
  dropRef (ringCopies s2 e (!r.2 && slices.isEmpty)) c none

/-- An envelope that names its Courier or internal pigeonhole meets steps 4 to 6 there. -/
def admitPlaced (s : State) (e : Env) : State :=
  match admitAt s (ePh e) e with
  | (s1, some e1) => ringCopies (mirrorCopies (intoPh s1 (ePh e) e1) e1 false 0) e1 false
  | (s1, none) => dropRef (ringCopies s1 e true) (eCell e) none

/-- A unicast envelope is admitted (R347 steps 4 to 6): to its port through a virtual output queue, with redundancy's copies, or
directly into a Courier or internal pigeonhole (R324). -/
def admitUni (s : State) (e : Env) : State :=
  let h := ePh e
  let c := eCell e
  if h < 4096 then
    let r := toPorts (redAssign s e [h / 8]) e (h % 8) (redPorts s e [h / 8]) true
    dropRef (ringCopies r.1 e r.2) c none
  else
    let r := if h < 4352 then courPlace s e else (s, 2, e)
    if r.2.1 = 0 then dropRef (ringCopies r.1 e true) c none
    else if r.2.1 = 1 then ringCopies r.1 e false
    else admitPlaced r.1 r.2.2

/-- The frame's cells stop landing (R322), and COLOUR 3 becomes 2 (R43). -/
def stopLanding (s : State) (c : Nat) : State := if hasFrame s c then s.setFrame c { s.frame c with landing := none } else s

/-- The entry checks of R45 on an envelope with VOID = 0 and MC = 0: the cause of the first that fails. -/
def entryCheck (e : Env) : Option Nat :=
  if 4416 ≤ ePh e then some 0x05
  else if ePh e < 4096 ∧ eEgrPort e ≠ ePh e / 8 then some 0x06
  else if (phClass (ePh e) (eClass e) == 7) != (eClass e == 7) then some 0x07
  else none

/-- Admission in the order of R347, from an envelope that is not void and has passed R45 and R61. -/
def admission (s : State) (e : Env) : State :=
  if tenResetting s (eTenancy e) then freeVoid s (voidBy 0x03 72 e)
  else if eMc e && !mcGood s e then dropRef (s.count Reg.depotMcBadCnt) (eCell e) none
  else match receiptCheck s e with
    | (s1, false) => dropRef s1 (eCell e) none
    | (s1, true) => if eMc e then admitMulti s1 e else admitUni s1 e

/-- An envelope that no ingress station has seen, with SEQ given by its source (R50): it is admitted as one that arrives, after the
checks of R45. -/
def sourceAdmit (s : State) (e : Env) : State :=
  let s1 := stopLanding s (eCell e)
  match if eMc e then none else entryCheck e with
  | some c => freeVoid s1 (voidBy c 72 e)
  | none => admission s1 e

/-- The SEQ check (R61): an unexpected SEQ raises ORDER_SEQ, and the expected value becomes SEQ + 1. -/
def seqCheck (s : State) (e : Env) : State :=
  let d := eDomain e
  let want := mapGet 0 s.depot.expSeq d
  let s1 := { s with depot := { s.depot with expSeq := mapSet 0 s.depot.expSeq d ((eSeq e + 1) % 65536) } }
  if want = eSeq e then s1 else s1.raise 0x0102 72 (eInPort e / 32) (d % 256) want (eSeq e)

/-- DEPOT_ENV_ARRIVE (R45, R49, R60, R61, R322, R347): the next envelope of a slice's ENV_D hatch. Where an envelope fails a check of R45 and its cut-through frame has already ended
errored, the cause of R45 is recorded and not 0x08; the specification does not rank the two (DESIGN CHOICE, log entry 66). -/
def execDepotEnvArrive (sl : Nat) (s : State) : Host.Outcome State Fault Refusal :=
  let h := hatchNo 4 sl
  match (s.hatch h).front with
  | some { pay := .env e _, flow := _, xpr := _ } =>
    let s1 := seqCheck (s.setHatch h (s.hatch h).consume) e
    let s2 := stopLanding s1 (eCell e)
    let e1 := if eColour e = 3 then setEf e 1 27 26 2 else e
    occur (s.dataPath && decide (sl < 16)) s
      (if eVoid e then freeVoid s2 e
       else match if eMc e then none else entryCheck e1 with
         | some c => freeVoid s2 (voidBy c 72 e1)
         | none => if eCut e && (s2.frame (eCell e)).ended == 2 then freeVoid s2 (voidBy 0x08 72 e1) else admission s2 e1)
  | _ => .next s

/-! ### Multicast group commands (R327) -/

/-- MC_WRITE: DEPOT_MC_SEL with WR replaces the whole entry from the data registers. -/
def execMcWrite (m : Nat) (val : Word) (s : State) : Host.Outcome State Fault Refusal :=
  occur (s.life.rails && bitOf val 31) s
    (s.command m Reg.mcSel val (fun _ => false) fun s =>
      { s with depot := { s.depot with
          mc := let e := (List.range 18).map fun i => if i = 0 then s.reg (Reg.mcData 0) &&& 0xFC000000 else s.reg (Reg.mcData i)
                mapSet [] s.depot.mc (fld val 13 0) (if e.all (· == 0) then [] else e) } })

/-- MC_READ: DEPOT_MC_SEL with RD loads the data registers from the entry. -/
def execMcRead (m : Nat) (val : Word) (s : State) : Host.Outcome State Fault Refusal :=
  occur (s.life.rails && bitOf val 30 && !bitOf val 31) s
    (s.command m Reg.mcSel val (fun _ => false) fun s =>
      (List.range 18).foldl (fun t i => t.setReg (Reg.mcData i) ((mcEntry s (fld val 13 0)).getD i 0)) s)

/-! ### Frames that end before their envelope is formed (R46, R81) -/

/-- A frame that ends errored before its envelope is formed: it leaves the store and its cells (R46, R81, R318). -/
def discardUnformed (s : State) (c : Nat) : State :=
  let s1 := { s with slices := s.slices.map fun p => (p.1, { p.2 with store := p.2.store.filter fun it => it.cell != c || it.env.isSome }) }
  freeFrame s1 c

/-- Whether a frame's envelope has been formed: no store slot of it waits for one. -/
def isFormed (s : State) (c : Nat) : Bool := !(s.slices.any fun p => p.2.store.any fun it => it.cell == c && it.env.isNone)

/-- The frame's port discards the rest of it. -/
def rxDiscard (s : State) (c : Nat) : State :=
  { s with ports := s.ports.map fun p =>
      (p.1, let drop := fun (r : RxFrame) => if r.cell = c ∧ r.admitted = true then { r with admitted := false } else r
        { p.2 with rx := p.2.rx.map drop, rxPre := p.2.rxPre.map drop }) }

end Sys2Proof.Machine
end

