-- ==== Sys2Proof/Machine/Source.lean ====
section
/-! DEFINITION. Frames that the Depot takes from the Workshop, the Hall and Courier links (R50, R250, R298, R429): their cells and their envelopes. -/

namespace Sys2Proof.Machine

/-- The first n free cells. -/
def takeCells (s : State) (n : Nat) : List Nat :=
  let used := s.depot.leaked.length + (s.frames.map fun p => p.2.cells.length + 1).foldl (· + ·) 0
  ((List.range (used + n)).filter (cellFree s)).take n

/-- What a source gives for an envelope: its kind (1 Courier, 2 Workshop, 3 Hall) and number, tenancy, colour, class, pigeonhole, multicast mark and group, PTP_EVT,
ECT, the scratch words, the seal epoch, and the time of its postmark. -/
structure SrcInfo where
  src : Nat
  no : Nat
  ten : Nat
  colour : Nat
  cls : Nat
  ph : Nat
  mc : Bool
  group : Nat
  ptp : Bool
  ect : Bool
  s0 : Word
  s1 : Word
  sealNo : Nat
  pm : Nat
deriving DecidableEq, Repr, Inhabited

/-- The number of the table epoch in force at a postmark (R66): that before the last commit, for one earlier than its instant. -/
def epochNumAt (s : State) (pm : Nat) : Nat :=
  let n := s.rf Reg.epochStatus 7 0
  if pm < s.epoch.lastAt then (n + 255) % 256 else n

/-- The envelope of such a frame (R50, R66, R67): LENGTH is known, CUT is 0. -/
def srcEnv (s : State) (x : SrcInfo) (cell len : Nat) : Env :=
  let p := pmOf x.pm
  let seq := mapGet 0 s.depot.srcSeq (x.src * 4096 + x.no * 8 + x.cls)
  ([cell,
    x.ten * 2 ^ 28 + x.colour * 2 ^ 26 + x.cls * 2 ^ 23 + x.no * 2 ^ 14 + len,
    seq * 2 ^ 16 + epochNumAt s x.pm * 2 ^ 8 + x.sealNo,
    p % 2 ^ 32, p / 2 ^ 32,
    fracOf x.pm * 2 ^ 16 + min len 256,
    0, 0, 0,
    x.ph * 2 ^ 19 + (if x.ph < 4096 then x.ph / 8 else 0) * 2 ^ 10,
    x.group * 2 ^ 16,
    x.src * 2 ^ 18 + b2n x.mc * 2 ^ 17 + b2n x.ect * 2 ^ 15 + b2n x.ptp * 2 ^ 13,
    0, x.s0.toNat, x.s1.toNat, 0xFF00] : List Nat).map (BitVec.ofNat 32)

/-- A frame of a source enters the cell memory (R321), takes the next SEQ of its domain and meets the checks of R45 and admission (R50, R347). A frame for which the
pools have no cells is refused and counted. `bytes` ends with the FCS; `fin` adds what a parcel's envelope carries beside its words. -/
def State.originate (s : State) (x : SrcInfo) (bytes : List Byte) (fin : Env → Env := id) : State :=
  let n := (bytes.length + 255) / 256
  let room := if x.cls = 7 then expressFree s else sharedFree s
  match takeCells s n with
  | [] => s.count Reg.depotLandFullCnt
  | c :: r =>
    if room < n then s.count Reg.depotLandFullCnt
    else
      let e := srcEnv s x c bytes.length
      let f : Frame := { cells := c :: r, bytes := bytes, xpr := x.cls == 7, landing := none, ended := 1, refs := 1, rctOk := false, rlan := false,
                         rseqV := false, rseq := 0, leak := false, inPort := x.no, charges := [] }
      let s1 := { s with depot := { s.depot with srcSeq := mapSet 0 s.depot.srcSeq (eDomain e) ((eSeq e + 1) % 65536) } }
      sourceAdmit (s1.setFrame c f) (fin e)

end Sys2Proof.Machine
end

