-- ==== Sys2Proof/Machine/Helpers.lean ====
section
/-! DEFINITION. The helper blocks (chapter 7, R242 to R256): taking commands, the four function units, what each function computes, and completion. -/

namespace Sys2Proof.Machine

/-! ### Places -/

/-- A helper block's state, and one of its units. -/
def State.helper (s : State) (h : Nat) : Helper := mapGet default s.help.helpers h
def State.setHelper (s : State) (h : Nat) (v : Helper) : State := { s with help := { s.help with helpers := mapSet default s.help.helpers h v } }
def State.hunit (s : State) (h u : Nat) : HelpUnit := mapGet default (s.helper h).units u
def State.setHunit (s : State) (h u : Nat) (v : HelpUnit) : State :=
  let x := s.helper h
  s.setHelper h { x with units := mapSet default x.units u v }

/-- Helper blocks: 16 of slices, 8 of benches, and the Hall's. -/
def helperCount : Nat := 25

/-- The helper of a thread, and the island of a helper. -/
def helperOf (m : Nat) : Nat := if m / 16 < 192 then m / 16 / 12 else if m / 16 < 224 then 16 + (m / 16 - 192) / 4 else 24
def helperIsland (h : Nat) : Nat := if h < 16 then 48 + h else if h < 24 then 73 + (h - 16) else 81

/-- The unit of a function (R255): 0 cipher, 1 hash, 2 checksum and move, 3 directory. -/
def helpUnitOf (f : Nat) : Nat := if f ≤ 5 then 0 else if f ≤ 0x0A then 1 else if f ≤ 0x13 then 2 else 3

/-! ### Order of start (R245) -/

/-- The tags a thread took before one and still has outstanding. -/
def earlierTags (s : State) (c : HelpCmd) : List Nat := (s.thr c.thread).tags.takeWhile (· != c.tag)

/-- Whether a command may start: every earlier one of its thread has started, or, with FENCE, has completed. -/
def mayStart (s : State) (c : HelpCmd) : Bool :=
  let l := earlierTags s c
  if cwFence c.word then l.isEmpty else l.all fun t => (s.thr c.thread).begun.contains t

/-! ### Taking commands (R255) -/

/-- The head of a sub-channel of a station's HELP_CMD hatch: the express one, or the general one. -/
def cmdHead (x : Hatch) (xpr : Bool) : Option HEntry := if xpr then x.xFifo.head? else x.gFifo.head?

/-- The hatch without that head. -/
def dropHead (x : Hatch) (xpr : Bool) : Hatch :=
  if xpr then { x with xFifo := x.xFifo.drop 1, xUnseen := x.xUnseen + 1, xRemoved := x.xRemoved + 1 }
  else { x with gFifo := x.gFifo.drop 1, gUnseen := x.gUnseen + 1, gRemoved := x.gRemoved + 1 }

/-- Where a slice helper looks for its next command: express before general, the stations in rotation. -/
def takeOrder (s : State) (h : Nat) : List (Nat × Bool) :=
  let st := [0, 1, 2].map fun i => h * 3 + ((s.helper h).rotate + i) % 3
  st.map (·, true) ++ st.map (·, false)

/-- The threads a bench or Hall helper serves, T-threads first, in rotation. -/
def threadOrder (s : State) (h : Nat) : List Nat :=
  let b := if h = 24 then 224 * 16 else (192 + (h - 16) * 4) * 16
  let l := (List.range 64).map fun i => b + ((s.helper h).rotate + i) % 64
  (l.filter (thrIsT s)) ++ l.filter fun m => !thrIsT s m

/-- A command taken from where it waits; the rotation goes on after its station or thread. An entry that a hatch error has spoilt is taken out with it. -/
def takeCmd (s : State) (h : Nat) (ok : HelpCmd → Bool) : Option (State × Option HelpCmd) :=
  if h < 16 then
    let good (p : Nat × Bool) : Bool :=
      match cmdHead (s.hatch (hatchNo 9 p.1)) p.2 with
      | some { pay := .helpCmd c, flow := _, xpr := _ } => ok c
      | some _ => true
      | none => false
    match (takeOrder s h).find? good with
    | none => none
    | some (st, w) =>
      let x := s.hatch (hatchNo 9 st)
      let s1 := (s.setHatch (hatchNo 9 st) (dropHead x w)).setHelper h { s.helper h with rotate := (st % 3 + 1) % 3 }
      match cmdHead x w with
      | some { pay := .helpCmd c, flow := _, xpr := _ } => some (s1, some c)
      | _ => some (s1, none)
  else
    match (threadOrder s h).find? fun m => match (s.thr m).hq with | c :: _ => ok c | [] => false with
    | none => none
    | some m =>
      let s1 := (s.withThr m fun t => { t with hq := t.hq.drop 1 }).setHelper h { s.helper h with rotate := (m % 64 + 1) % 64 }
      some (s1, (s.thr m).hq.head?)

/-- Whether a command's unit has a free waiting place for it. -/
def hasPlace (s : State) (h : Nat) (c : HelpCmd) : Bool :=
  let u := s.hunit h (helpUnitOf (cwFunc c.word))
  cwFunc c.word != 1 && (if c.timed then u.waitT.isNone else u.waitS.isNone)

/-- HELP_CMD_TAKE (R255): the helper takes the next command whose unit has a place for it. -/
def execHelpCmdTake (h dt : Nat) (s : State) : Host.Outcome State Fault Refusal :=
  let s := advance s dt
  match takeCmd s h (hasPlace s h) with
  | none => .next s
  | some (s1, none) => occur (s.life.rails && decide (h < helperCount)) s s1
  | some (s1, some c) =>
    let n := (s1.helper h).arrivals
    let k := helpUnitOf (cwFunc c.word)
    let u := s1.hunit h k
    let s2 := s1.setHunit h k (if c.timed then { u with waitT := some (c, n) } else { u with waitS := some (c, n) })
    occur (s.life.rails && decide (h < helperCount)) s (s2.setHelper h { s2.helper h with arrivals := n + 1 })

/-! ### Operands in shared memory and in the frame (R214, R247, R252, R476, R620) -/

/-- n bytes of an island's shared memory, and whether a word of them is POISON. -/
def shmBytes (s : State) (i a n : Nat) : List Byte :=
  (List.range n).map fun k => BitVec.ofNat 8 ((shmWord s i ((a + k) / 4 * 4)).data.toNat / 2 ^ (8 * ((a + k) % 4)))
def shmPoison (s : State) (i a n : Nat) : Bool :=
  n != 0 && (List.range ((a + n - 1) / 4 + 1 - a / 4)).any fun k => (shmWord s i ((a / 4 + k) * 4)).poison

/-- Bytes written into shared memory: a whole word takes the tag BITS, a part of one leaves the tag as a partial store does; words of a poisoned DRAM line are
POISON (R246, R236, R249). -/
def writeShm (s : State) (i a : Nat) (b : List Byte) (poison : Bool) : State :=
  if b.isEmpty then s
  else
    (List.range ((a + b.length - 1) / 4 + 1 - a / 4)).foldl (fun t k =>
      let w := (a / 4 + k) * 4
      let lo := max w a
      let hi := min (w + 4) (a + b.length)
      let v : TWord := if poison then ⟨tagPOISON, 0⟩ else ⟨tagBITS, BitVec.ofNat 32 (leNat ((b.drop (lo - a)).take (hi - lo)))⟩
      t.setShmWord i w (if poison then v else mergeStore (shmWord t i w) v (lo - w) (hi - lo))) s

/-- Whether n bytes from an address lie in the shared memory of a thread's engine, in pages it may reach (R252, R476). -/
def inShm (s : State) (m a n : Nat) : Bool :=
  n == 0 || (regionOf (m / 16) a == 1 && regionOf (m / 16) (a + n - 1) == 1 && mayReach s m a && mayReach s m (a + n - 1) &&
    (List.range ((a + n - 1) / 0x10000 + 1 - a / 0x10000)).all fun k => mayReach s m (max a ((a / 0x10000 + k) * 0x10000)))

/-- A command with its block: the helper, the command, and the eight words. -/
structure HelpIn where
  h : Nat
  c : HelpCmd
  w : List TWord
deriving DecidableEq, Repr, Inhabited

def HelpIn.word (x : HelpIn) (k : Nat) : Nat := (x.w.getD k TWord.zero).data.toNat
def HelpIn.len (x : HelpIn) : Nat := cwLen x.c.word
def HelpIn.isl (x : HelpIn) : Nat := engIsland (x.c.thread / 16)
def HelpIn.tlen (x : HelpIn) : Nat := x.word 3 / 65536
def HelpIn.srck (x : HelpIn) : Bool := cwSrck x.c.word

/-- The envelope of the frame a command reads: the one its thread held when it issued it (R247). -/
def cmdEnv (s : State) (c : HelpCmd) : Option Env :=
  if c.thread / 16 < 192 then ((s.station (c.thread / 64)).gate.find? fun g => g.cmds.contains (c.thread, c.tag)).map (·.env) else none

/-- An operand read: its bytes, the statuses found, and whether it waits for bytes that have not arrived. -/
structure Fetched where
  b : List Byte
  bad : List Nat
  wait : Bool
deriving DecidableEq, Repr, Inhabited

/-- n bytes at an address of shared memory, or at an offset of the frame. -/
def fetchIn (s : State) (x : HelpIn) (frame : Bool) (a n : Nat) : Fetched :=
  if frame then
    let o := a % 16384
    match cmdEnv s x.c with
    | some e =>
      if BitVec.ofNat 32 (x.word 4) = ew e 0 ∧ hasFrame s (eCell e) = true then
        let f := s.frame (eCell e)
        if o + n ≤ f.bytes.length then ⟨(f.bytes.drop o).take n, [], false⟩
        else if f.ended = 0 then ⟨[], [], true⟩
        else ⟨[], [if f.ended = 2 then 9 else 4], false⟩
      else ⟨[], [9], false⟩
    | none => ⟨[], [9], false⟩
  else if !inShm s x.c.thread a n then ⟨[], [3], false⟩
  else ⟨shmBytes s x.isl a n, if shmPoison s x.isl a n then [0x0D] else [], false⟩

/-- The status of a place results are written to. -/
def roomIn (s : State) (x : HelpIn) (a n : Nat) : List Nat := if inShm s x.c.thread a n then [] else [3]

/-- The key of a slot, and the status when it is empty, of another tenancy or of another type (R252, R476, R484). -/
def slotKey (s : State) (x : HelpIn) (types : List Nat) : Fetched :=
  match s.keySlots.find? fun p => p.1 == x.word 3 % 4096 with
  | some (_, k) => if k.tenancy = thrTenancy s x.c.thread ∧ types.contains k.typ then ⟨k.data, [], false⟩ else ⟨[], [5], false⟩
  | none => ⟨[], [5], false⟩

/-- What every function checks in its block (R252, R620): reserved words and bits, SRCK where it has no meaning, and POISON words. -/
def blockBad (x : HelpIn) : List Nat :=
  let f := cwFunc x.c.word
  let dram := f == 0x10 || f == 0x11
  (if x.w.getD 6 TWord.zero ≠ TWord.zero ∨ x.w.getD 7 TWord.zero ≠ TWord.zero ∨ bits (x.word 3) 15 12 ≠ 0 ∨ (dram = false ∧ x.word 5 ≠ 0) ∨
      (x.srck = true ∧ [0x11, 0x13, 0x18, 0x19].contains f = true) then [4] else []) ++
    (if x.w.any (·.poison) then [0x0D] else [])

/-! ### The functions (R246) -/

/-- What starting a command comes to: it waits for bytes of its frame, or it runs as a job. -/
structure Started where
  s : State
  wait : Bool
  job : HelpJob

/-- A job with the statuses found: the lowest is its status (R252), and only an OK one has results. -/
def jobOf (x : HelpIn) (bad : List Nat) (r0 r1 : Nat) (writes : List (Nat × List Byte × Bool)) : HelpJob :=
  match bad with
  | [] => { cmd := x.c, res0 := r0, res1 := r1, writes := writes }
  | b :: r => { cmd := x.c, status := r.foldl min b }

/-- A command with operands read and results known: it waits when an operand waits and nothing else ends it. -/
def finishStart (s : State) (x : HelpIn) (ops : List Fetched) (bad : List Nat) (r0 r1 : Nat) (writes : List (Nat × List Byte × Bool)) : Started :=
  let all := blockBad x ++ bad ++ ops.flatMap (·.bad)
  ⟨s, all.isEmpty && ops.any (·.wait), jobOf x all r0 r1 writes⟩

/-- GCM_ENC and GCM_DEC. -/
def startGcm (s : State) (x : HelpIn) (dec : Bool) : Started :=
  let src := fetchIn s x x.srck (x.word 0) x.len
  let iv := fetchIn s x (x.srck && dec) (x.word 2) 12
  let key := slotKey s x [1, 2]
  let out := roomIn s x (x.word 1) x.len
  if dec then
    let tag := fetchIn s x x.srck (x.word 2 + 16) 16
    let r := gcmDec key.b iv.b [] src.b
    finishStart s x [src, iv, key, tag]
      (out ++ (if key.bad.isEmpty ∧ src.bad.isEmpty ∧ iv.bad.isEmpty ∧ tag.bad.isEmpty ∧ blockBad x = [] ∧ out = [] ∧ r.2 ≠ tag.b ∧ ¬(src.wait ∨ iv.wait ∨ tag.wait) then [1] else []))
      0 0 [(x.word 1, r.1, false)]
  else
    let r := gcmEnc key.b iv.b [] src.b
    finishStart s x [src, iv, key] (out ++ roomIn s x (x.word 2 + 16) 16) 0 0 [(x.word 1, r.1, false), (x.word 2 + 16, r.2, false)]

/-- A function that makes or checks an authentication code: the code computed, the bytes to check it against if any, and where it is written otherwise. -/
def startMac (s : State) (x : HelpIn) (ops : List Fetched) (bad : List Nat) (mac : List Byte) (expect : Option Fetched) : Started :=
  match expect with
  | some e =>
    let all := e :: ops
    let clean := bad.isEmpty && (blockBad x).isEmpty && all.all fun o => o.bad.isEmpty && !o.wait
    finishStart s x all (bad ++ (if clean && mac != e.b then [1] else [])) 0 0 []
  | none => finishStart s x ops (bad ++ roomIn s x (x.word 1) x.tlen) 0 0 [(x.word 1, mac, false)]

/-- GMAC and GMAC_CHK: the tag of 16 bytes (R491). -/
def startGmac (s : State) (x : HelpIn) (chk : Bool) : Started :=
  let src := fetchIn s x x.srck (x.word 0) x.len
  let iv := fetchIn s x (x.srck && chk) (x.word 2) 12
  let key := slotKey s x [1, 2]
  let mac := (gcmTag (aesExpand key.b) iv.b src.b []).take x.tlen
  startMac s x [src, iv, key] (if x.tlen = 16 then [] else [4]) mac (if chk then some (fetchIn s x x.srck (x.word 2 + 16) x.tlen) else none)

/-- HMAC and HMAC_CHK (R246, R491). -/
def startHmac (s : State) (x : HelpIn) (chk : Bool) : Started :=
  let src := fetchIn s x x.srck (x.word 0) x.len
  let key := slotKey s x [3]
  let mac := (hmacSha256 key.b src.b).take x.tlen
  startMac s x [src, key] (if 16 ≤ x.tlen ∧ x.tlen ≤ 32 then [] else [4]) mac (if chk then some (fetchIn s x x.srck (x.word 2) x.tlen) else none)

/-- SHA256. -/
def startSha (s : State) (x : HelpIn) : Started :=
  let src := fetchIn s x x.srck (x.word 0) x.len
  finishStart s x [src] (roomIn s x (x.word 1) 32) 0 0 [(x.word 1, sha256 src.b, false)]

/-- CRC32, CRC32C and CSUM16: a result word. -/
def startSum (s : State) (x : HelpIn) (f : Nat → List Byte → Nat) : Started :=
  let src := fetchIn s x x.srck (x.word 0) x.len
  finishStart s x [src] [] (f (x.word 2) src.b % 2 ^ 32) 0 []

/-- CELL_RD (R247). -/
def startCellRd (s : State) (x : HelpIn) : Started :=
  let src := fetchIn s x true (x.word 0) x.len
  finishStart s x [src] (roomIn s x (x.word 1) x.len) 0 0 [(x.word 1, src.b, false)]

/-- The region offset of a DRAM move, its module address, and the statuses found before it (R249, R252, R476, R477). -/
def dramOffset (x : HelpIn) : Nat := x.word 5 % 256 * 2 ^ 32 + x.word 4
def dramBad (s : State) (x : HelpIn) : List Nat :=
  (if x.c.timed then [6] else []) ++ (if x.len % 4 ≠ 0 ∨ dramOffset x % 4 ≠ 0 then [4] else []) ++
    (if dramOffset x + x.len ≤ regionSize s (thrTenancy s x.c.thread) then [] else [3])

/-- A DRAM move starts: its requests are offered to the island's DRAM_REQ hatch. -/
def startMove (s : State) (x : HelpIn) (j : HelpJob) (reqs : List DramReq) : Started :=
  let n := s.help.nextRef
  let r := (List.range reqs.length).zip reqs
  let s1 := r.foldl (fun t p => t.offer (hatchNo 0x0F (helperIsland x.h)) { pay := .dramReq { p.2 with ref := n + p.1 }, flow := 0, xpr := false }) s
  ⟨{ s1 with help := { s1.help with nextRef := n + reqs.length } }, false, { j with ref := n, refs := reqs.length }⟩

/-- The DRAM port of a helper (R378). -/
def helperPort (h : Nat) : Nat := if h < 16 then 6 else if h < 24 then 1 else 2

/-- TO_DRAM (R249): a source word tagged POISON poisons its line, and the command still moves the rest. -/
def startToDram (s : State) (x : HelpIn) : Started :=
  let src0 := fetchIn s x x.srck (x.word 0) x.len
  let src := { src0 with bad := src0.bad.filter (· != 0x0D) }
  let r := finishStart s x [src] (dramBad s x) 0 0 []
  if r.wait ∨ r.job.status ≠ 0 then r
  else
    let a := regionBase s (thrTenancy s x.c.thread) + dramOffset x
    let reqs := (splitLines (x.len + 1) a src.b).map fun p =>
      (⟨helperPort x.h, helperIsland x.h, 0, x.c.thread, x.c.tag, true, p.1, p.2.1, p.2.2,
        !x.srck && shmPoison s x.isl (x.word 0 + (p.1 * 64 + p.2.1 - a)) p.2.2.length⟩ : DramReq)
    startMove s x { r.job with status := if src0.bad.contains 0x0D then 0x0D else 0 } reqs

/-- FROM_DRAM (R249). -/
def startFromDram (s : State) (x : HelpIn) : Started :=
  let r := finishStart s x [] (dramBad s x ++ roomIn s x (x.word 1) x.len) 0 0 []
  if r.job.status ≠ 0 then r
  else
    let a := regionBase s (thrTenancy s x.c.thread) + dramOffset x
    let parts := splitLines (x.len + 1) a (List.replicate x.len 0)
    let reqs := parts.map fun p => (⟨helperPort x.h, helperIsland x.h, 0, 0xFFFF, 0, false, p.1, 0, [], false⟩ : DramReq)
    startMove s x { r.job with writes := parts.map fun p => (x.word 1 + (p.1 * 64 + p.2.1 - a), BitVec.ofNat 8 p.2.1 :: p.2.2, false) } reqs

/-- SEND (R250): the frame and its descriptor are read; it is sent as it completes. -/
def startSend (s : State) (x : HelpIn) : Started :=
  let src := fetchIn s x false (x.word 0) x.len
  let d := fetchIn s x false (x.word 2) 16
  let d3 := shmWord s x.isl ((x.word 2 + 12) / 4 * 4)
  finishStart s x [src, d] (if x.h = 24 ∧ 60 ≤ x.len ∧ x.len ≤ 9212 ∧ leNat (d.b.drop 12) = 0 ∧ (d3.tag = tagINT ∨ d.bad ≠ []) then [] else [4]) 0 0
    [(x.word 2, d.b ++ src.b, false)]

/-- Whether a directory query reads the old copy: none when the copy named by the envelope it was issued for has been released (R68). -/
def queryOld (s : State) (c : HelpCmd) : Option Bool :=
  match c.epoch with
  | none => some false
  | some n =>
    let now := s.rf Reg.epochStatus 7 0
    if n = now then some false else if (n + 1) % 256 = now ∧ s.epoch.oldReadable = true then some true else none

/-- A directory query: the result word and DATA1 (R139, R248); of the extension, what the slice's hot cache gives (R145). -/
def dirQuery (s : State) (sl table : Nat) (k : List Nat) (old : Bool) : Nat × Nat :=
  let g (i : Nat) : Nat := k.getD i 0
  let key := g 1 * 2 ^ 32 + g 0
  if table = 1 then (match staticFind s sl old key with | some e => (resWord true 1 e.data, 0) | none => (resWord false 1 0, 0))
  else if table = 2 then
    (match learnFind s sl old key with | some e => (resWord true 2 (learnPort e.data), learnStamp e.data) | none => (resWord false 2 0, 0))
  else if table = 6 then
    (match (cacheLook s sl (g 2 * 2 ^ 64 + key) old).1 with | some d => (resWord true 6 d, 0) | none => (resWord false 6 0, 0))
  else if table = 7 then
    (match ternFind (s.slice sl) k with | some (i, d) => (resWord true 7 (i * 2 ^ 16 + fld d 15 0), i) | none => (resWord false 7 0, 0))
  else
    let v6 := table == 5
    let addr := if v6 then ((g 3 * 2 ^ 32 + g 2) * 2 ^ 32 + g 1) * 2 ^ 32 + g 0 else g 0
    let root := (if v6 then g 4 else g 1) / 256 % 4
    match lpmFind (if old then s.dirs.lpmS else s.dirs.lpmA) v6 root addr with
    | some p => (resWord true table p.result, p.plen)
    | none => (resWord false table 0, 0)

/-- Words of an operand. -/
def wordsOf (b : List Byte) : List Nat := (List.range (b.length / 4)).map fun i => leNat (slice b (4 * i) 4)

/-- DIR_LOOKUP (R145, R248, R252); a query of the extension table waits for the fills its buckets need. -/
def startLookup (s : State) (x : HelpIn) : Started :=
  let key := fetchIn s x false (x.word 0) 24
  let t := x.word 3 % 16
  let old := queryOld s x.c
  let r := dirQuery s x.h t (wordsOf key.b) (old.getD false)
  let o := finishStart s x [key]
    ((if 16 ≤ x.h ∨ [1, 2, 4, 5, 6, 7].contains t = false then [4] else []) ++ (if t = 6 ∧ x.c.timed = true then [6] else []) ++
      (if t = 6 ∧ s.dramReady = false then [8] else []) ++ (if old.isNone then [0x0A] else [])) r.1 r.2 []
  let k := wordsOf key.b
  let ek := k.getD 2 0 * 2 ^ 64 + k.getD 1 0 * 2 ^ 32 + k.getD 0 0
  let need := (cacheLook s x.h ek (old.getD false)).2
  if t ≠ 6 ∨ o.wait = true ∨ o.job.status ≠ 0 ∨ need = [] then o
  else
    let f := joinFills s x.h (extOld s (old.getD false)) need
    ⟨f.1, false, { o.job with waits := f.2, extKey := ek }⟩

/-- DIR_LEARN (R248): the insertion unit of the slice takes the entry as host work. -/
def startLearn (s : State) (x : HelpIn) : Started :=
  let key := fetchIn s x false (x.word 0) 8
  let r := finishStart s x [key] (if 16 ≤ x.h then [4] else []) 0 0 []
  if r.job.status ≠ 0 then r
  else
    let n := s.help.nextRef
    let y := s.slice x.h
    let k := wordsOf key.b
    let s1 := s.setSlice x.h { y with hostQ := y.hostQ ++ [{ op := 1, key := k.getD 1 0 * 2 ^ 32 + k.getD 0 0, port := x.word 3 % 512, ref := n }] }
    ⟨{ s1 with help := { s1.help with nextRef := n + 1 } }, false, { r.job with learn := n }⟩

/-- A command starts: its block is read, and its function decided. A command of a thread that is being reset ends VOID (R254). -/
def startCmd (s0 : State) (h : Nat) (c : HelpCmd) : Started :=
  let i := engIsland (c.thread / 16)
  let s := s0.drainIsland i
  let x : HelpIn := { h := h, c := c, w := (List.range 8).map fun k => shmWord s i (c.ptr + 4 * k) }
  let f := cwFunc c.word
  if (s.thr c.thread).voiding then ⟨s, false, { cmd := c, status := 2 }⟩
  else if f = 2 then startGcm s x false
  else if f = 3 then startGcm s x true
  else if f = 4 then startGmac s x false
  else if f = 5 then startGmac s x true
  else if f = 8 then startHmac s x false
  else if f = 9 then startHmac s x true
  else if f = 0x0A then startSha s x
  else if f = 0x0C then startSum s x crc32
  else if f = 0x0D then startSum s x crc32c
  else if f = 0x0E then startSum s x (fun a b => csum16 (a % 65536) b)
  else if f = 0x10 then startToDram s x
  else if f = 0x11 then startFromDram s x
  else if f = 0x12 then startCellRd s x
  else if f = 0x13 then startSend s x
  else if f = 0x18 then startLookup s x
  else startLearn s x

/-! ### The units (R255) -/

/-- The first waiting command for bytes of its frame, of a kind, whose bytes have arrived or whose frame has ended (R247). -/
def resumable (s : State) (h u : Nat) (timed : Bool) : Option (HelpCmd × Nat) :=
  (s.hunit h u).parked.find? fun p => p.1.timed == timed && !(startCmd s h p.1).wait

/-- Whether a unit can take up a command of a kind: it is free, or it runs an S-thread's command that yields to a T-thread's. -/
def unitTakes (s : State) (h u : Nat) (timed : Bool) : Bool :=
  let x := s.hunit h u
  match x.run with
  | none => timed || x.yielded.isNone
  | some j => timed && !j.cmd.timed && x.yielded.isNone

/-- BUSY of a unit of a slice's helper (R593). -/
def busyBit (s : State) (h u : Nat) : State := if h < 16 then s.setRf (Reg.helpStat h) u u (b2n (s.hunit h u).run.isSome) else s

/-- A job begins to run; a running S-thread's command yields and is counted. -/
def runJob (s : State) (h u : Nat) (j : HelpJob) : State :=
  let x := s.hunit h u
  let s1 := s.setHunit h u { x with run := some { j with since := s.up }, yielded := match x.run with | some o => some o | none => x.yielded }
  busyBit (if x.run.isSome && decide (h < 16) then s1.count (Reg.helpYieldCnt h) else s1) h u

/-- The waiting command that a unit starts next: a T-thread's before an S-thread's; a command that waited for bytes goes before one of its kind that has not started. -/
def chosen (s : State) (h u : Nat) : Option (HelpCmd × Nat) :=
  let x := s.hunit h u
  let t := match x.waitT with | some p => if mayStart s p.1 && (resumable s h u true).isNone then some p else none | none => none
  match t with
  | some p => if unitTakes s h u true then some p else none
  | none =>
    match x.waitS with
    | some p => if mayStart s p.1 && (resumable s h u false).isNone && (resumable s h u true).isNone && unitTakes s h u false then some p else none
    | none => none

/-- A command leaves its waiting place and starts: it runs, or gives up the unit until its bytes have arrived. -/
def beginCmd (s : State) (h u : Nat) (p : HelpCmd × Nat) : State :=
  let x := s.hunit h u
  let s1 := (s.setHunit h u (if p.1.timed then { x with waitT := none } else { x with waitS := none })).withThr p.1.thread fun t => { t with begun := t.begun ++ [p.1.tag] }
  let r := startCmd s1 h p.1
  if r.wait then r.s.setHunit h u { r.s.hunit h u with parked := (r.s.hunit h u).parked ++ [p] }
  else runJob r.s h u { r.job with arr := p.2 }

/-- The start of a command of function f by its unit of helper h. -/
def helpOp (f h dt : Nat) (s : State) : Host.Outcome State Fault Refusal :=
  let s := advance s dt
  let u := helpUnitOf f
  match chosen s h u with
  | none => .next s
  | some p => occur (s.life.rails && decide (h < helperCount) && cwFunc p.1.word == f) s (beginCmd s h u p)

/-- GCM_ENC (R246). -/
def execGcmEnc (h dt : Nat) (s : State) : Host.Outcome State Fault Refusal := helpOp 0x02 h dt s
/-- GCM_DEC (R246): the plaintext is written only if the tag matches. -/
def execGcmDec (h dt : Nat) (s : State) : Host.Outcome State Fault Refusal := helpOp 0x03 h dt s
/-- GMAC (R246). -/
def execGmac (h dt : Nat) (s : State) : Host.Outcome State Fault Refusal := helpOp 0x04 h dt s
/-- GMAC_CHK (R246). -/
def execGmacChk (h dt : Nat) (s : State) : Host.Outcome State Fault Refusal := helpOp 0x05 h dt s
/-- HMAC (R246). -/
def execHmac (h dt : Nat) (s : State) : Host.Outcome State Fault Refusal := helpOp 0x08 h dt s
/-- HMAC_CHK (R246). -/
def execHmacChk (h dt : Nat) (s : State) : Host.Outcome State Fault Refusal := helpOp 0x09 h dt s
/-- SHA256 (R246). -/
def execSha256 (h dt : Nat) (s : State) : Host.Outcome State Fault Refusal := helpOp 0x0A h dt s
/-- CRC32 (R246). -/
def execCrc32 (h dt : Nat) (s : State) : Host.Outcome State Fault Refusal := helpOp 0x0C h dt s
/-- CRC32C (R246). -/
def execCrc32c (h dt : Nat) (s : State) : Host.Outcome State Fault Refusal := helpOp 0x0D h dt s
/-- CSUM16 (R246). -/
def execCsum16 (h dt : Nat) (s : State) : Host.Outcome State Fault Refusal := helpOp 0x0E h dt s
/-- TO_DRAM (R246, R249). -/
def execToDram (h dt : Nat) (s : State) : Host.Outcome State Fault Refusal := helpOp 0x10 h dt s
/-- FROM_DRAM (R246, R249). -/
def execFromDram (h dt : Nat) (s : State) : Host.Outcome State Fault Refusal := helpOp 0x11 h dt s
/-- CELL_RD (R246, R247). -/
def execCellRd (h dt : Nat) (s : State) : Host.Outcome State Fault Refusal := helpOp 0x12 h dt s
/-- SEND (R250). -/
def execHelperSend (h dt : Nat) (s : State) : Host.Outcome State Fault Refusal := helpOp 0x13 h dt s
/-- DIR_LOOKUP (R248). -/
def execDirLookup (h dt : Nat) (s : State) : Host.Outcome State Fault Refusal := helpOp 0x18 h dt s
/-- DIR_LEARN (R248). -/
def execDirLearn (h dt : Nat) (s : State) : Host.Outcome State Fault Refusal := helpOp 0x19 h dt s

/-- HELPER_CT_RESUME (R247): a command that waited for bytes of a cut-through frame resumes when they have arrived or the frame has ended. -/
def execHelperCtResume (h u dt : Nat) (s : State) : Host.Outcome State Fault Refusal :=
  let s := advance s dt
  let p := match resumable s h u true with
    | some p => if unitTakes s h u true then some p else none
    | none => match resumable s h u false with
      | some p => if unitTakes s h u false then some p else none
      | none => none
  match p with
  | none => .next s
  | some p =>
    let x := s.hunit h u
    let s1 := s.setHunit h u { x with parked := x.parked.erase p }
    let r := startCmd s1 h p.1
    occur (s.life.rails && decide (h < helperCount) && decide (u < 4)) s (runJob r.s h u { r.job with arr := p.2 })

/-! ### Completion (R251, R252, R254) -/

/-- An entry that passes a hatch at once: it is sent, becomes visible and is consumed, and its credit is out until it is returned. -/
def Hatch.pass (x : Hatch) (xpr : Bool) (e : HEntry) : Hatch :=
  if xpr then { x with xOut := x.xOut ++ [e.flow], xSent := x.xSent + 1, xUnseen := x.xUnseen + 1, xRemoved := x.xRemoved + 1, xpeak := max x.xpeak 1 }
  else { x with gOut := x.gOut ++ [e.flow], gSent := x.gSent + 1, gUnseen := x.gUnseen + 1, gRemoved := x.gRemoved + 1, peak := max x.peak 1 }

/-- The entry a completion passes through HELP_DONE of a station. -/
def doneEntry (c : HelpCmd) (status : Nat) : HEntry := { pay := .helpDone ⟨c.thread, c.tag, status, []⟩, flow := c.thread, xpr := c.timed }

/-- Whether a completion can be sent: HELP_DONE has credit for it, or the thread is of a bench or the Hall. -/
def doneRoom (s : State) (c : HelpCmd) : Bool :=
  !(decide (c.thread / 16 < 192)) ||
    (((s.hatch (hatchNo 0x0A (c.thread / 64))).channel (hatchNo 0x0A (c.thread / 64)) (doneEntry c 0)).isSome && (s.hatch (hatchNo 0x0A (c.thread / 64))).held.isEmpty)

/-- The completion record of a tag, W0 last (R251). -/
def putRecord (s : State) (c : HelpCmd) (status r0 r1 : Nat) : State :=
  match (s.thr c.thread).ring with
  | none => s
  | some b =>
    let i := engIsland (c.thread / 16)
    let a := b + c.tag * 16
    (((s.setShmWord i (a + 4) (tw tagINT r0)).setShmWord i (a + 8) (tw tagINT r1)).setShmWord i (a + 12) (tw tagTIME (pmNow s))).setShmWord i a
      (tw tagBITS (2 ^ 31 + status * 2 ^ 16 + cwFunc c.word * 2 ^ 10 + c.tag))

/-- A thread whose reset has waited for its helper commands (R254): after the last one the ring, the doorbells and a pending late error are cleared, and a RESUME that was held
is performed. -/
def voidDone (s : State) (m : Nat) : State :=
  let t := s.thr m
  if t.voiding ∧ t.tags = [] then
    let s1 := s.withThr m fun t => { t with ring := none, bells := 0, ipend := t.ipend &&& 6, voiding := false, resumeHeld := false }
    if t.resumeHeld ∧ thrState s m = 3 then resumeThr s1 m else s1
  else s

/-- A command completes (R247, R251): the record, doorbell 1, the tag free, the envelope no longer kept at its gate for it. -/
def endCmd (s : State) (c : HelpCmd) (status r0 r1 : Nat) : State :=
  let m := c.thread
  let st := m / 64
  let s1 := putRecord s c status r0 r1
  let s2 :=
    if m / 16 < 192 then
      let h := hatchNo 0x0A st
      let x := s1.hatch h
      let e := doneEntry c status
      let s2 := s1.setHatch h (x.pass ((x.channel h e).getD false) e)
      s2.setStation st { s2.station st with gate := (s2.station st).gate.map fun g => { g with cmds := g.cmds.filter (· != (m, c.tag)) } }
    else s1
  let s3 := (ringBell s2 m 1).withThr m fun t => { t with tags := t.tags.filter (· != c.tag), begun := t.begun.filter (· != c.tag) }
  let h := helperOf m
  let s4 := if 16 ≤ h ∨ status = 0 then s3
    else if status = 2 then s3.count (Reg.helpVoidCnt h)
    else if status = 1 then s3.count (Reg.helpAuthFailCnt h)
    else s3.count (Reg.helpErrCnt h)
  voidDone s4 m

/-- HELPER_NOP (R246, R255): the next command, a NOP, completes as it is taken; one with SRCK is BAD_PARAM (R620). -/
def execHelperNop (h dt : Nat) (s : State) : Host.Outcome State Fault Refusal :=
  let s := advance s dt
  match takeCmd s h (fun c => cwFunc c.word == 1 && mayStart s c && doneRoom s c) with
  | some (s1, some c) =>
    occur (s.life.rails && decide (h < helperCount)) s
      (endCmd s1 c (if (s.thr c.thread).voiding then 2 else if cwSrck c.word then 4 else 0) 0 0)
  | some (s1, none) => occur (s.life.rails && decide (h < helperCount)) s s1
  | none => .next s

/-- The answers to a job's DRAM requests that have come to its island: reference, status and line. -/
def answersOf (s : State) (h : Nat) (j : HelpJob) : List (Nat × Nat × List Byte) :=
  let x := s.hatch (hatchNo 0x10 (helperIsland h))
  (x.taken ++ x.gFifo).filterMap fun e =>
    match e.pay with
    | .dramRsp r st d => if j.ref ≤ r ∧ r < j.ref + j.refs then some (r, st, d) else none
    | _ => none

/-- The hatch of answers without those of a job and those nobody awaits. -/
def clearAnswers (s : State) (h : Nat) (j : HelpJob) : State :=
  let k := hatchNo 0x10 (helperIsland h)
  s.setHatch k (dropAnswers (s.hatch k) fun r => (decide (j.ref ≤ r) && decide (r < j.ref + j.refs)) || !awaited s h r)

/-- What the answers make of a FROM_DRAM or TO_DRAM: the writes with the data of each line, and the status (R249, R252). -/
def moveResult (j : HelpJob) (ans : List (Nat × Nat × List Byte)) : List (Nat × List Byte × Bool) × Nat :=
  let ws := (List.range j.writes.length).filterMap fun k =>
    match j.writes[k]?, ans.find? (fun a => a.1 == j.ref + k) with
    | some (a, o :: b, _), some (_, st, d) => if st = 2 then none else some (a, (d.drop o.toNat).take b.length ++ List.replicate (b.length - (d.drop o.toNat).length) 0, st == 1)
    | _, _ => none
  let bad := (if ans.any (·.2.1 == 1) then [7] else []) ++ (if ans.length < j.refs || ans.any (·.2.1 == 2) then [8] else []) ++ (if j.status = 0 then [] else [j.status])
  (ws, match bad with | [] => 0 | b :: r => r.foldl min b)

/-- The frame of a SEND passes HALL_TX in cells and enters the Depot (R20, R250). -/
def sendFrame (s : State) (j : HelpJob) : State :=
  match j.writes with
  | (_, b, _) :: _ =>
    let d := wordsOf (b.take 16)
    let w (i : Nat) : Nat := d.getD i 0
    let body := b.drop 16
    let s1 := s.passed (hatchNo 0x1B 0) (cellsOf (body.length + 4))
    s1.originate
      { src := 3, no := j.cmd.thread / 16 - 224, ten := 0, colour := 0, cls := bits (w 0) 16 14, ph := bits (w 0) 31 19, mc := (w 0).testBit 18,
        group := bits (w 0) 13 0, ptp := (w 0).testBit 17, ect := false, s0 := BitVec.ofNat 32 (w 1), s1 := BitVec.ofNat 32 (w 2),
        sealNo := s.epoch.sealEpoch, pm := s.now } (body ++ fcsOf body)
  | [] => s

/-- What a completing job does before its record: its status, result words, and its results written (R251). -/
def jobResults (s : State) (h : Nat) (j : HelpJob) : State × Nat × Nat × Nat :=
  let i := engIsland (j.cmd.thread / 16)
  let put (t : State) (p : Nat × List Byte × Bool) : State := writeShm t i p.1 p.2.1 p.2.2
  if (s.thr j.cmd.thread).voiding then (clearAnswers s h j, 2, 0, 0)
  else if 0 < j.refs then
    let r := moveResult j (answersOf s h j)
    (r.1.foldl put (clearAnswers s h j), r.2, 0, 0)
  else if j.learn ≠ 0 then
    let o := mapGet 0 s.help.learned j.learn - 1
    ({ s with help := { s.help with learned := mapErase s.help.learned j.learn } }, if o = 3 then 0x0B else if o = 7 then 0x0C else 0, 0, 0)
  else if j.status ≠ 0 then (s, j.status, 0, 0)
  else if cwFunc j.cmd.word = 0x13 then (sendFrame s j, 0, 0, 0)
  else (j.writes.foldl put s, 0, j.res0, j.res1)

/-- Whether a running job can complete: its DRAM requests are answered or 100 µs have passed, its DIR_LEARN has been performed, the fills it waits for have ended,
HALL_TX has credit for the frame of its SEND (R20, R145, R250, R252). -/
def jobReady (s : State) (h : Nat) (j : HelpJob) : Bool :=
  (s.thr j.cmd.thread).voiding ||
    ((cwFunc j.cmd.word != 0x13 || j.status != 0 || s.clear (hatchNo 0x1B 0)) && (decide (j.refs ≤ (answersOf s h j).length) || decide (j.since + 100000 * nsUnit ≤ s.up)) && (j.learn == 0 || mapGet 0 s.help.learned j.learn != 0) && j.waits.isEmpty)

/-- HELPER_COMPLETE (R251, R254, R255): the running command of a unit completes; a command that had yielded resumes unless another T-thread's can start. -/
def execHelperComplete (h u dt : Nat) (s : State) : Host.Outcome State Fault Refusal :=
  let s := advance s dt
  let x := s.hunit h u
  match x.run with
  | none => .next s
  | some j =>
    let (s1, st, r0, r1) := jobResults s h j
    let s2 := s1.setHunit h u { x with run := none }
    let s3 := endCmd s2 j.cmd st r0 r1
    let y := s3.hunit h u
    let next := (match y.waitT with | some p => mayStart s3 p.1 | none => false) || (resumable s3 h u true).isSome
    let s4 := if y.yielded.isSome && !next then s3.setHunit h u { y with run := y.yielded, yielded := none } else s3
    occur (s.life.rails && decide (h < helperCount) && decide (u < 4) && jobReady s h j && doneRoom s j.cmd) s (busyBit s4 h u)

/-- HELPER_LATE_ERROR (R253): the first write that could not be committed; the late-error record is written and IPEND bit 0 set, or OVF when a record is still VALID. -/
def execHelperLateError (dt : Nat) (s : State) : Host.Outcome State Fault Refusal :=
  let s := advance s dt
  match s.dram.late with
  | [] => .next s
  | (m, tag, addr) :: r =>
    let s1 := s.withDram fun d => { d with late := r }
    let ofs := addr - regionBase s (thrTenancy s m)
    let i := engIsland (m / 16)
    let s2 := match (s.thr m).ring with
      | none => s1
      | some b =>
        let w0 := shmWord s i (b + 0x80)
        if bitOf w0.data 31 then s1.setShmWord i (b + 0x80) { w0 with data := w0.data ||| 0x40000000 }
        else
          (((s1.setShmWord i (b + 0x84) (tw tagINT (ofs % 2 ^ 32))).setShmWord i (b + 0x88) (tw tagINT (ofs / 2 ^ 32 % 256))).setShmWord i (b + 0x8C)
            (tw tagTIME (pmNow s))).setShmWord i (b + 0x80) (tw tagBITS (2 ^ 31 + 7 * 2 ^ 16 + 0x10 * 2 ^ 10 + tag))
    let s3 := s2.pendInt m 1
    occur s.life.rails s (if helperOf m < 16 then s3.count (Reg.helpLateCnt (helperOf m)) else s3)

end Sys2Proof.Machine
end

