-- ==== Sys2Proof/Machine/Workshop.lean ====
section
/-! DEFINITION. The Workshop (chapter 8): taps, the nodes the Dispatcher and the bench helpers run, dispatch, completion and the logbook. -/

namespace Sys2Proof.Machine

/-! ### Graphs and edges -/

def State.graph (s : State) (g : Nat) : Graph := mapGet default s.wshop.graphs g
def State.setGraph (s : State) (g : Nat) (v : Graph) : State := s.withWshop fun w => { w with graphs := mapSet default w.graphs g v }

/-- State, tenancy, bench and pinned mark of a graph (WSHOP_GRAPH_STAT): 0 EMPTY, 1 LOADED, 2 RUNNING, 3 STOPPING, 4 FAILED. -/
def gState (s : State) (g : Nat) : Nat := s.rf (Reg.graphStat g) 31 29
def State.setGState (s : State) (g v : Nat) : State := s.setRf (Reg.graphStat g) 31 29 v
def gTen (s : State) (g : Nat) : Nat := s.rf (Reg.graphStat g) 28 25
def gBench (s : State) (g : Nat) : Nat := s.rf (Reg.graphStat g) 24 22
def gPinned (s : State) (g : Nat) : Bool := s.rb (Reg.graphStat g) 21

/-- The island of a graph's bench. -/
def gIsland (s : State) (g : Nat) : Nat := 73 + gBench s g

/-- A node of a graph, and the graph with it changed. -/
def gNode (s : State) (g n : Nat) : GNode := (s.graph g).nodes.getD n default
def State.withNode (s : State) (g n : Nat) (f : GNode → GNode) : State := s.setGraph g { s.graph g with nodes := modAt (s.graph g).nodes n f }

/-- The place of the edge at an input, and at an output, of a node. -/
def edgeIn (s : State) (g n i : Nat) : Nat := (s.graph g).edges.findIdx fun e => e.dst == n && e.inp == i
def edgeOut (s : State) (g n i : Nat) : Nat := (s.graph g).edges.findIdx fun e => e.src == n && e.out == i
def gEdge (s : State) (g k : Nat) : GEdge := (s.graph g).edges.getD k default
def State.withEdge (s : State) (g k : Nat) (f : GEdge → GEdge) : State := s.setGraph g { s.graph g with edges := modAt (s.graph g).edges k f }

/-- Tokens an edge holds, and whether it has room. -/
def GEdge.size (e : GEdge) : Nat := if e.base = 0 then e.toks.length else e.count
def GEdge.room (e : GEdge) : Bool := decide (e.size < e.depth)

/-- The engine address of an edge's oldest token, and of its next free slot. -/
def GEdge.oldest (e : GEdge) : Nat := e.base + e.head * 64
def GEdge.free (e : GEdge) : Nat := e.base + (e.head + e.count) % e.depth * 64

/-- A token written into bench memory by the Dispatcher or a helper: W2 tagged TIME, the rest INT (R277). -/
def putToken (s : State) (i addr : Nat) (t : List Word) : State :=
  (List.range 16).foldl (fun u k => u.setShmWord i (addr + 4 * k) ⟨if k = 2 then tagTIME else tagINT, t.getD k 0⟩) s

/-- A token of bench memory. -/
def getToken (s : State) (i addr : Nat) : List Word := (List.range 16).map fun k => (shmWord s i (addr + 4 * k)).data

/-- A token put on an edge. -/
def pushEdge (s : State) (g k : Nat) (t : List Word) : State :=
  let e := gEdge s g k
  if e.base = 0 then s.withEdge g k fun e => { e with toks := e.toks ++ [t] }
  else (putToken s (gIsland s g) e.free t).withEdge g k fun e => { e with count := e.count + 1 }

/-- Whether what the Dispatcher sends into a bench, a dispatch or a token, has credit of its DISPATCH hatch (R20, R275). -/
def dispatchRoom (s : State) (b : Nat) : Bool := let h := hatchNo 0x0C b; decide (0 < (s.hatch h).credits h) && (s.hatch h).held.isEmpty

/-- A token that the Dispatcher puts on an edge: into bench memory it passes the DISPATCH hatch (R275). -/
def deliverEdge (s : State) (g k : Nat) (t : List Word) : State :=
  pushEdge (if (gEdge s g k).base = 0 then s else s.passed (hatchNo 0x0C (gBench s g)) 1) g k t

/-- Whether the Dispatcher may put a token on an edge: into bench memory it needs credit of DISPATCH. -/
def edgeReach (s : State) (g k : Nat) : Bool := (gEdge s g k).base == 0 || dispatchRoom s (gBench s g)

/-- An edge's oldest token consumed; a token already written by its producer published. -/
def consumeEdge (s : State) (g k : Nat) : State :=
  s.withEdge g k fun e => if e.count = 0 then e else { e with head := (e.head + 1) % e.depth, count := e.count - 1 }
def publishEdge (s : State) (g k : Nat) : State := s.withEdge g k fun e => if e.room then { e with count := e.count + 1 } else e

/-! ### Token fields (R276) -/

def tKind (t : List Word) : Nat := fld (t.getD 0 0) 31 28
def tGraph (t : List Word) : Nat := fld (t.getD 0 0) 27 22
def tNode (t : List Word) : Nat := fld (t.getD 0 0) 21 12
def tSmp (t : List Word) : Nat := fld (t.getD 1 0) 31 16

/-- A kind that is reserved: 5 and 7 to 15. -/
def badKind (k : Nat) : Bool := k == 5 || decide (7 ≤ k)

/-! ### The logbook (R310) -/

/-- A logbook record of a decision on a node with LOG = 1, on its way to the trace ring. -/
def logNode (s : State) (g n thread reason : Nat) : State :=
  let x := gNode s g n
  if s.rb Reg.wshopLogCfg 31 && x.log then
    let a := (if gPinned s g then 0 else (s.graph g).account)
    let b := (acctBal s a % 2 ^ 48).toNat
    s.withEvt fun e => { e with trcIn := e.trcIn ++
      [[pmNow s, g * 2 ^ 26 + n * 2 ^ 16 + thread % 4096 * 16 + reason, b, a * 2 ^ 27 + x.prio * 2 ^ 24 + b / 2 ^ 32].map (BitVec.ofNat 32)] }
  else s

/-! ### Readiness (R303, R305) -/

/-- Whether a node of a running graph is ready but for its account. -/
def readyBut (s : State) (g n : Nat) : Bool :=
  let x := gNode s g n
  gState s g == 2 && x.run.isNone && decide (n < (s.graph g).nodes.length) && (x.kind == 0 || x.kind == 3 || x.kind == 4) &&
    ((List.range x.nin).all fun i => decide (0 < (gEdge s g (edgeIn s g n i)).size)) && (List.range x.nout).all fun i => (gEdge s g (edgeOut s g n i)).room

/-- Unpinned graphs: a node that becomes ready enters its list; one that lacks its account waits for the next Ledger tick and its deferral is recorded once. `tick` is whether a
tick tests those that wait. -/
def testNode (tick : Bool) (g : Nat) (s : State) (n : Nat) : State :=
  if gPinned s g || !readyBut s g n then s
  else if s.wshop.ready.contains (g, n) then s
  else if (gNode s g n).noAcct && !tick then s
  else if affords s (s.graph g).account (gNode s g n) then
    (s.withNode g n fun x => { x with noAcct := false }).withWshop fun w => { w with ready := w.ready ++ [(g, n)] }
  else
    let s1 := s.withNode g n fun x => { x with noAcct := true, deferred := true }
    if (gNode s g n).deferred then s1 else logNode s1 g n 0 3

/-- Every node of a graph tested for readiness. -/
def testGraph (tick : Bool) (s : State) (g : Nat) : State := (List.range (s.graph g).nodes.length).foldl (testNode tick g) s

/-- Every graph's nodes tested, as a Ledger tick does (R400). -/
def testAll (s : State) : State := (s.wshop.graphs.map (·.1)).foldl (testGraph true) s

/-- The ready list without the nodes of a graph. -/
def unready (s : State) (g : Nat) : State := s.withWshop fun w => { w with ready := w.ready.filter fun p => p.1 != g }

/-! ### The tap unit (R278 to R282) -/

/-- The length a BER length field gives, and the bytes after it. -/
def berLen : List Byte → Option (Nat × List Byte)
  | [] => none
  | b :: r =>
    if b.toNat < 128 then some (b.toNat, r)
    else if b.toNat = 0x81 then match r with | c :: r => some (c.toNat, r) | [] => none
    else if b.toNat = 0x82 then match r with | c :: d :: r => some (c.toNat * 256 + d.toNat, r) | _ => none
    else none

/-- The first element of an encoding: its tag, its contents as far as they are present, whether they are whole, and what follows. -/
def berTake (l : List Byte) : Option (Nat × List Byte × Bool × List Byte) :=
  match l with
  | [] => none
  | t :: r => match berLen r with
    | none => none
    | some (n, b) => some (t.toNat, b.take n, decide (n ≤ b.length), b.drop n)

/-- The contents of the first element with a tag, among at most n elements. -/
def berFind : Nat → Nat → List Byte → Option (List Byte × Bool)
  | 0, _, _ => none
  | n + 1, tag, l => match berTake l with
    | none => none
    | some (t, b, whole, rest) => if t = tag then some (b, whole) else if whole then berFind n tag rest else none

/-- Element k of a sequence, when it is whole. -/
def berNth : Nat → List Byte → Option (List Byte)
  | 0, l => match berTake l with | some (t, b, true, _) => if t = 0x30 then some b else none | _ => none
  | k + 1, l => match berTake l with | some (0x30, _, true, rest) => berNth k rest | _ => none

/-- An ASDU of the savPdu in a head: its contents when it lies wholly within the bytes (R281; the encoding is that of IEC 61850-9-2, log entry 14). -/
def asduOf (head : List Byte) (l5 k : Nat) : Option (List Byte) :=
  match berTake (head.drop (l5 + 8)) with
  | some (0x60, pdu, _, _) => match berFind 4 0xA2 pdu with
    | some (sq, _) => berNth k sq
    | none => none
  | _ => none

/-- The quality code of a channel: validity 00 gives 0, 11 gives 1, 01 gives 2; the specification gives none for 10, which is a free value. -/
def qualCode (v free : Nat) : Nat := if v = 0 then 0 else if v = 3 then 1 else if v = 1 then 2 else free % 4

/-- The SAMPLE token an SVDEC slot is decoded into, or none (R281). -/
def svDecode (s : State) (w0 w1 : Word) (held : Option (Env × List Byte)) : Option (List Word) :=
  let k := fld w1 31 28
  let nval := fld w1 27 24
  let ch := fld w1 23 16
  match held with
  | none => none
  | some (e, head) =>
    if eL5 e = 0 ∨ 8 ≤ k ∨ nval = 0 ∨ 13 ≤ nval then none
    else match asduOf (head.take (eHeadValid e)) (eL5 e) k with
      | none => none
      | some a =>
        match berFind 12 0x82 a, berFind 12 0x85 a, berFind 12 0x87 a with
        | some (cnt, true), some (syn, true), some (seq, true) =>
          let nch := seq.length / 8
          let chan (i : Nat) : Nat := ch + i
          let val (i : Nat) : Nat := if chan i < nch then beNat (slice seq (8 * chan i) 4) else 0
          let q (i : Nat) : Nat := beNat (slice seq (8 * chan i + 4) 4)
          let code (i : Nat) : Nat := if chan i < nch then qualCode (q i % 4) (s.freeValue / 4 ^ i) else 3
          let test := (List.range nval).any fun i => decide (chan i < nch) && (q i).testBit 11
          let qual := ((List.range nval).map fun i => code i * 4 ^ i).foldl (· + ·) 0
          some (([2 ^ 28 + fld w0 27 22 * 2 ^ 22 + fld w0 21 12 * 2 ^ 12 + nval * 2 ^ 8,
            beNat cnt % 65536 * 2 ^ 16 + ch * 2 ^ 8 + k,
            (ew e 3).toNat,
            b2n test * 2 ^ 31 + b2n (beNat syn == 0) * 2 ^ 30 + qual] ++ (List.range 12).map fun i => if i < nval then val i else 0).map (BitVec.ofNat 32))
        | _, _, _ => none

/-- A tap slot ended: it is no longer pending and its W0 is INT 0. -/
def endTap (s : State) (i addr : Nat) : State :=
  let x := s.shm i
  (s.setShm i { x with taps := x.taps.drop 1 }).setShmWord i addr TWord.zero

/-- TAP_SEND (R279, R281): the tap unit of a station takes the pending slot whose W0 was stored first, once that store has reached memory, and sends its token when TAP has credit. -/
def execTapSend (stn dt : Nat) (s : State) : Host.Outcome State Fault Refusal :=
  let s := (advance s dt).drainIsland stn
  match (s.shm stn).taps with
  | [] => .next s
  | p :: _ =>
    let addr := tapBase p.thread + p.slot * 64
    let reached := !((s.eng (p.thread / 16)).stores.any fun x => x.addr / 64 == addr / 64)
    let w (k : Nat) : Word := (shmWord s stn (addr + 4 * k)).data
    let h := hatchNo 0x0B stn
    let x := s.hatch h
    let send (t : List Word) (u : State) : State :=
      endTap (u.setHatch h (x.push false { pay := .token (t.map fun d => ⟨tagINT, d⟩), flow := p.thread, xpr := false })) stn addr
    let ok := s.life.rails && decide (stn < 48) && reached
    if fld (w 0) 31 28 = 6 then
      match svDecode s (w 0) (w 1) p.held with
      | none => occur ok s ((endTap s stn addr).count (engBlk (p.thread / 16) + 0x134))
      | some t => occur (ok && decide (0 < x.credits h) && x.held.isEmpty) s (send t s.drawn)
    else occur (ok && decide (0 < x.credits h) && x.held.isEmpty) s (send ((List.range 16).map w) s)

/-! ### TAP-IN and ALIGN (R291 to R293) -/

/-- A token's set order: set a precedes set b (R292). -/
def setBefore (wrap a b : Nat) : Bool := let d := (b + wrap - a) % wrap; decide (1 ≤ d) && decide (d ≤ wrap / 2)

/-- WRAP and HOLD of an ALIGN node. -/
def alignWrap (n : GNode) : Nat := if n.arg % 65536 = 0 then 65536 else n.arg % 65536
def alignHold (n : GNode) : Nat := n.arg / 65536 * 1000 * nsUnit

/-- A token arrives at an ALIGN through an edge of the token store: discarded and counted, or kept in its pending set (R276, R292). -/
def alignTake (s : State) (g k : Nat) (t : List Word) : State :=
  let e := gEdge s g k
  let n := gNode s g e.dst
  let m := tSmp t
  let wrap := alignWrap n
  let done := match n.last with | some r => m == r || setBefore wrap m r | none => false
  if badKind (tKind t) then s.count Reg.wshopTokenBadCnt
  else if wrap ≤ m ∨ done = true ∨ e.toks.any (fun o => tSmp o == m) = true then s.count Reg.wshopAlignDropCnt
  else
    let s1 := pushEdge s g k t
    if n.sets.any fun x => x.smp == m then s1
    else s1.withNode g e.dst fun n => { n with sets := n.sets ++ [⟨m, s.up, t.getD 2 0, false⟩] }

/-- RECORDER_COPY (R311, R393, R394): an accepted token is copied to the recorder, which drops and counts what its queue of 256 or a DRAM out of service cannot take; while it is
frozen or disabled nothing is copied. -/
def recCopy (s : State) (t : List Word) : State :=
  if !s.rb Reg.recCfg 31 || s.rb Reg.recCfg 28 then s
  else if s.dramReady && decide (s.dram.recQ.length < 256) then
    s.withDram fun d => { d with recQ := d.recQ ++ [modAt t 0 fun w => putFld w 7 0 (min 255 d.recGap)], recGap := 0 }
  else (s.withDram fun d => { d with recGap := d.recGap + 1 }).count Reg.wshopRecDropCnt

/-- What TAP-IN does with the token at the head of a station's TAP hatch: 0 it is held there, also while DISPATCH has no credit for it (R275), 1 it is bad, 2 it is dropped, 3
it is accepted (R291, R308). -/
def tapJudge (s : State) (stn master : Nat) (t : List Word) : Nat :=
  let g := tGraph t
  let n := gNode s g (tNode t)
  if !(gState s g == 2 || gState s g == 4) || decide ((s.graph g).nodes.length ≤ tNode t) || n.kind != 1 || n.arg % 64 != stn ||
      thrTenancy s master != gTen s g then 1
  else if (gEdge s g (edgeOut s g (tNode t) 0)).room then (if edgeReach s g (edgeOut s g (tNode t) 0) then 3 else 0)
  else if n.arg.testBit 17 || gState s g == 4 then 2 else 0

/-- TAPIN_ACCEPT (R291): the Dispatcher takes the next token in its rotation over the TAP hatches that one of them does not hold back. -/
def execTapinAccept (dt : Nat) (s : State) : Host.Outcome State Fault Refusal :=
  let s := advance s dt
  let judge (stn : Nat) : Option (Nat × List Word) :=
    match (s.hatch (hatchNo 0x0B stn)).front with
    | some { pay := .token t, flow := m, xpr := _ } => some (tapJudge s stn m (t.map (·.data)), t.map (·.data))
    | some _ => some (4, [])
    | none => none
  let order := (List.range 48).map fun i => (s.wshop.tapNext + i) % 48
  match order.find? fun st => match judge st with | some (r, _) => r != 0 | none => false with
  | none => .next s
  | some st =>
    match judge st with
    | none => .next s
    | some (r, t) =>
      let h := hatchNo 0x0B st
      let s1 := (s.setHatch h (s.hatch h).consume).withWshop fun w => { w with tapNext := (st + 1) % 48 }
      let g := tGraph t
      let k := edgeOut s g (tNode t) 0
      let s2 := if (gNode s g (tNode t)).arg.testBit 16 then recCopy s1 t else s1
      occur s.life.rails s
        (if r = 1 then s1.count Reg.wshopTapBadCnt
         else if r = 2 then s1.count Reg.wshopTapDropCnt
         else if r = 3 then testGraph false (if (gEdge s g k).base = 0 then alignTake s2 g k t else deliverEdge s2 g k t) g
         else s1)

/-- ALIGN_HOLD_EXPIRY (R293): HOLD µs have passed since the first token of a pending set. -/
def execAlignHoldExpiry (g n smp dt : Nat) (s : State) : Host.Outcome State Fault Refusal :=
  let s := advance s dt
  let x := gNode s g n
  occur (s.life.rails && gState s g == 2 && x.kind == 2 && x.sets.any fun e => e.smp == smp && !e.expired && decide (e.since + alignHold x ≤ s.up)) s
    (s.withNode g n fun x => { x with sets := x.sets.map fun e => if e.smp = smp then { e with expired := true } else e })

/-- The pending set an ALIGN releases next: one that no other precedes, complete or expired (R293). -/
def alignNext (s : State) (g n : Nat) : Option AlignSet :=
  let x := gNode s g n
  let complete (m : Nat) : Bool := (List.range x.nin).all fun i => (gEdge s g (edgeIn s g n i)).toks.any fun t => tSmp t == m
  match x.sets.find? fun e => x.sets.all fun o => !setBefore (alignWrap x) o.smp e.smp with
  | some e => if e.expired || complete e.smp then some e else none
  | none => none

/-- A fill token (R293). -/
def fillToken (g n : Nat) (e : AlignSet) : List Word :=
  [BitVec.ofNat 32 (2 ^ 28 + g * 2 ^ 22 + n * 2 ^ 12), BitVec.ofNat 32 (e.smp * 2 ^ 16), e.pm, BitVec.ofNat 32 (2 ^ 29 + (2 ^ 24 - 1))] ++ List.replicate 12 0

/-- ALIGN_RELEASE (R293): the next set is released when every output has room and the way to it credit; an input without a token gives a fill token. -/
def execAlignRelease (g n dt : Nat) (s : State) : Host.Outcome State Fault Refusal :=
  let s := advance s dt
  let x := gNode s g n
  match alignNext s g n with
  | none => .next s
  | some e =>
    let one (acc : State × Bool) (i : Nat) : State × Bool :=
      let k := edgeIn acc.1 g n i
      let o := edgeOut acc.1 g n i
      match (gEdge acc.1 g k).toks.find? fun t => tSmp t == e.smp with
      | some t => (deliverEdge (acc.1.withEdge g k fun q => { q with toks := q.toks.filter fun u => tSmp u != e.smp }) g o t, acc.2)
      | none => (deliverEdge acc.1 g o (fillToken g n e), true)
    let r := (List.range x.nin).foldl one (s, false)
    let s1 := r.1.withNode g n fun x => { x with last := some e.smp, sets := x.sets.filter fun o => o.smp != e.smp }
    let s2 := if r.2 then logNode (s1.count Reg.wshopAlignFillCnt) g n 0 7 else s1
    occur (s.life.rails && gState s g == 2 && x.kind == 2 && (List.range x.nout).all fun i => (gEdge s g (edgeOut s g n i)).room && edgeReach s g (edgeOut s g n i)) s (testGraph false s2 g)

/-! ### Dispatch (R299, R303 to R306, R308) -/

/-- PINNED_FAIL (R308): a pinned graph becomes FAILED and raises an alarm. -/
def pinnedFail (s : State) (g n : Nat) : State :=
  if gState s g = 2 then
    ((s.setGState g 4).setRf (Reg.graphStat g) 20 11 n).raise 0x0204 (gIsland s g) (gBench s g) g n
  else s

/-- The words of the dispatch window (R299). -/
def dispatchWords (s : State) (g n limit : Nat) : List Word :=
  let x := gNode s g n
  let w (v : Nat) : Word := BitVec.ofNat 32 v
  [w (g * 2 ^ 26 + n * 2 ^ 16 + x.nin * 2 ^ 11 + x.nout * 2 ^ 6 + x.prio * 8 + b2n (gPinned s g) * 4), w (pmNow s), w ((s.graph g).paramDest + x.param), 0,
    w (pmOf limit), w (x.count + 1), 0, 0] ++
    ((List.range 16).map fun i => if i < x.nin then w (gEdge s g (edgeIn s g n i)).oldest else 0) ++
    ((List.range 16).map fun i => if i < x.nout then w (gEdge s g (edgeOut s g n i)).free else 0)

/-- LIMIT of a node. -/
def nodeLimit (x : GNode) : Nat := (if x.limit = 0 then 100 else x.limit) * 1000 * nsUnit

/-- A node dispatched to a thread: it passes the DISPATCH hatch, its window is written and doorbell 0 rung (R299); or to the bench helper (0xFFFF). -/
def dispatchTo (s : State) (g n m reason : Nat) : State :=
  let x := gNode s g n
  let limit := s.now + nodeLimit x
  let d : NodeDisp := ⟨g, n, m, pmNow s, limit, x.count + 1⟩
  let words := dispatchWords s g n limit
  let s1 := (s.withNode g n fun x => { x with run := some ⟨m, s.up + nodeLimit x⟩, count := (x.count + 1) % 2 ^ 32, noAcct := false, deferred := false }).withWshop
    fun w => { w with ready := w.ready.filter (· != (g, n)) }
  let s2 := if gPinned s g then s1 else setHold s1 (s.graph g).account (acctHold s (s.graph g).account + costUj x)
  let s3 :=
    if m = 0xFFFF then s2
    else
      let h := hatchNo 0x0C (gBench s g)
      ringBell ((s2.setHatch h ((s2.hatch h).pass false { pay := .dispatch d, flow := 0, xpr := false })).withThr m fun t =>
        { t with disp := some ⟨d, 0, words, thrSlots s m⟩, late := false }) m 0
  logNode s3 g n (if m = 0xFFFF then 0 else m) reason

/-- Whether a bench thread waits with mask 0x01 and holds no dispatch (R259, R299). -/
def waitsWork (s : State) (m : Nat) : Bool :=
  thrState s m == 2 && (s.thr m).waitMask == 1 && (s.thr m).keyWait.isNone && (s.thr m).disp.isNone && (heldItem s m).isNone

/-- Whether an engine is being handed work: not failed, not parked, not being drained (R417). -/
def takesWork (s : State) (e : Nat) : Bool := !engFailed s e && !engParked s e && !(s.ledg.draining.any fun p => p.1 == e)

/-- The free thread of a bench for a tenancy: the engines in rotation, the lowest thread number (R170, R304). -/
def freeThread (s : State) (b ten : Nat) : Option Nat :=
  let order := (List.range 4).map fun i => 192 + b * 4 + (mapGet 0 s.wshop.engNext b + i) % 4
  order.findSome? fun e => if takesWork s e then
      ((List.range 16).map (e * 16 + ·)).find? fun m => waitsWork s m && !thrIsT s m && thrPool s m && thrTenancy s m == ten
    else none

/-- Whether a bench's helper runs no node. -/
def helperFree (s : State) (b : Nat) : Bool :=
  !(s.wshop.graphs.any fun p => gBench s p.1 == b && p.2.nodes.any fun n => match n.run with | some r => r.thread == 0xFFFF | none => false)

/-- Where a node would be dispatched: a thread, the helper, or nowhere now. -/
def placeFor (s : State) (g n : Nat) : Option Nat :=
  if (gNode s g n).kind = 0 then freeThread s (gBench s g) (gTen s g) else if helperFree s (gBench s g) then some 0xFFFF else none

/-- The ready nodes of a bench, by list from priority 7 down and by age. -/
def benchReady (s : State) (b : Nat) : List (Nat × Nat) :=
  let l := s.wshop.ready.filter fun p => gBench s p.1 == b
  (List.range 8).flatMap fun i => l.filter fun p => (gNode s p.1 p.2).prio == 7 - i

/-- The thread a pinned node is placed on (R284). -/
def placement (s : State) (g n : Nat) : Nat := (192 + gBench s g * 4) * 16 + (gNode s g n).arg % 64

/-- Whether a node of a pinned graph is due: ready, and its thread runs no other node of the graph, or the bench helper none (R306). -/
def pinnedReady (s : State) (g n : Nat) : Bool :=
  let busy (m : Nat) : Bool := (s.graph g).nodes.any fun x => match x.run with | some r => r.thread == m | none => false
  readyBut s g n && (if (gNode s g n).kind = 0 then !busy (placement s g n) else helperFree s (gBench s g))

/-- The first node of a pinned graph, in node order, that is due. -/
def pinnedNext (s : State) (g : Nat) : Option Nat := (List.range (s.graph g).nodes.length).find? (pinnedReady s g)

/-- A ready node passed over for a thread or helper that is busy: its first deferral is recorded (R310). -/
def deferNode (s : State) (p : Nat × Nat) : State :=
  if (gNode s p.1 p.2).deferred then s else logNode (s.withNode p.1 p.2 fun x => { x with deferred := true }) p.1 p.2 0 4

/-- A listed node that its account no longer affords is ready no more and waits for the next Ledger tick (R303, R305). -/
def unlist (s : State) (p : Nat × Nat) : State :=
  let s1 := (s.withNode p.1 p.2 fun x => { x with noAcct := true, deferred := true }).withWshop fun w => { w with ready := w.ready.filter (· != p) }
  if (gNode s p.1 p.2).deferred then s1 else logNode s1 p.1 p.2 0 3

/-- The listed nodes of a bench that their accounts still afford, and those they do not. -/
def benchAfford (s : State) (b : Nat) (yes : Bool) : List (Nat × Nat) :=
  (benchReady s b).filter fun p => affords s (s.graph p.1).account (gNode s p.1 p.2) == yes

/-- Whether a node of some pinned graph is due: it goes ahead of all unpinned work (R306). -/
def pinnedDue (s : State) : Bool :=
  s.wshop.graphs.any fun p => gPinned s p.1 && gState s p.1 == 2 && dispatchRoom s (gBench s p.1) && (pinnedNext s p.1).isSome

/-- NODE_DISPATCH (R303 to R305): the oldest ready node of the highest list that has a free thread or helper is dispatched; nodes passed over for want of one are deferred, and those
that their account no longer affords wait for the next tick.
In hard throttle none is (R403), and a pinned node that is due goes first (R306). -/
def execNodeDispatch (bench dt : Nat) (s : State) : Host.Outcome State Fault Refusal :=
  let s := advance s dt
  let l := benchAfford s bench true
  let k := l.findIdx fun p => (placeFor s p.1 p.2).isSome
  let s1 := (l.take k).foldl deferNode ((benchAfford s bench false).foldl unlist s)
  let s2 := match l[k]? with
    | some (g, n) => match placeFor s g n with
      | some m =>
        let t := dispatchTo s1 g n m 0
        if m = 0xFFFF then t else t.withWshop fun w => { w with engNext := mapSet 0 w.engNext bench ((m / 16 - 192 + 1) % 4) }
      | none => s1
    | none => s1
  occur (s.life.rails && decide (bench < 8) && !(benchReady s bench).isEmpty && !hardThrottle s && dispatchRoom s bench && !pinnedDue s) s s2

/-- PINNED_DISPATCH (R306, R308): the first ready node of a pinned graph that is due is dispatched; a placement thread that does not wait for it fails the graph. A node whose
thread runs another node of the graph is not due yet. -/
def execPinnedDispatch (g dt : Nat) (s : State) : Host.Outcome State Fault Refusal :=
  let s := advance s dt
  match pinnedNext s g with
  | none => .next s
  | some n =>
    let m := if (gNode s g n).kind = 0 then placement s g n else 0xFFFF
    let passed := ((List.range n).filter (readyBut s g)).map (g, ·)
    occur (s.life.rails && gPinned s g && gState s g == 2 && dispatchRoom s (gBench s g)) s
      (if m = 0xFFFF ∨ waitsWork s m then dispatchTo (passed.foldl deferNode s) g n m 1 else pinnedFail s g n)

/-! ### Completion (R301, R302, R305, R406) -/

/-- A node's hold is released and what it used is charged: the slots of a ROUTINE at the tick, the COST of a helper's node now. The nodes of a pinned graph are the reserve's: its
ROUTINEs by the slots of their T-threads, its helpers' nodes by their COST (R306, R404). -/
def chargeNode (s : State) (g n m slots : Nat) : State :=
  let a := (s.graph g).account
  if gPinned s g then (if m = 0xFFFF then chargeNj s 0 (gNode s g n).cost else s)
  else
    let s1 := setHold s a (acctHold s a - costUj (gNode s g n))
    if m = 0xFFFF then chargeNj s1 a (gNode s g n).cost
    else s1.withLedg fun l => { l with nodes := l.nodes ++ [(a, gBench s g, m, slots)] }

/-- A node ends: every input's oldest token is consumed; its outputs are published where the mask says, unless the graph is being stopped. -/
def endNode (s : State) (g n mask : Nat) : State :=
  let x := gNode s g n
  let s1 := s.withNode g n fun x => { x with run := none }
  if gState s g = 3 then s1
  else
    let s2 := (List.range x.nin).foldl (fun t i => consumeEdge t g (edgeIn t g n i)) s1
    (List.range x.nout).foldl (fun t i => if mask.testBit i then publishEdge t g (edgeOut t g n i) else t) s2

/-- NODE_END (R302, R308): a node ended by timeout (0) or fault (1): the alarm, and the failure of a pinned graph. -/
def nodeEnded (s : State) (g n m slots how : Nat) : State :=
  let s1 := logNode (chargeNode (endNode s g n 0) g n m slots) g n (if m = 0xFFFF then 0 else m) (5 + how)
  let s2 := s1.raise 0x0203 (gIsland s g) (gBench s g) g n how
  if gPinned s g then pinnedFail s2 g n else s2

/-- NODE_DONE (R301, R302): the Dispatcher takes the next completion of a bench: the node ends with its outputs, or, when its thread has faulted, without; one that has ended already
is passed over. -/
def execNodeDone (bench dt : Nat) (s : State) : Host.Outcome State Fault Refusal :=
  let s := advance s dt
  let h := hatchNo 0x0D bench
  let s1 := s.setHatch h (s.hatch h).consume
  match (s.hatch h).front with
  | none => .next s
  | some { pay := .nodeDone d, flow := _, xpr := _ } =>
    let mine := match (gNode s d.graph d.node).run with | some r => r.thread == d.thread | none => false
    occur (s.life.rails && decide (bench < 8)) s
      (if mine then
        testGraph false (if d.how = 0 then
            let t := chargeNode (endNode s1 d.graph d.node d.outmask) d.graph d.node d.thread d.slots
            logNode t d.graph d.node d.thread 2
          else nodeEnded s1 d.graph d.node d.thread d.slots 1) d.graph
       else s1)
  | some _ => occur (s.life.rails && decide (bench < 8)) s s1

/-- NODE_TIMEOUT (R302): a node that has not ended by LIMIT_AT is ended by the Dispatcher, and its thread's claim is over. -/
def execNodeTimeout (g n dt : Nat) (s : State) : Host.Outcome State Fault Refusal :=
  let s := advance s dt
  match (gNode s g n).run with
  | none => .next s
  | some r =>
    let holds := r.thread == 0xFFFF || (match (s.thr r.thread).disp with | some d => d.d.graph == g && d.d.node == n | none => false)
    let slots := nodeSlots s r.thread
    let s1 := if r.thread = 0xFFFF then s else (s.dropDispatch r.thread).withThr r.thread fun t => { t with late := true }
    occur (s.life.rails && holds && decide (r.limitAt < s.up)) s
      (testGraph false (nodeEnded (s1.count Reg.wshopNodeTimeoutCnt) g n r.thread slots 0) g)

/-! ### WINDOW and EMIT (R294 to R298) -/

/-- A helper's node completes. -/
def helperNodeDone (s : State) (g n mask : Nat) : State :=
  testGraph false (logNode (chargeNode (endNode s g n mask) g n 0xFFFF 0) g n 0 2) g

/-- WINDOW (R294): the token goes into the ring; once N have arrived, and then at every STEP, a DATA token is written. -/
def execWindowNode (g n dt : Nat) (s : State) : Host.Outcome State Fault Refusal :=
  let s := advance s dt
  let x := gNode s g n
  let i := gIsland s g
  let nn := bits x.arg 21 11
  let step := x.arg % 2048
  let o := gEdge s g (edgeOut s g n 0)
  let len := nn + step * o.depth
  let t := getToken s i (gEdge s g (edgeIn s g n 0)).oldest
  let s1 := putToken s i (x.ring + x.slot * 64) t
  let fire := if x.have_ < nn then decide (x.have_ + 1 = nn) else decide (x.since + 1 = step)
  let data := [BitVec.ofNat 32 (3 * 2 ^ 28 + g * 2 ^ 22 + n * 2 ^ 12 + 4 * 2 ^ 8), BitVec.ofNat 32 (tSmp t * 2 ^ 16), t.getD 2 0, 0,
    BitVec.ofNat 32 x.ring, BitVec.ofNat 32 x.slot, BitVec.ofNat 32 len, BitVec.ofNat 32 nn] ++ List.replicate 8 (0 : Word)
  let s2 := s1.withNode g n fun x =>
    { x with slot := (x.slot + 1) % len, have_ := min nn (x.have_ + 1), since := if fire = true ∨ x.have_ < nn then 0 else x.since + 1 }
  let s3 := if fire then putToken s2 i o.free data else s2
  occur (s.life.rails && x.kind == 3 && (match x.run with | some r => r.thread == 0xFFFF | none => false)) s (helperNodeDone s3 g n (b2n fire))

/-- The time in the 4 s window that contains a TIME word (R297): the latest not after now. -/
def fullTime (s : State) (w : Word) : Nat :=
  let sec := s.now / secUnit
  let cand (k : Nat) : Nat := (sec / 4 * 4 + fld w 31 30) * secUnit + fld w 29 0 * nsUnit - k * 4 * secUnit
  if cand 0 ≤ s.now then cand 0 else cand 1

/-- The UtcTime EMIT writes (R297). -/
def emitTime (s : State) (w : Word) : List Byte :=
  let t := fullTime s w
  let st := s.rf Reg.timeStatus 10 8
  beBytes 4 ((t / secUnit + 2 ^ 32 - s.rf Reg.emitUtc 7 0) % 2 ^ 32) ++ beBytes 3 (t / nsUnit % 1000000000 * 2 ^ 24 / 1000000000) ++
    [BitVec.ofNat 8 ((if st = 2 ∨ st = 3 then 0 else 32) + 20)]

/-- The message an EMIT node makes of a token, with its new template, or none when a field lies beyond TLEN or the key is refused (R296). -/
def emitMessage (s : State) (g n : Nat) (t : List Word) (p : List Nat) (tpl : List Byte) : Option (List Byte) :=
  let hw (k : Nat) : Nat := p.getD k 0 / 65536
  let lw (k : Nat) : Nat := p.getD k 0 % 65536
  let tlen := hw 0
  let dlen := hw 4
  let mode := bits (gNode s g n).arg 15 12
  let vals := (wordBytes (t.drop 4)).take dlen
  let fits := decide (hw 2 + 4 ≤ tlen) && decide (lw 2 + 4 ≤ tlen) && decide (hw 3 + 8 ≤ tlen) && decide (lw 3 + dlen ≤ tlen) &&
    (mode == 0 || (decide (lw 4 + hw 5 ≤ tlen) && decide (lw 5 + hw 6 ≤ tlen)))
  let key := match s.keySlots.find? fun q => q.1 == (gNode s g n).arg % 4096 with
    | some (_, k) => if k.tenancy = gTen s g ∧ k.typ = 3 then some k.data else none
    | none => none
  if !fits || (mode != 0 && key.isNone) then none
  else
    let st := beNat (slice tpl (hw 2) 4)
    let sq := beNat (slice tpl (lw 2) 4)
    let m1 := if slice tpl (lw 3) dlen = vals then overwrite tpl (lw 2) (beBytes 4 ((sq + 1) % 2 ^ 32))
      else overwrite (overwrite (overwrite (overwrite tpl (lw 3) vals) (hw 2) (beBytes 4 ((st + 1) % 2 ^ 32))) (lw 2) (beBytes 4 0)) (hw 3) (emitTime s (t.getD 2 0))
    match key with
    | some k => if mode = 0 then some m1 else some (overwrite m1 (lw 5) ((hmacSha256 k (slice m1 (lw 4) (hw 5))).take (hw 6)))
    | none => some m1

/-- EMIT (R295 to R298): a DATA or EVENT token becomes a message, which passes EMIT in cells and which the Depot takes as a frame of source 2; any other is discarded and counted. -/
def execEmitNode (g n dt : Nat) (s : State) : Host.Outcome State Fault Refusal :=
  let s := advance s dt
  let x := gNode s g n
  let i := gIsland s g
  let t := getToken s i (gEdge s g (edgeIn s g n 0)).oldest
  let p := wordsOf (shmBytes s i ((s.graph g).paramDest + x.param) 32)
  let tplA := p.getD 1 0
  let tpl := shmBytes s i tplA (p.getD 0 0 / 65536)
  let ph := bits x.arg 31 19
  let h := hatchNo 0x0E (gBench s g)
  let msg := if tKind t = 3 ∨ tKind t = 4 then emitMessage s g n t p tpl else none
  let s1 :=
    match msg with
    | none => s.count (if badKind (tKind t) then Reg.wshopTokenBadCnt else Reg.wshopEmitDropCnt)
    | some m =>
      ((writeShm s i tplA m false).passed h (cellsOf (m.length + 4))).originate
        { src := 2, no := gBench s g, ten := gTen s g, colour := 0, cls := ph % 8, ph := ph, mc := false, group := 0, ptp := false, ect := false,
          s0 := BitVec.ofNat 32 (p.getD 7 0), s1 := 0, sealNo := s.epoch.sealEpoch, pm := s.now } (m ++ fcsOf m)
  occur (s.life.rails && x.kind == 4 && (match x.run with | some r => r.thread == 0xFFFF | none => false) && (msg.isNone || s.clear h)) s (helperNodeDone s1 g n 0)

end Sys2Proof.Machine
end

