-- ==== Sys2Proof/Machine/Fail.lean ====
section
/-! DEFINITION. The failure of an engine (R184, R185, R308, R529). -/

namespace Sys2Proof.Machine

/-- Whether a failed engine of a station is covered by its standby. -/
def engCovered (s : State) (e : Nat) : Bool :=
  let b := e / 4 * 4 + s.rf (standbyR e) 1 0
  !engFailed s b && ((s.station (e / 4)).takeover == some e || (s.rb (standbyR e) 7 && s.rf (standbyR e) 5 4 == e % 4))

/-- Stations with a failed engine that no standby covers (LIFE_MARGIN1.UNCOVERED). -/
def uncovered (s : State) : Nat :=
  ((List.range 48).filter fun st => (islandEngines st).any fun e => engFailed s e && !engCovered s e).length

/-- The first ROUTINE node of a graph that is placed on an engine. -/
def placedOn (s : State) (g e : Nat) : Option Nat :=
  (List.range (s.graph g).nodes.length).find? fun n => (gNode s g n).kind == 0 && placement s g n / 16 == e

/-- An engine fails (R184), with what follows for its station, the pinned graphs placed on it (R308), the cause ENGINE and its margins (R529). -/
def failEngine (s : State) (e arg : Nat) : State :=
  if engFailed s e then s
  else
    let s1 := engineDown s e arg
    let fail (t : State) (g : Nat) : State :=
      match (if gPinned t g then placedOn t g e else none) with
      | some n => unready (pinnedFail t g n) g
      | none => t
    let s2 := (s1.wshop.graphs.map (·.1)).foldl fail s1
    let s3 := s2.setRf Reg.lifeMargin0 31 24 (min 228 (s2.rf Reg.lifeMargin0 31 24 + 1))
    (s3.setRf Reg.lifeMargin1 31 24 (uncovered s3)).causeUp 1

/-- RETIRE (R184): the host declares an engine failed. -/
def execEngRetire (m e : Nat) (val : Word) (s : State) : Host.Outcome State Fault Refusal :=
  occur (s.life.rails && decide (e < engineCount) && bitOf val 8) s
    (s.command m (engCtlR e) val (engCtlBoth val) fun s => failEngine s e 3)

/-- ENGINE_FAIL (R184): an engine fails by a second uncorrectable instruction-memory error within 1 s (cause 1), or by a parity error in its register files or slot
table (cause 2). -/
def execEngineFail (e dt cause : Nat) (s : State) : Host.Outcome State Fault Refusal :=
  let s := advance s dt
  let twice := match (s.eng e).imemErrs with | [a, b] => decide (b ≤ a + secUnit) | _ => false
  occur (s.life.rails && decide (e < engineCount) && (cause == 2 || (cause == 1 && twice))) s (failEngine s e cause)

end Sys2Proof.Machine
end

