-- ==== Sys2Proof/Machine/Ledger.lean ====
section
/-! DEFINITION. The Energy and Heat Ledger (chapter 12): reports, the tick, the thermal term, charging, island frequency and parking. -/

namespace Sys2Proof.Machine

/-! ### Reports (R396, R399) -/

/-- A report is refused when it is negative, read as 32-bit two's complement, or above the rail rating for one tick. -/
def reportBad (r : MeterRep) : Bool := decide (2 ^ 31 ≤ r.energy % 2 ^ 32) || decide (Config.railRating r.island < r.energy)

/-- The mean of the island's last accepted reports, up to sixteen. -/
def reportMean (s : State) (i : Nat) : Nat :=
  let l := mapGet [] s.ledg.reports i
  if l.isEmpty then 0 else l.foldl (· + ·) 0 / l.length

/-- The margin SENSORS_OK, and the cause SENSOR while something has failed (R529). -/
def sensorFailed (s : State) : State := (s.withLife fun l => { l with sensorsGoodAt := s.up }).causeUp 5

/-- Energy joins what an island has used in the tick. -/
def addEnergy (s : State) (i nj : Nat) : State := s.withLedg fun l => { l with energy := mapSet 0 l.energy i (mapGet 0 l.energy i + nj) }

/-- The report of an island judged (R399): accepted, or refused with an alarm and the mean in its place. -/
def takeReport (s : State) (r : MeterRep) : State :=
  let i := r.island
  if reportBad r then sensorFailed ((addEnergy s i (reportMean s i)).count Reg.ledgMeterRejCnt |>.raise 0x0602 81 0 i)
  else (addEnergy s i r.energy).withLedg fun l => { l with reports := mapSet [] l.reports i ((mapGet [] l.reports i ++ [r.energy]).drop ((mapGet [] l.reports i).length - 15)) }

/-- METER_REPORT (R396, R399): the next report of an island is accepted, or refused with an alarm and the mean charged in its place. -/
def execMeterReport (island dt : Nat) (s : State) : Host.Outcome State Fault Refusal :=
  let s := advance s dt
  let h := hatchNo 0x13 island
  let s1 := s.setHatch h (s.hatch h).consume
  match (s.hatch h).front with
  | some { pay := .meter r, flow := _, xpr := _ } =>
    occur (s.life.rails && hatchExists h) s
      (takeReport s1 { r with island := island })
  | some _ => occur (s.life.rails && hatchExists h) s s1
  | none => .next s

/-! ### Heat (R398, R402, R403) -/

/-- Whether sensor i has failed: a reading outside −40 to 150 °C, or none for 16 ticks. -/
def sensorBad (s : State) (i : Nat) (r : Option Int) : Bool :=
  match r with
  | some t => decide (t < -40) || decide (150 < t)
  | none => s.ledg.badSensors.contains i || decide (15 ≤ mapGet 0 s.ledg.silent i)

/-- The estimate from the readings: the highest valid one with 2 K for each failed sensor, 115 °C with five or more failed; with no reading to take it stays. -/
def estimate (old : Int) (bad : Nat) (valid : List Int) : Int :=
  if 5 ≤ bad then 115
  else match valid with
    | [] => old
    | t :: r => r.foldl max t + 2 * bad

/-- The readings of a tick: failed sensors alarmed and counted, EST, hard throttle and THERM_CRIT. EST reads 127 when it is higher. -/
def takeSensors (s : State) (rd : List (Option Int)) : State × Int :=
  let get (i : Nat) : Option Int := rd.getD i none
  let bad := (List.range 24).filter fun i => sensorBad s i (get i)
  let fresh := bad.filter fun i => !s.ledg.badSensors.contains i
  let valid := ((List.range 24).filter fun i => !bad.contains i).filterMap get
  let old := signed 8 (s.rf Reg.ledgTherm 23 16)
  let est := estimate old bad.length valid
  let quiet (m : NMap Nat) (i : Nat) : NMap Nat := mapSet 0 m i (if (get i).isNone then mapGet 0 m i + 1 else 0)
  let s1 := s.withLedg fun l => { l with badSensors := bad, silent := (List.range 24).foldl quiet l.silent }
  let s2 := fresh.foldl (fun t i => t.raise 0x0601 81 i) s1
  let s3 := (s2.setRf Reg.ledgTherm 28 24 bad.length).setRf Reg.ledgTherm 23 16 ((min est 127) % 256).toNat
  let s4 := s3.setRf Reg.lifeMargin0 4 0 (24 - bad.length)
  let s5 := if bad.isEmpty then s4 else sensorFailed s4
  let s6 := if 115 ≤ est then s5.setRf Reg.ledgTherm 31 31 1 else if est < 110 then s5.setRf Reg.ledgTherm 31 31 0 else s5
  let s7 :=
    if 125 ≤ est then
      (match s.ledg.critSince with
       | none => (s6.raise 0x0604 81 0 est.toNat).withLedg fun l => { l with critSince := some s.up }
       | some _ => s6)
    else s6.withLedg fun l => { l with critSince := none }
  (s7, est)

/-- The thermal factor in 1/256 (R402). -/
def thermalFactor (est lo : Int) : Nat :=
  if est ≤ lo then 256 else if 105 ≤ est then 0 else (256 * (105 - est) / (105 - lo)).toNat

/-! ### Income (R400, R408) -/

/-- An account's EN, its SHARE, which counts for an enabled account from 1 to 31, and its ceiling in µJ. -/
def acctEn (s : State) (a : Nat) : Bool := s.rb (Reg.acctCfg a) 31
def acctShare (s : State) (a : Nat) : Nat := if a ≠ 0 ∧ acctEn s a then s.rf (Reg.acctCfg a) 23 16 else 0
def acctCeil (s : State) (a : Nat) : Int := (s.rf (Reg.acctCfg a) 15 0 * 64 : Nat)

/-- The credits of a tick of `us` whole microseconds, and the ceilings. -/
def creditAll (s : State) (us f : Nat) : State :=
  let g := s.rf Reg.ledgCap 7 0 * us
  let rin := s.rf Reg.ledgReserve 23 16 * us
  let d := g * f / 256 - rin
  let sum := ((List.range 32).map (acctShare s)).foldl (· + ·) 0
  let share (a : Nat) : Nat := if sum = 0 then 0 else d * acctShare s a / sum
  let given := ((List.range 32).map share).foldl (· + ·) 0
  let s1 := if acctEn s 0 then addBal s 0 rin else s
  let s2 := (List.range 32).foldl (fun t a => if share a = 0 then t else addBal t a (share a)) s1
  let s3 := addBal s2 19 (d - given : Nat)
  let ovr := (List.range 32).filter fun a => decide (acctCeil s a < acctBal s3 a)
  let s4 := ovr.foldl (fun t a => putBal t a (acctCeil s a)) s3
  if ovr.isEmpty then s4 else s4.count Reg.ledgCeilCnt

/-! ### Charging (R404 to R406) -/

/-- The account a thread's slots are charged to. -/
def threadAcct (s : State) (m : Nat) : Nat :=
  if 224 ≤ m / 16 then 18 else if thrIsT s m then 0 else if m / 16 < 192 then thrTenancy s m + 1 else 17

/-- The count of slots up to which a thread is charged at a tick: while it runs a node of an unpinned graph, those before it. -/
def chargeUpTo (s : State) (m : Nat) : Nat :=
  match (s.thr m).disp with
  | some d => if gPinned s d.d.graph then thrSlots s m else d.slots
  | none => thrSlots s m

/-- The threads of the station, bench and Hall engines that have run. -/
def threadsOf (s : State) : List Nat := s.engines.flatMap fun p => p.2.threads.map fun q => p.1 * 16 + q.1

/-- The energy of n slots of an island in nJ: EPS = E ÷ (4 × C). -/
def slotEnergy (s : State) (energy : NMap Nat) (i n : Nat) : Nat :=
  let c := cycleOf s i - mapGet 0 s.ledg.cycAt i
  if c = 0 then 0 else n * mapGet 0 energy i / (4 * c)

/-- The charges of a tick: threads by their slots, nodes that have ended, and BASE with the rest of the input energy. -/
def chargeAll (s : State) (energy : NMap Nat) (vin : Nat) : State :=
  let slots (m : Nat) : Nat := (chargeUpTo s m + 2 ^ 32 - mapGet 0 s.ledg.slotsAt m) % 2 ^ 32
  let byThread : List (Nat × Nat) := (threadsOf s).map fun m => (threadAcct s m, slotEnergy s energy (engIsland (m / 16)) (slots m))
  let byNode : List (Nat × Nat) := s.ledg.nodes.map fun n => (n.1, slotEnergy s energy (73 + n.2.1) n.2.2.2)
  let all := byThread ++ byNode
  let total : Nat := (all.map fun p => p.2).foldl (fun a b => a + b) 0
  let s1 := all.foldl (fun t p => chargeNj t p.1 p.2) s
  let s2 := chargeNj s1 19 ((vin : Int) - (total : Int))
  s2.withLedg fun l =>
    { l with slotsAt := (threadsOf s).foldl (fun m k => mapSet 0 m k (chargeUpTo s k)) l.slotsAt, nodes := [],
             cycAt := (List.range 82).foldl (fun m i => mapSet 0 m i (cycleOf s i)) l.cycAt, energy := [] }

/-! ### Island frequency (R410 to R414) -/

/-- The islands the Ledger clocks: 48 stations and 8 benches. -/
def ledgIslands : List Nat := (List.range 48) ++ (List.range 8).map (73 + ·)

/-- The floor of an island (R413). -/
def islandFloor (s : State) (i : Nat) : Nat :=
  if !s.rb Reg.ledgReserve 31 then 4
  else if i < 48 then s.rf Reg.ledgReserve 4 0
  else if s.wshop.graphs.any fun p => gState s p.1 == 2 && gPinned s p.1 && gIsland s p.1 == i then s.rf Reg.ledgReserve 12 8
  else 4

/-- The demand of an island (R413). -/
def islandDemand (s : State) (i : Nat) : Nat :=
  if i < 48 then (s.hatch (hatchNo (if i % 3 = 0 then 2 else if i % 3 = 1 then 3 else 5) (i / 3))).gFifo.length
  else (s.wshop.ready.filter fun p => gIsland s p.1 == i && (gNode s p.1 p.2).kind == 0).length

/-- FREQ of an island, a change under way counted as made; and FMAX. -/
def islandFreq (s : State) (i : Nat) : Nat := match s.ledg.freqs.find? fun p => p.1 == i with | some p => p.2 | none => s.rf (Reg.ledgIslCfg i) 12 8
def islandFmax (s : State) (i : Nat) : Nat := s.rf (Reg.ledgIslCfg i) 4 0

/-- The frequency rules in order (R412): no rule from 3 on moves an island by more than one step, or below its floor (R15). -/
def nextFreq (hard : Bool) (head : Int) (floor freq fmax demand up down : Nat) : Nat :=
  if hard ∨ freq < floor then floor
  else if head < 0 then max floor (freq - 1)
  else if up ≤ demand then max floor (max (freq - 1) (min (freq + 1) fmax))
  else if demand ≤ down then max floor (freq - 1)
  else freq

/-- The frequencies of the next tick chosen. -/
def chooseFreqs (s : State) (head : Int) : State :=
  let one (t : State) (i : Nat) : State :=
    let f := nextFreq (hardThrottle s) head (islandFloor s i) (islandFreq s i) (islandFmax s i) (islandDemand s i) (s.rf Reg.ledgGov 15 8) (s.rf Reg.ledgGov 7 0)
    if f = islandFreq s i then t else t.withLedg fun l => { l with freqs := mapInsert (mapErase l.freqs i) i f }
  ledgIslands.foldl one s

/-- FREQ_APPLY (R107, R414): a new frequency takes effect, and the island's time counter goes on with its increment. -/
def execFreqApply (island dt : Nat) (s : State) : Host.Outcome State Fault Refusal :=
  let s := advance s dt
  match s.ledg.freqs.find? fun p => p.1 == island with
  | none => .next s
  | some p =>
    occur s.life.rails s
      ((restep ((rebase s island).setRf (Reg.ledgIslCfg island) 12 8 p.2) island).withLedg fun l => { l with freqs := mapErase l.freqs island })

/-! ### Parking (R415 to R420) -/

/-- Whether an engine is being drained, or unparked. -/
def draining (s : State) (e : Nat) : Bool := s.ledg.draining.any fun p => p.1 == e

/-- Whether an engine is parkable (R415); one that is parked or being drained is parked already. -/
def parkable (s : State) (e : Nat) : Bool :=
  decide (e < 224) && !engFailed s e && !engParked s e && !draining s e &&
    !((List.range 16).any fun t => thrEn s (e * 16 + t) && thrIsT s (e * 16 + t)) && !isStandby s e &&
    !(s.wshop.graphs.any fun p => decide (1 ≤ gState s p.1) && decide (gState s p.1 ≤ 3) && gPinned s p.1 && (placedOn s p.1 e).isSome) &&
    (islandEngines (engIsland e)).any fun o => o != e && !engFailed s o && !engParked s o && !draining s o

/-- A park begins (R417 step 1). -/
def beginPark (host : Bool) (s : State) (e : Nat) : State := s.withLedg fun l => { l with draining := mapInsert (mapErase l.draining e) e (s.up, host) }

/-- Whether the Ledger may choose an engine to park. -/
def ledgMayPark (s : State) (e : Nat) : Bool := parkable s e && !s.ledg.hostHeld.contains e && decide (mapGet 0 s.ledg.notBefore e ≤ s.ledg.ticks)

/-- The engine the Ledger would park: in the island with the lowest demand, the lowest number among equals. -/
def parkChoice (s : State) : Option Nat :=
  let l := (List.range 224).filter (ledgMayPark s)
  l.foldl (fun b e => match b with
    | none => some e
    | some o => if islandDemand s (engIsland e) < islandDemand s (engIsland o) then some e else some o) none

/-- Every island at its floor (R411, R416). -/
def allAtFloor (s : State) : Bool := ledgIslands.all fun i => decide (s.rf (Reg.ledgIslCfg i) 12 8 ≤ islandFloor s i)

/-- Parking at a tick (R403, R416). `floor` is whether the tick has found every island at its floor. -/
def parkTick (s : State) (head : Int) (floor : Bool) : State :=
  let n := if head < 0 ∧ floor = true then s.ledg.negTicks + 1 else 0
  let s1 := s.withLedg fun l => { l with negTicks := n }
  if hardThrottle s then (List.range 224).foldl (fun t e => if ledgMayPark t e then beginPark false t e else t) s1
  else if s.rf Reg.ledgGov 23 16 ≤ n then
    match parkChoice s1 with
    | some e => (beginPark false s1 e).withLedg fun l => { l with negTicks := 0 }
    | none => s1
  else s1

/-- Whether the Ledger may unpark an engine. -/
def ledgMayUnpark (s : State) (e : Nat) : Bool :=
  engParked s e && !engFailed s e && !s.ledg.hostHeld.contains e && !s.ledg.unparking.contains e

/-- Unparking at a tick (R419): a request first, then demand. -/
def unparkTick (s : State) (head : Int) : State :=
  let asked := s.ledg.wanted.find? (ledgMayUnpark s)
  let wants (e : Nat) : Bool :=
    let i := engIsland e
    ledgMayUnpark s e && decide (s.rf Reg.ledgGov 15 8 ≤ islandDemand s i) && s.rf (Reg.ledgIslCfg i) 12 8 == islandFmax s i
  let pick := match asked with
    | some e => some e
    | none => if 0 ≤ head then (List.range 224).find? wants else none
  match pick with
  | some e => s.withLedg fun l => { l with unparking := l.unparking ++ [e], wanted := l.wanted.filter (· != e) }
  | none => s

/-- Whether an engine is drained (R417 step 2). -/
def drained (s : State) (e : Nat) : Bool :=
  (List.range 16).all fun t =>
    let m := e * 16 + t
    let st := thrState s m
    let x := s.thr m
    let waits := st == 2 && x.waitMask == 1 && x.keyWait.isNone
    (st == 0 || st == 3 || st == 4 || waits) && (heldItem s m).isNone && x.disp.isNone && x.tags.isEmpty &&
      !((s.shm (engIsland e)).taps.any fun p => p.thread == m) && !(waits && s.keys.keys.any fun k => k.2.owner == some m)

/-- PARK_DONE (R417): a draining engine is drained; its threads become PARKED and its clock stops. -/
def execParkDone (e dt : Nat) (s : State) : Host.Outcome State Fault Refusal :=
  let s := advance s dt
  match s.ledg.draining.find? fun p => p.1 == e with
  | none => .next s
  | some p =>
    let park (t : State) (n : Nat) : State :=
      let m := e * 16 + n
      let st := thrState t m
      if st = 0 ∨ st = 4 then t else (t.withThr m fun x => { x with former := st }).setThrState m 5
    let s1 := (List.range 16).foldl park (s.withLedg fun l => { l with draining := mapErase l.draining e })
    occur (s.life.rails && drained s e && !engFailed s e && decide (s.up ≤ p.2.1 + 20000 * nsUnit)) s (s1.setRf (engStatR e) 26 26 1)

/-- PARK_ABORT (R417): an engine not drained within 20 µs goes on, and is not chosen for 125 ticks; after the 20 µs it does so whatever it has drained since. -/
def execParkAbort (e dt : Nat) (s : State) : Host.Outcome State Fault Refusal :=
  let s := advance s dt
  match s.ledg.draining.find? fun p => p.1 == e with
  | none => .next s
  | some p =>
    occur (s.life.rails && decide (p.2.1 + 20000 * nsUnit ≤ s.up) && (!drained s e || decide (p.2.1 + 20000 * nsUnit < s.up))) s
      ((s.withLedg fun l => { l with draining := mapErase l.draining e, notBefore := mapSet 0 l.notBefore e (l.ticks + 125) }).count Reg.ledgParkAbortCnt)

/-- UNPARK_DONE (R419): the engine's clock restarts and each thread returns to the state it had, or the one it has since been woken to. -/
def execUnparkDone (e dt : Nat) (s : State) : Host.Outcome State Fault Refusal :=
  let s := advance s dt
  let one (t : State) (n : Nat) : State :=
    let m := e * 16 + n
    if thrState t m = 5 then t.setThrState m (t.thr m).former else t
  let s1 := (List.range 16).foldl one (s.withLedg fun l => { l with unparking := l.unparking.filter (· != e) })
  occur (s.life.rails && s.ledg.unparking.contains e && !engFailed s e) s
    ((s1.setRf (engStatR e) 26 26 0).withLedg fun l => { l with wanted := l.wanted.filter (· != e) })

/-- Whether a GO of LEDG_PARK is refused: a reserved OP, or the park of an engine that is not parkable (R420, R421). -/
def parkRefused (val : Word) (s : State) : Bool :=
  bitOf val 31 && (fld val 17 16 == 0 || decide (224 ≤ fld val 7 0) || (fld val 17 16 == 1 && !parkable s (fld val 7 0)))

/-- A write of LEDG_PARK with GO and an operation. -/
def parkCmd (op m : Nat) (val : Word) (act : Nat → State → State) (s : State) : Host.Outcome State Fault Refusal :=
  occur (s.life.rails && bitOf val 31 && fld val 17 16 == op) s (s.command m Reg.ledgPark val (parkRefused val) (act (fld val 7 0)))

/-- PARK (R420): a host park leaves the engine out of Ledger control. -/
def execHostPark (m : Nat) (val : Word) (s : State) : Host.Outcome State Fault Refusal :=
  parkCmd 1 m val (fun e s => (beginPark true s e).withLedg fun l => { l with hostHeld := l.hostHeld.filter (· != e) ++ [e] }) s

/-- UNPARK (R420): a parked engine is unparked; the drain of one being parked is given up. -/
def execHostUnpark (m : Nat) (val : Word) (s : State) : Host.Outcome State Fault Refusal :=
  parkCmd 2 m val (fun e s =>
    if engParked s e && !engFailed s e && !s.ledg.unparking.contains e then s.withLedg fun l => { l with unparking := l.unparking ++ [e] }
    else s.withLedg fun l => { l with draining := mapErase l.draining e }) s

/-- AUTO (R420): the engine is under Ledger control again, in the state it is in. -/
def execHostAuto (m : Nat) (val : Word) (s : State) : Host.Outcome State Fault Refusal :=
  parkCmd 3 m val (fun e s => s.withLedg fun l => { l with hostHeld := l.hostHeld.filter (· != e) }) s

/-! ### The tick (R397, R400, R411) -/

/-- CAP_UNMET (R411): the input power has exceeded the cap for 1,000 ticks with every island at its floor and every parkable engine parked. -/
def capTick (s : State) (vin us : Nat) (floor : Bool) : State :=
  let ovr := decide (s.rf Reg.ledgCap 7 0 * us * 1000 < vin) && floor && !(List.range 224).any (parkable s)
  let n := if ovr then min 1000 (s.ledg.capTicks + 1) else 0
  let s1 := s.withLedg fun l => { l with capTicks := n }
  if ovr ∧ n = 1000 ∧ s.ledg.capTicks < 1000 then (s1.setRf Reg.ledgStat 30 30 1).raise 0x0605 81 0 (vin / (us * 1000)) else s1

/-- The headroom written to LEDG_HEAD. -/
def putHead (s : State) (v : Int) : State :=
  let n := (v % 2 ^ 64).toNat
  (s.setReg Reg.ledgHeadLo (BitVec.ofNat 32 n)).setReg Reg.ledgHeadHi (BitVec.ofNat 32 (n / 2 ^ 32))

/-- LEDGER_TICK (R397, R400): at a tick boundary, with the sensors' readings, the input energy on VIN_12 and the Hall's own energy in nJ, which it judges like any report (R26,
R399). -/
def execLedgerTick (dt : Nat) (sensors : List (Option Int)) (vin hall : Nat) (s : State) : Host.Outcome State Fault Refusal :=
  let s0 := advance s dt
  let s := takeReport s0 { island := 81, energy := hall, demand := 0 }
  let at_ := s.ledg.tickMet.getD (s.up - s.now % tickLen)
  let us := max 1 ((at_ - s.ledg.tickUp + 500 * nsUnit) / (1000 * nsUnit))
  let r := takeSensors s sensors
  let f := thermalFactor r.2 (s.rf Reg.ledgTherm 7 0)
  let energy := s.ledg.energy
  let s1 := (List.range 83).foldl (fun t i => t.setReg (Reg.ledgIslE i) (BitVec.ofNat 32 (mapGet 0 energy i))) (r.1.setRf Reg.ledgTherm 15 8 (min f 255))
  let s2 := chargeAll (creditAll s1 us f) energy vin
  let head := ((List.range 32).map (acctBal s2)).foldl (· + ·) 0
  let floor := allAtFloor s2
  let s3 := capTick (putHead s2 head) vin us floor
  let s4 := (unparkTick (parkTick (chooseFreqs s3 head) head floor) head).withLedg fun l =>
    { l with tickAt := s.now / tickLen, tickUp := at_, tickMet := none, ticks := l.ticks + 1 }
  occur (s0.life.rails && s0.now / tickLen != s0.ledg.tickAt) s0 (testAll s4)

end Sys2Proof.Machine
end

