-- ==== Sys2Proof/Machine/Matching.lean ====
section
/-! DEFINITION. The matching scheduler (R329 to R332) and the moves of its matchings into the pigeonholes (R328, R332, R344 to R346). -/

namespace Sys2Proof.Machine

/-! ### Moves -/

/-- The entries of a virtual output queue. -/
def voqOf (s : State) (q : Nat) : List VoqEntry := mapGet [] s.depot.voq q

/-- A virtual output queue set. -/
def setVoq (s : State) (q : Nat) (l : List VoqEntry) : State := { s with depot := { s.depot with voq := mapSet [] s.depot.voq q l } }

/-- The mirror and sample copies of an entry that has been moved, if they are made with it. -/
def leadCopies (s : State) (v : VoqEntry) : State := if v.lead then mirrorCopies s v.env false 0 else s

/-- The copy of a multicast entry for one port: PH = p × 8 + CLASS and EGR_PORT = p, admitted on its own (R328). -/
def copyToPort (s : State) (e : Env) (p : Nat) : State :=
  let h := p * 8 + eClass e
  copyInto (addRef s (eCell e)) h (setEf (setEf (setEf e 9 31 19 h) 9 18 10 p) 11 17 17 0)

/-- One move from a queue to egress slice sl: a unicast envelope, or one port copy of a multicast entry, which leaves the queue with its
last copy, and gives up its hold once the mirror and sample copies are made (R318, R332, R346). The mark says whether it counts as a move. -/
def moveOne (s : State) (sl q : Nat) : State × Bool :=
  match voqOf s q with
  | [] => (s, false)
  | v :: r =>
    if eMc v.env then
      match (mcTargets s v.env sl).filter (fun p => decide (v.next ≤ p)) with
      | [] => (dropRef (leadCopies (setVoq s q r) v) (eCell v.env) none, false)
      | [p] => (dropRef (leadCopies (copyToPort (setVoq s q r) v.env p) v) (eCell v.env) none, true)
      | p :: _ => (copyToPort (setVoq s q ({ v with next := p + 1 } :: r)) v.env p, true)
    else (leadCopies (intoPh (setVoq s q r) (ePh v.env) v.env) v, true)

/-- Moves from a queue while some of the budget is left. -/
def moveSome (sl q : Nat) : Nat → State → Nat → State × Nat
  | 0, s, left => (s, left)
  | fuel + 1, s, left =>
    if left = 0 ∨ (voqOf s q).isEmpty then (s, left)
    else
      let r := moveOne s sl q
      moveSome sl q fuel r.1 (if r.2 then left - 1 else left)

/-- The moves of a matched pair (R332): class 7 first, then one other class, at most 3 in total. -/
def movePair (s : State) (pr : Nat × Nat) : State :=
  let q (c : Nat) := voqNo pr.1 pr.2 c
  let a := moveSome pr.2 (q 7) ((voqOf s (q 7)).length + 3) s 3
  let k := pr.1 * 16 + pr.2
  let ptr := mapGet 0 a.1.depot.classPtr k
  match ((List.range 7).map fun i => (ptr + i) % 7).find? (fun c => !(voqOf a.1 (q c)).isEmpty) with
  | none => a.1
  | some c =>
    if a.2 = 0 then a.1
    else
      let b := (moveSome pr.2 (q c) ((voqOf a.1 (q c)).length + 3) a.1 a.2).1
      { b with depot := { b.depot with classPtr := mapSet 0 b.depot.classPtr k ((c + 1) % 7) } }

/-! ### The matching -/

/-- The arrival number of the class 7 head of a pair's queues, when it has one. -/
def expressHead (s : State) (i e : Nat) : Option Nat := ((voqOf s (voqNo i e 7)).head?).map (·.arr)

/-- The pairs that request: some queue (i, e, c) holds an envelope (R329). -/
def requests (s : State) : List (Nat × Nat) :=
  (((s.depot.voq.filter fun p => !p.2.isEmpty).map fun p => (p.1 / 128, p.1 / 8 % 16)).eraseDups)

/-- The member of a list nearest at or after a pointer, modulo 16. -/
def fromPtr (ptr : Nat) (l : List Nat) : Option Nat := ((List.range 16).map fun i => (ptr + i) % 16).find? fun i => l.contains i

/-- The member with the earliest class 7 head; ties go to the nearest at or after the pointer. -/
def earliest (ptr : Nat) (key : Nat → Option Nat) (l : List Nat) : Option Nat :=
  let ks := l.filterMap key
  match ks with
  | [] => none
  | k :: r => let m := r.foldl min k; fromPtr ptr (l.filter fun i => key i == some m)

/-- One iteration of request, grant and accept over the pairs that request and are still unmatched; the pairs accepted and whether
each was granted as express. -/
def iteration (s : State) (req : List (Nat × Nat)) (done : List (Nat × Nat)) : List ((Nat × Nat) × Bool) :=
  let live := req.filter fun p => !(done.any fun d => d.1 == p.1 || d.2 == p.2)
  let grants : List (Nat × Nat) := (List.range 16).filterMap fun e =>
    let is := (live.filter fun p => p.2 == e).map (·.1)
    let ptr := mapGet 0 s.depot.grantPtr e
    let g := match earliest ptr (fun i => expressHead s i e) is with | some i => some i | none => fromPtr ptr is
    g.map fun i => (i, e)
  (List.range 16).filterMap fun i =>
    let es := (grants.filter fun p => p.1 == i).map (·.2)
    let ptr := mapGet 0 s.depot.acceptPtr i
    match earliest ptr (fun e => expressHead s i e) es with
    | some e => some ((i, e), true)
    | none => (fromPtr ptr es).map fun e => ((i, e), false)

/-- The pointers moved by a grant that is not express and is accepted in iteration 1 (R330). -/
def movePointers (s : State) (a : (Nat × Nat) × Bool) : State :=
  if a.2 then s
  else { s with depot := { s.depot with
      grantPtr := mapSet 0 s.depot.grantPtr a.1.2 ((a.1.1 + 1) % 16)
      acceptPtr := mapSet 0 s.depot.acceptPtr a.1.1 ((a.1.2 + 1) % 16) } }

/-- A matching: three iterations, and the pointers moved by the first (R329, R330). -/
def computeMatching (s : State) : State :=
  let req := requests s
  let a1 := iteration s req []
  let d1 := a1.map (·.1)
  let d2 := d1 ++ (iteration s req d1).map (·.1)
  let d3 := d2 ++ (iteration s req d2).map (·.1)
  let s1 := a1.foldl movePointers s
  { s1 with depot := { s1.depot with matched := d3 } }

/-- MATCHING (R329 to R332): in each cell time the Depot carries out the matching of the cell time before, and computes the next. -/
def execMatching (dt : Nat) (s : State) : Host.Outcome State Fault Refusal :=
  let s := advance s dt
  occur s.dataPath s (computeMatching (s.depot.matched.foldl movePair s))

end Sys2Proof.Machine
end

