-- ==== Sys2Proof/Machine/Release.lean ====
section
/-! DEFINITION. Release from the pigeonholes to station C (R48, R49, R334, R340) and the gate lists of the ports (R341, R342). -/

namespace Sys2Proof.Machine

/-! ### Gate lists -/

/-- The interval of a gate list entry, in 2⁻¹⁶ ns. -/
def gclInterval (w : Word) : Nat := fld w 23 0 * nsUnit

/-- The cycle time of a gate list. -/
def gclCycle (l : List Word) : Nat := (l.map gclInterval).foldl (· + ·) 0

/-- The entry of a list in force at an offset into its cycle, and how far it still runs. -/
def gclLocate : List Word → Nat → Nat → Nat × Nat
  | [], i, _ => (i, 0)
  | w :: r, i, pos => if pos < gclInterval w then (i, gclInterval w - pos) else gclLocate r (i + 1) (pos - gclInterval w)

/-- A port's active list brought to the entry in force now: ACT_IDX and the end of its interval (R341). -/
def gclFollow (s : State) (p : Nat) : State :=
  let x := s.port p
  let cyc := gclCycle x.gclActive
  if cyc = 0 then s
  else
    let pos := (((s.now : Int) - x.gclBase) % cyc).toNat
    let r := gclLocate x.gclActive 0 pos
    (s.setRf (Reg.portGateCtl p) 13 8 r.1).setPort p { x with gateEnd := s.now + r.2 }

/-- Whether the gate of a class of a port is open: with GCL_EN = 0, and before any list has become active, every gate is. -/
def gateOpen (s : State) (p c : Nat) : Bool :=
  let x := s.port p
  !s.rb (Reg.portGateCtl p) 31 || x.gclActive.isEmpty || bitOf (x.gclActive.getD (s.rf (Reg.portGateCtl p) 13 8) 0) (24 + c)

/-- What remains of the open interval of a class's gate; none when it never closes. -/
def gateLeft (s : State) (p c : Nat) : Option Nat :=
  let x := s.port p
  if !s.rb (Reg.portGateCtl p) 31 ∨ x.gclActive.isEmpty then none
  else
    let i := s.rf (Reg.portGateCtl p) 13 8
    let next := x.gclActive.drop (i + 1) ++ x.gclActive.take (i + 1)
    let run := next.takeWhile fun w => bitOf w (24 + c)
    if run.length = next.length then none else some ((x.gateEnd - s.now) + gclCycle run)

/-- GATE_INTERVAL_END (R341): the interval of the entry in force has expired, and the gates of the next take effect. -/
def execGateIntervalEnd (port dt : Nat) (s : State) : Host.Outcome State Fault Refusal :=
  let s := advance s dt
  let x := s.port port
  occur (s.life.rails && decide (port < 512) && !x.gclActive.isEmpty && decide (x.gateEnd ≤ s.now)) s (gclFollow s port)

/-- The staging list of a port: its first LEN entries (R342). -/
def gclStaged (s : State) (p len : Nat) : List Word := (List.range len).map fun j => mapGet 0 (s.port p).gclStaging j

/-- The first cycle start of a list of a base and cycle time that lies at or after a time (R341, R342). -/
def cycleStart (base cyc t : Nat) : Nat := if t ≤ base then base else base + (t - base + cyc - 1) / cyc * cyc

/-- GCL_SWAP (R342): DEPOT_PORT_GATE_CTL of the selected port with SWAP schedules its staging list. -/
def execGclSwap (m : Nat) (val : Word) (s : State) : Host.Outcome State Fault Refusal :=
  let p := s.rf Reg.depotPortSel 8 0
  let len := fld val 5 0
  let l := gclStaged s p len
  occur (s.life.rails && bitOf val 30) s
    (s.command m (Reg.portGateCtl p) val
      (fun s => s.rb (Reg.portGateCtl p) 29 || len == 0 || decide (32 < len) || l.any (fun w => gclInterval w == 0))
      fun s =>
        let base := timeOfPm ((s.reg (Reg.portGateBaseHi p)).toNat * 2 ^ 32 + (s.reg (Reg.portGateBaseLo p)).toNat)
        (s.setRf (Reg.portGateCtl p) 29 29 1).setPort p
          { s.port p with gclSwapAt := cycleStart base (gclCycle l) (s.now + 100000 * nsUnit), gclNext := l, gclNextBase := base })

/-- GCL_SWAP_APPLY (R342): the scheduled list becomes active at its cycle start, and PENDING clears. -/
def execGclSwapApply (port dt : Nat) (s : State) : Host.Outcome State Fault Refusal :=
  let s := advance s dt
  let x := s.port port
  occur (s.life.rails && decide (port < 512) && s.rb (Reg.portGateCtl port) 29 && decide (x.gclSwapAt ≤ s.now)) s
    (gclFollow ((s.setRf (Reg.portGateCtl port) 29 29 0).setPort port
      { x with gclActive := x.gclNext, gclBase := x.gclNextBase, gclNext := [], gclNextBase := 0, gclSwapAt := 0 }) port)

/-! ### The egress scheduler -/

/-- The envelopes of a pigeonhole. -/
def phOf (s : State) (h : Nat) : List Env := mapGet [] s.depot.ph h

/-- A cut-through envelope with LENGTH written, if its frame has ended (R48). -/
def withLength (s : State) (e : Env) : Env :=
  let f := s.frame (eCell e)
  if eCut e ∧ eLength e = 0 ∧ f.ended = 1 then setEf e 1 13 0 f.bytes.length else e

/-- The length a frame counts for: LENGTH, or the ingress port's MAX_LEN while it is 0 (R334, R340, R341). -/
def countedLen (s : State) (e : Env) : Nat := if eLength e = 0 then maxLen s (eInPort e) else eLength e

/-- The head of a pigeonhole of a port. -/
def phHead (s : State) (p c : Nat) : Option Env := ((phOf s (p * 8 + c)).head?).map (withLength s)

/-- The counted length of the head of a pigeonhole. -/
def headLen (s : State) (p c : Nat) : Nat := match phHead s p c with | some e => countedLen s e | none => 0

/-- Bytes in flight of a port (R334). -/
def inflightOf (s : State) (p : Nat) : Nat := ((s.port p).inflight.map (·.2)).foldl (· + ·) 0

/-- Whether a pigeonhole of a port is eligible (R334, R340, R341). -/
def eligible (s : State) (p c : Nat) : Bool :=
  !(phOf s (p * 8 + c)).isEmpty && gateOpen s p c &&
    (c == 7 || (decide (inflightOf s p < s.rf (Reg.portSched p) 7 0 * 1024) &&
      (match gateLeft s p c with | some t => decide (byteTime s p (headLen s p c + 20) ≤ t) | none => true)))

/-- Whether a class of a port is strict priority. -/
def isSp (s : State) (p c : Nat) : Bool := s.rb (Reg.portSched p) (8 + c)

/-- The quantum of a class of a port, in bytes. -/
def quantum (s : State) (p c : Nat) : Nat :=
  (if c < 4 then s.rf (Reg.portQuant0 p) (8 * c + 7) (8 * c) else s.rf (Reg.portQuant1 p) (8 * (c - 4) + 7) (8 * (c - 4))) * 64

/-- A port with the deficit of a class set. -/
def setDeficit (x : PortSt) (c v : Nat) : PortSt :=
  { x with deficits := modAt (x.deficits ++ List.replicate (7 - x.deficits.length) 0) c fun _ => v }

/-- Deficit round robin over the classes that are not strict priority (R340): the class served, and the port with its deficits and the
class being visited. -/
def drrPick (s : State) (p : Nat) : Nat → PortSt → Option (Nat × PortSt)
  | 0, _ => none
  | fuel + 1, x =>
    let cur := (x.visit + 6) % 7
    let takes (c : Nat) : Bool := !isSp s p c && eligible s p c
    let n := headLen s p cur
    let d := x.deficits.getD cur 0
    if takes cur ∧ n ≤ d then some (cur, setDeficit x cur (d - n))
    else
      let nxt := (cur + 1) % 7
      let x1 := { x with visit := (x.visit + 1) % 7 }
      drrPick s p fuel (if takes nxt then setDeficit x1 nxt (x1.deficits.getD nxt 0 + quantum s p nxt) else x1)

/-- The class a port's scheduler chooses (R340), and the port's scheduler state after it. -/
def schedPick (s : State) (p : Nat) : Option (Nat × PortSt) :=
  let x := s.port p
  if eligible s p 7 then some (7, x)
  else match ([6, 5, 4, 3, 2, 1, 0] : List Nat).find? (fun c => isSp s p c && eligible s p c) with
    | some c => some (c, x)
    | none => if (List.range 7).any (fun c => eligible s p c) then drrPick s p 1100 x else none

/-- The charge of a pigeonhole for one of its frames given up (R318, R335). -/
def uncharge (s : State) (c h : Nat) : State :=
  if hasFrame s c then s.setFrame c { s.frame c with charges := (s.frame c).charges.erase h } else s

/-- Whether another port of the slice has a class 7 envelope to release, which goes first (R334). -/
def expressFirst (s : State) (p : Nat) : Bool := (List.range 32).any fun i => p / 32 * 32 + i != p && eligible s (p / 32 * 32 + i) 7

/-- The entry by which an envelope enters ENV_C; station C keeps order by pigeonhole (R63). -/
def envCEntry (s : State) (h : Nat) (e : Env) : HEntry :=
  { pay := .env e ((s.frame (eCell e)).bytes.take (eHeadValid e)), flow := h, xpr := h % 8 == 7 }

/-- PH_RELEASE (R48, R49, R334, R340, R345): the scheduler of a port releases an envelope into ENV_C, when it has credit; an errored
cut-through frame is voided and freed instead. -/
def execPhRelease (port dt : Nat) (s : State) : Host.Outcome State Fault Refusal :=
  let s := advance s dt
  match schedPick s port with
  | none => .next s
  | some (c, x) =>
    let h := port * 8 + c
    match phOf s h with
    | [] => .next s
    | e0 :: rest =>
      let e := withLength s e0
      let s1 := { s with depot := { s.depot with ph := mapSet [] s.depot.ph h rest } }
      let errored := eCut e && (s.frame (eCell e)).ended == 2
      let ent := envCEntry s h e
      let hn := hatchNo 5 (port / 32)
      let x1 := if rest.isEmpty ∧ c ≠ 7 then setDeficit x c 0 else x
      let sent := (s1.setPort port { x1 with inflight := x1.inflight ++ [(eCell e, countedLen s e)] }).offer hn ent
      occur (s.dataPath && decide (port < 512) && (c == 7 || !expressFirst s port)) s
        (if errored then freeVoid (uncharge (if rest.isEmpty ∧ c ≠ 7 then s1.setPort port (setDeficit (s.port port) c 0) else s1) (eCell e) h) (voidBy 0x08 72 e)
         else if ((s.hatch hn).channel hn ent).isSome && (s.hatch hn).held.isEmpty then mirrorCopies sent e true port
         else s.waitNoted hn)

end Sys2Proof.Machine
end

