-- ==== Sys2Proof/Machine/Editor.lean ====
section
/-! DEFINITION. The Editor (R348 to R352): the edits of a frame, its output buffers, and what becomes of a frame it does not send; and
the egress MAC (R77, R80, R87, R95, R98, R101, R357, R370). -/

namespace Sys2Proof.Machine

/-! ### The frame being edited -/

/-- A frame without FCS being edited, with the places of its layer 3, 4 and 5 headers (0 for none). -/
structure Edit where
  b : List Byte
  l3 : Nat
  l4 : Nat
  l5 : Nat

/-- Bytes put in after the source address. -/
def Edit.push (x : Edit) (n : List Byte) : Edit :=
  let up (o : Nat) := if o = 0 then 0 else o + n.length
  { b := x.b.take 12 ++ n ++ x.b.drop 12, l3 := up x.l3, l4 := up x.l4, l5 := up x.l5 }

/-- n bytes taken out at a place among the tags. -/
def Edit.cut (x : Edit) (o n : Nat) : Edit :=
  { b := x.b.take o ++ x.b.drop (o + n), l3 := x.l3 - n, l4 := x.l4 - n, l5 := x.l5 - n }

/-- A big-endian 16-bit field of a frame. -/
def f16 (b : List Byte) (o : Nat) : Nat := beNat (slice b o 2)

/-- Whether the frame has an outer 802.1Q or 802.1ad tag. -/
def hasTag (b : List Byte) : Bool := f16 b 12 == 0x8100 || f16 b 12 == 0x88A8

/-- A ones' complement checksum corrected for bytes that change from old to new (16-bit aligned). -/
def csumFix (hc : Nat) (old new : List Byte) : Nat :=
  let inv (n : Nat) := 0xFFFF - n % 65536
  inv (fold16 (fold16 (((beWords16 old).map inv).foldl (· + ·) 0 + (beWords16 new).foldl (· + ·) 0 + inv hc)))

/-- The VLAN operation on a frame (R350): operation, VID, PCP. -/
def vlanEdit (x : Edit) (vop vid pcp : Nat) : Edit :=
  let tag := beBytes 2 0x8100 ++ beBytes 2 (pcp * 8192 + vid)
  if vop = 1 then (if hasTag x.b then x.cut 12 4 else x)
  else if vop = 2 then x.push tag
  else if vop = 3 then
    if hasTag x.b then { x with b := overwrite x.b 14 (beBytes 2 (pcp * 8192 + f16 x.b 14 / 4096 % 2 * 4096 + vid)) } else x.push tag
  else x

/-- The VLAN operation that applies to a frame on a port: the firmware edit word, or PORT_EDIT_CFG (R350). -/
def vlanStep (s : State) (p : Nat) (e : Env) (x : Edit) : Edit :=
  let cfg := s.reg (pReg Reg.portEditCfg p)
  let fw := ew e 14
  if bitOf cfg 31 ∧ bitOf fw 31 then vlanEdit x (fld fw 30 29) (fld fw 28 17) (fld fw 16 14)
  else vlanEdit x (fld cfg 25 24) (fld cfg 23 12) (if bitOf cfg 11 then eClass e else 0)

/-! ### R-GOOSE and R-SV encapsulation (R350) -/

/-- Dword i of a template of a slice: 0 to 31 its bytes, 32 its control word, 33 its SPDU counter. -/
def tplWord (s : State) (sl n i : Nat) : Word := mapGet 0 (s.slice sl).edtpl (n * 64 + i)

/-- The place of the IPv4 header of a template: after its Ethernet header and tags. -/
def tplIp (b : List Byte) : Option Nat :=
  let isT (o : Nat) := f16 b o == 0x8100 || f16 b o == 0x88A8
  let o := if isT 12 then (if isT 16 then 20 else 16) else 12
  if f16 b o = 0x0800 then some (o + 2) else none

/-- A frame encapsulated under a template: the lengths, checksum and SPDU counter filled in. -/
def encapsulate (tpl pay : List Byte) (lenOfs spduOfs spdu : Nat) : Edit :=
  let b := tpl ++ pay
  let n := b.length
  let b := overwrite b lenOfs (beBytes 2 (n - lenOfs - 2))
  let b := overwrite b spduOfs (beBytes 4 spdu)
  match tplIp b with
  | none => { b := b, l3 := 0, l4 := 0, l5 := 0 }
  | some ip =>
    let hl := (b.getD ip 0).toNat % 16 * 4
    let udp := ip + hl
    let b := overwrite (overwrite b udp (slice b udp 4 ++ beBytes 2 (n - udp) ++ beBytes 2 0)) (ip + 2) (beBytes 2 (n - ip))
    let b := overwrite b (ip + 10) [0, 0]
    { b := overwrite b (ip + 10) (beBytes 2 (0xFFFF - csum16 0 (slice b ip hl))), l3 := ip, l4 := udp, l5 := 0 }

/-- Step 3 of R349: the state with the template's SPDU counter advanced, and the frame. -/
def encapStep (s : State) (p : Nat) (orig : List Byte) (e : Env) (x : Edit) : State × Edit :=
  let cfg := s.reg (pReg Reg.portEditCfg p)
  if !bitOf cfg 30 then (s, x)
  else
    let sl := p / 32
    let n := fld cfg 29 26
    let ctl := tplWord s sl n 32
    let bytes := ((List.range 32).flatMap fun i => leBytes 4 (tplWord s sl n i).toNat).take (fld ctl 31 24)
    let spdu := tplWord s sl n 33
    let y := encapsulate bytes (orig.drop (eL5 e + fld ctl 23 16)) (fld ctl 15 8) (fld ctl 7 0) spdu.toNat
    let sx := s.slice sl
    (s.setSlice sl { sx with edtpl := mapSet 0 sx.edtpl (n * 64 + 33) (spdu + 1) }, y)

/-! ### Redundancy (R352) -/

/-- LSDUsize of a frame without FCS, as it will stand with 6 bytes added. -/
def lsduSize (b : List Byte) : Nat := (b.length - 14 - (if hasTag b then 4 else 0) + 6) % 4096

/-- A frame without its HSR tag: that stands after the source address, or after the tag that step 2 has pushed there; a frame that step 3 has encapsulated has none left. -/
def cutHsr (x : Edit) : Edit := if f16 x.b 12 = 0x892F then x.cut 12 6 else if hasTag x.b ∧ f16 x.b 16 = 0x892F then x.cut 16 6 else x

/-- A frame without its PRP trailer, unless truncation has cut it off (R346). -/
def cutPrp (s : State) (e : Env) (x : Edit) : Edit :=
  if eTrunc e ∧ 128 < (s.frame (eCell e)).bytes.length then x else { x with b := x.b.take (x.b.length - 6) }

/-- Step 4 of R349: the tag or trailer of the frame's own instance removed outside it, and that of the port's instance added. -/
def redStep (s : State) (p : Nat) (e : Env) (x : Edit) : Edit :=
  let f := s.frame (eCell e)
  let src : Option Nat := if eSrc e = 0 ∧ f.rctOk = true then (redOf s (eInPort e)).map (·.1) else none
  let out := redOf s p
  let keep : Bool := match src, out with
    | some r, some (q, _) => q == r || (redMode s r == 3 && q == s.rf (Reg.redCfg1 r) 3 0)
    | _, _ => false
  let x := match src with
    | some r => if keep then x else if redMode s r = 1 then cutPrp s e x else cutHsr x
    | none => x
  match out with
  | some (q, isB) =>
    if keep ∨ !f.rseqV then x
    else if redMode s q = 1 then
      { x with b := x.b ++ beBytes 2 f.rseq ++ beBytes 2 ((if isB then 0xB000 else 0xA000) + lsduSize x.b) ++ beBytes 2 0x88FB }
    else x.push (beBytes 2 0x892F ++ beBytes 2 (b2n isB * 4096 + lsduSize x.b) ++ beBytes 2 f.rseq)
  | none => x

/-! ### ECN and PTP -/

/-- Step 5 of R349: CE makes an ECN codepoint other than 0b00 become 0b11. -/
def ecnStep (e : Env) (x : Edit) : Edit :=
  if !eCe e ∨ x.l3 = 0 ∨ x.b.length < x.l3 + 12 then x
  else
    let b0 := (x.b.getD x.l3 0).toNat
    let b1 := (x.b.getD (x.l3 + 1) 0).toNat
    if b0 / 16 = 4 ∧ b1 % 4 ≠ 0 then
      let new := beBytes 1 b0 ++ beBytes 1 (b1 / 4 * 4 + 3)
      let hc := csumFix (f16 x.b (x.l3 + 10)) (slice x.b x.l3 2) new
      { x with b := overwrite (overwrite x.b x.l3 new) (x.l3 + 10) (beBytes 2 hc) }
    else if b0 / 16 = 6 ∧ b1 / 16 % 4 ≠ 0 then { x with b := overwrite x.b (x.l3 + 1) (beBytes 1 (Nat.lor b1 0x30)) }
    else x

/-- The place of the PTP header of a frame by its own headers: over Ethernet, or over UDP in IPv4 or IPv6, behind up to two tags; 0 where there is none. -/
def ptpFind (b : List Byte) : Nat :=
  let isT (o : Nat) : Bool := f16 b o == 0x8100 || f16 b o == 0x88A8
  let o := if isT 12 then (if isT 16 then 20 else 16) else 12
  let udp (u : Nat) : Nat := if f16 b (u + 2) = 319 ∨ f16 b (u + 2) = 320 then u + 8 else 0
  if f16 b o = 0x88F7 then o + 2
  else if f16 b o = 0x0800 ∧ (b.getD (o + 11) 0).toNat = 17 then udp (o + 2 + (b.getD (o + 2) 0).toNat % 16 * 4)
  else if f16 b o = 0x86DD ∧ (b.getD (o + 8) 0).toNat = 17 then udp (o + 42)
  else 0

/-- The place of the PTP header of a frame whose parse ended at PTP over Ethernet or UDP; of a frame that no port received and that carries PTP_EVT, by its own headers. -/
def ptpAt (e : Env) (x : Edit) : Nat :=
  if ePstate e = 0x18 ∨ ePstate e = 0x19 then x.l5 else if eSrc e ≠ 0 ∧ ePtpEvt e = true then ptpFind x.b else 0

/-- The PTP header of a frame as it stands before its edits; empty where there is none. -/
def ptpHeader (e : Env) (b : List Byte) : List Byte :=
  let o := ptpAt e { b := b, l3 := eL3 e, l4 := eL4 e, l5 := eL5 e }
  if o = 0 then [] else slice b o 34

/-- A correctionField with an amount added, and a non-zero UDP checksum updated incrementally (R101). -/
def addCorrection (b : List Byte) (ptp udp : Nat) (amount : Int) : List Byte :=
  let old := slice b (ptp + 8) 8
  let new := beBytes 8 ((((beNat old : Nat) : Int) + amount) % 2 ^ 64).toNat
  let b1 := overwrite b (ptp + 8) new
  let c := f16 b (udp + 6)
  if udp = 0 ∨ c = 0 then b1
  else
    let odd := (ptp + 8 - udp) % 2
    let o := if odd = 1 then [0] ++ old ++ [0] else old
    let n := if odd = 1 then [0] ++ new ++ [0] else new
    let c1 := csumFix c o n
    overwrite b1 (udp + 6) (beBytes 2 (if c1 = 0 then 0xFFFF else c1))

/-- The kind of Follow_Up that carries the residence time of an event message: of Sync, Follow_Up; of Pdelay_Resp,
Pdelay_Resp_Follow_Up. -/
def followKind (t : Nat) : Option Nat := if t = 0 then some 8 else if t = 3 then some 10 else none

/-- What a Follow_Up and its event message have in common: the kind of Follow_Up, the domain and the sourcePortIdentity; the sequenceId stands beside it. -/
def followKey (kind : Nat) (hdr : List Byte) : Nat := (kind * 256 + (hdr.getD 4 0).toNat) * 2 ^ 80 + beNat (slice hdr 20 10)

/-- Step 6 of R349 for a Follow_Up: the residence time of its event message is added, once (R101). -/
def followStep (s : State) (p : Nat) (e : Env) (x : Edit) : State × Edit :=
  let o := ptpAt e x
  let t := (x.b.getD o 0).toNat % 16
  if o = 0 ∨ (t ≠ 8 ∧ t ≠ 10) then (s, x)
  else
    let key := followKey t (slice x.b o 34)
    let q := f16 x.b (o + 30)
    let y := s.port p
    match y.tcPend.find? (fun r => r.1 == key && r.2.1 == q) with
    | none => (s, x)
    | some r =>
      (s.setPort p { y with tcPend := y.tcPend.filter fun z => !(z.1 == key && z.2.1 == q) },
        { x with b := addCorrection x.b o (if ePstate e = 0x19 then x.l4 else 0) r.2.2 })

/-- The edits of R349 in their order on a frame without FCS: the state they change and the frame. -/
def editFrame (s : State) (p : Nat) (e : Env) (orig : List Byte) : State × Edit :=
  let b := if eTrunc e then orig.take 124 else orig
  let x0 : Edit := { b := b, l3 := eL3 e, l4 := eL4 e, l5 := eL5 e }
  let x1 := vlanStep s p e x0
  let r2 := encapStep s p b e x1
  let x3 := redStep r2.1 p e r2.2
  followStep r2.1 p e (ecnStep e x3)

/-! ### Leaving the module -/

/-- PORT_EGR_ABORT_CNT of a port counts a frame not sent, or closed with an inverted FCS. -/
def egrAbort (s : State) (p : Nat) : State := s.count (pReg Reg.portEgrAbortCnt p)

/-- A frame's bytes are no longer in flight for a port (R334). -/
def landed (s : State) (p cell : Nat) : State :=
  let x := s.port p
  match x.inflight.findIdx? (fun r => r.1 == cell) with
  | some i => s.setPort p { x with inflight := dropAt x.inflight i }
  | none => s

/-- A copy gives up its hold on its frame and its pigeonhole's charge (R318). -/
def giveUp (s : State) (cell ph : Nat) : State := dropRef s cell (some ph)

/-- A frame with an inverted FCS. -/
def badFcs (b : List Byte) : List Byte := b ++ (fcsOf b).map fun x => ~~~x

/-- A frame whose bytes are all present is edited and protected: the out frame, or none when it may not be sent, which
PORT_EGR_ABORT_CNT counts (R349, R495). -/
def finishEdit (s : State) (p : Nat) (o : OutFrame) (orig : List Byte) : State × Option OutFrame :=
  let r := editFrame s p o.env (orig.take (orig.length - 4))
  let x := r.2
  let n := x.b.length + 4
  let at5 := ptpAt o.env x
  let hdr := if at5 = 0 then [] else slice x.b at5 34
  if maxLen s p < n + secOverhead s p then (egrAbort r.1 p, none)
  else if s.rb (pReg Reg.portMacsecCfg p) 31 then
    match secureTx r.1 p x.b with
    | (s1, none) => (egrAbort s1 p, none)
    | (s1, some b) => (s1, some { o with bytes := b ++ fcsOf b, whole := true, ptp := 0, hdr := hdr, udp := 0, rxLen := orig.length })
  else (r.1, some { o with bytes := x.b ++ fcsOf x.b, whole := true, ptp := at5, hdr := hdr,
                           udp := if ePstate o.env = 0x19 then x.l4 else 0, rxLen := orig.length })

/-- The ingress postmark of an envelope, as a time. -/
def envPm (e : Env) : Nat := timeOfPm (ePm e) + eFrac e

/-- Egress learning (R127): the egress slice learns the source of a port frame from outside the slice that its Editor sends, in the copies that the frame's postmark chooses
(R31). The VID is found as the ingress slice found it, by its parse graph and the PVID of the ingress port; the specification says only that the FID is that of the egress slice's
own VLAN table (DESIGN CHOICE, log entry 62). -/
def egressLearn (s : State) (sl : Nat) (e : Env) (orig : List Byte) : State :=
  if !s.rb (Reg.dirLearnCfg sl) 30 ∨ eSrc e ≠ 0 ∨ eInPort e / 32 = sl ∨ eCopy e then s
  else
    let p := eInPort e
    let old := usesOld s (envPm e)
    let head := orig.take 256
    let vid := frameVid (walkFrame s p head head.length none) head (s.rf (Reg.sortPortCfg (p / 32) (p % 32)) 11 0)
    let v := vlanEntry s old vid
    if vid = 4095 ∨ !bitOf v 31 ∨ fld v 30 27 ≠ eTenancy e ∨ !bitOf v 14 then s
    else (learnSource s sl (eTenancy e) (fld v 26 15) (beNat (slice orig 6 6)) p 1 none old).1

/-- The hatch by which a slice reads cells of the Depot, and that by which its flits go to its ports. -/
def cellRead (sl : Nat) : Nat := hatchNo 7 sl
def laneOut (p : Nat) : Nat := hatchNo 8 (p / 32)

/-- A frame of which a cell read with a double-bit error: it is closed with an inverted FCS after the cells before (R319). -/
def badOut (o : OutFrame) (b : List Byte) : OutFrame := { o with bytes := badFcs b, whole := true, bad := true }

/-- EDITOR_SEND (R20, R60, R84, R127, R319, R348, R349): the Editor takes the next envelope from ENV_E. A void's cells go back to the Depot; an
errored frame not begun is not sent; else the frame is read through CELL_R, edited and put in its port's output buffer. `ecc` says what the cells read:
0 no error, 1 a corrected error, 2 a double-bit error in the cell at index `pos` of the chain, 3 one in its link word. -/
def execEditorSend (sl ecc pos : Nat) (s : State) : Host.Outcome State Fault Refusal :=
  let h := hatchNo 6 sl
  match (s.hatch h).front with
  | some { pay := .env e _, flow := ph, xpr := _ } =>
    let p := ph / 8
    let c := eCell e
    let f := s.frame c
    let reads : Bool := !eVoid e && f.ended != 2
    let s1 := (s.setHatch h (s.hatch h).consume).passed (cellRead sl) (if reads then cellsOf f.bytes.length else 0)
    let o : OutFrame := { cell := c, ph := ph, env := e, bytes := [], whole := false, ptp := 0, hdr := [], udp := 0, rxLen := 0, txPm := 0 }
    let put (s : State) (o : OutFrame) : State := s.setPort p { s.port p with outBuf := (s.port p).outBuf ++ [o] }
    let s2 := if ecc = 1 then s1.count Reg.depotCellEccCnt else s1
    occur (s.dataPath && decide (sl < 16) && (!reads || s.clear (cellRead sl))) s
      (if eVoid e then landed (freeVoid (uncharge s1 c ph) e) p c
       else if f.ended = 2 then landed (giveUp (egrAbort s1 p) c ph) p c
       else if 2 ≤ ecc then
         let s3 := ((egrAbort s1 p).count Reg.depotCellEccCnt).raise 0x0103 (48 + sl) p c
         let s4 := if ecc = 3 then (f.cells.drop pos).foldl leakCell s3 else s3
         put (giveUp s4 c ph) (badOut { o with hdr := ptpHeader e f.bytes, rxLen := f.bytes.length } (f.bytes.take (256 * pos)))
       else if f.ended = 1 then
         match finishEdit s2 p o f.bytes with
         | (s4, none) => landed (giveUp s4 c ph) p c
         | (s4, some o1) => put (giveUp (egressLearn s4 sl e f.bytes) c ph) o1
       else put (egressLearn s2 sl e f.bytes) o)
  | _ => .next s

/-! ### The egress MAC -/

/-- The signed ps of TX_ADJ or RX_ADJ, in 2⁻¹⁶ ns. -/
def psUnits (n : Nat) : Int := signed 16 n * 65536 / 1000

/-- A frame sent with a correct FCS is counted (R580, R581). -/
def txStats (s : State) (p : Nat) (o : OutFrame) : State :=
  let b := portSet p
  let d := slice o.bytes 0 6
  let cast := if d.all (· == 255) then 19 else if (d.getD 0 0).toNat % 2 = 1 then 18 else 17
  let s1 := ((s.stat b 15).stat b 16 o.bytes.length).stat b cast
  let s2 := if eClass o.env = 7 then s1.stat b 22 else s1
  match redOf s2 p with
  | some (r, isB) => s2.stat (redSet r) (b2n isB)
  | none => s2

/-- The egress postmark of a PTP event frame joins the port's queue, or is lost and counted (R95, R98). -/
def tsqPush (s : State) (p : Nat) (o : OutFrame) : State :=
  if !ePtpEvt o.env then s
  else
    let x := s.port p
    let q : Tsq := { pm := pmOf o.txPm, frac := fracOf o.txPm, seqId := f16 o.hdr 30, msgType := (o.hdr.getD 0 0).toNat % 16,
                     domain := (o.hdr.getD 4 0).toNat }
    if x.tsq.length < 32 then s.setPort p { x with tsq := x.tsq ++ [q] } else s.count (pReg Reg.portTsqOvfCnt p)

/-- The transparent clock on an event message (R101): in one-step operation the residence time goes into the frame, in two-step
operation it awaits the Follow_Up. Peer-to-peer adds the ingress port's link delay, whose value the module measures (a free value of that port and time, log entry 5). TC and
TC_1STEP are those of the port that sends the message, where its correctionField is written; the specification does not say whether the port it came in by must have TC too
(DESIGN CHOICE, log entry 61). -/
def transparent (s : State) (p : Nat) (o : OutFrame) : State × OutFrame :=
  let cfg := s.reg (pReg Reg.portMacCfg p)
  let tc := fld cfg 21 20
  if tc = 0 ∨ !ePtpEvt o.env ∨ eSrc o.env ≠ 0 ∨ o.hdr.isEmpty then (s, o)
  else
    let delay : Int := if tc = 2 then (Config.linkDelay (eInPort o.env) s.up : Int) else 0
    let amount : Int := (o.txPm : Int) - envPm o.env + delay
    if bitOf cfg 19 ∧ o.ptp ≠ 0 then
      let b := addCorrection (o.bytes.take (o.bytes.length - 4)) o.ptp o.udp amount
      (s, { o with bytes := b ++ fcsOf b })
    else
      match followKind ((o.hdr.getD 0 0).toNat % 16) with
      | none => (s, o)
      | some k =>
        let x := s.port p
        (s.setPort p { x with tcPend := x.tcPend ++ [(followKey k o.hdr, f16 o.hdr 30, amount)] }, o)

/-- The express latency monitor (R356, R357, R370). -/
def latencyMonitor (s : State) (p : Nat) (o : OutFrame) : State :=
  let cfg := s.reg (pReg Reg.portXlatCfg p)
  if !bitOf cfg 31 ∨ eClass o.env ≠ 7 ∨ eSrc o.env ≠ 0 then s
  else
    let ip := eInPort o.env
    let early : Bool := eCut o.env && decide (portRate s p ≤ portRate s ip)
    let ref := envPm o.env + (if early then byteTime s ip 64 else byteTime s ip o.rxLen)
    let l := (o.txPm - byteTime s p 8 - ref) / nsUnit
    let mx := (s.reg (pReg Reg.portXlatMax p)).toNat
    let s1 := s.setReg (pReg Reg.portXlatMax p) (BitVec.ofNat 32 (min 0xFFFFFFFF (max mx l)))
    if fld cfg 23 0 = 0 ∨ fld cfg 23 0 < l then
      let s2 := s1.count (pReg Reg.portXlatOverCnt p)
      if (s2.port p).xlatOver then s2
      else (s2.setPort p { s2.port p with xlatOver := true }).raise 0x0105 (48 + p / 32) p l
    else s1

/-- A frame leaves with its FCS: the transparent clock, the statistics, the postmark queue, the latency monitor, and its bytes out of
flight. -/
def finishTx (s : State) (p : Nat) (o : OutFrame) : State :=
  let r := transparent s p o
  let s1 := latencyMonitor (tsqPush (txStats r.1 p r.2) p r.2) p r.2
  landed (s1.setPort p { s1.port p with lastTx := r.2.bytes }) p o.cell

/-- The frame the MAC takes next from the output buffer: the first of class 7, else the first (R87, R348). -/
def nextOut (x : PortSt) : Option (Nat × OutFrame) :=
  match x.outBuf.findIdx? (fun o => eClass o.env == 7) with
  | some i => (x.outBuf[i]?).map fun o => (i, o)
  | none => (x.outBuf.head?).map fun o => (0, o)

/-- A copy of a frame still arriving that will not be sent gives up its hold (whole frames gave theirs up when the Editor read them). -/
def letGo (s : State) (o : OutFrame) : State := if o.whole then s else giveUp s o.cell o.ph

/-- Whether preemption is active on a port. -/
def preemptActive (s : State) (p : Nat) : Bool := s.rb (pReg Reg.portPreemptStat p) 4

/-- Whether a port sends: its link is up and its MAC enabled. -/
def portUp (s : State) (p : Nat) : Bool := (s.port p).linkUp && s.rb (pReg Reg.portMacCfg p) 16

/-- What an egress MAC keeps of a frame whose sending began, however it ended: its postmark where it is a PTP event, and its latency where it is of class 7 (R95, R370). -/
def begunTx (s : State) (p : Nat) (o : OutFrame) : State := latencyMonitor (tsqPush s p o) p o

/-- The time the least fragment of a preemptable frame takes (R90): 64 × (1 + ADD_FRAG) bytes. -/
def leastFragment (s : State) (p : Nat) : Nat := byteTime s p (64 * (1 + s.rf (pReg Reg.portPreemptCfg p) 3 2))

/-- Whether a MAC can begin a frame now: it sends none, or one of class 7 while preemption is active and a preemptable frame is in progress that has sent the least fragment
since it began or went on (R87, R90). -/
def macFree (s : State) (p : Nat) (o : OutFrame) : Bool :=
  let x := s.port p
  x.txx.isNone &&
    (match x.tx with
     | none => true
     | some t => preemptActive s p && eClass o.env == 7 && eClass t.env != 7 && decide (x.fragAt ≤ s.up))

/-- A frame begins at a MAC: the preemptable one it interrupts ends a fragment, which is counted, and begins another after it (R87, R580). -/
def interrupt (s : State) (p : Nat) : State :=
  let x := s.port p
  if x.tx.isSome then
    let n := if x.frags = 0 then 2 else 1
    (s.setPort p { x with frags := x.frags + n, fragAt := s.up + leastFragment s p }).stat (portSet p) 20 n
  else s

/-- A frame takes the MAC while it is still arriving. -/
def occupy (s : State) (p : Nat) (o : OutFrame) : State :=
  let x := s.port p
  s.setPort p (if x.tx.isSome then { x with txx := some o } else { x with tx := some o, frags := 0, fragAt := s.up + leastFragment s p })

/-- MAC_TX (R20, R77, R80, R87, R88, R90, R95): the egress MAC takes the next frame through LANE_OUT and sends it; with its link down it discards it; a frame still arriving
begins only at a rate no greater than its ingress port's. A class 7 frame interrupts a preemptable one while preemption is active. `frags` is the number of fragments of a whole
preemptable frame that is preempted. -/
def execMacTx (port dt frags : Nat) (s : State) : Host.Outcome State Fault Refusal :=
  let s := advance s dt
  let x := s.port port
  match nextOut x with
  | none => .next s
  | some (i, o) =>
    let sent := if o.whole then o.bytes else (s.frame o.cell).bytes
    let begins := o.whole || decide (portRate s port ≤ portRate s (eInPort o.env))
    let s1 := (s.setPort port { x with outBuf := dropAt x.outBuf i }).passed (laneOut port) (flitsOf sent.length)
    let pm := ((s.now : Int) + psUnits (s.rf (pReg Reg.portTsAdj port) 31 16)).toNat
    let o1 := { o with txPm := pm, hdr := if o.whole then o.hdr else ptpHeader o.env sent }
    let split : Bool := decide (2 ≤ frags) && preemptActive s port && eClass o.env != 7
    let s2 := interrupt (if split then s1.stat (portSet port) 20 frags else s1) port
    occur (s.dataPath && decide (port < 512) && macFree s port o && s.clear (laneOut port)) s
      (if !portUp s port then landed (letGo (s1.count (pReg Reg.portLinkdownDropCnt port)) o) port o.cell
       else if o.bad then landed (begunTx (s2.setPort port { s2.port port with lastTx := o.bytes }) port o1) port o.cell
       else if o.whole then finishTx s2 port o1
       else if begins then occupy s2 port o1
       else s)

/-- A frame a MAC is sending is closed with an inverted FCS and counted (R74, R77, R82, R84). -/
def closeOut (s : State) (p : Nat) (o : OutFrame) : State :=
  let s1 := egrAbort (letGo (s.setPort p { (s.port p).unsent o.cell with lastTx := badFcs (s.frame o.cell).bytes }) o) p
  landed (begunTx s1 p o) p o.cell

/-- Every frame a MAC is sending is closed. -/
def closeTx (s : State) (p : Nat) : State := (s.port p).sendingAll.foldl (fun t o => closeOut t p o) s

/-- EGRESS_UNDERRUN (R82): the next bytes of the frame being sent are not present. -/
def execEgressUnderrun (port dt : Nat) (s : State) : Host.Outcome State Fault Refusal :=
  let s := advance s dt
  match (s.port port).sendingAll with
  | [] => .next s
  | o :: _ => occur s.dataPath s (closeOut (s.count (pReg Reg.portUnderrunCnt port)) port o)

/-! ### When the frame itself ends -/

/-- A copy being sent whose frame is now whole goes on to its end; one that its edits make too long is closed with an inverted FCS. -/
def wholeSent (c : Nat) (bytes : List Byte) (p : Nat) (s : State) (o : OutFrame) : State :=
  if o.cell = c ∧ !o.whole then
    match finishEdit (s.setPort p ((s.port p).unsent c)) p o bytes with
    | (t, some o1) => finishTx ((giveUp t c o.ph).passed (laneOut p) (flitsOf o1.bytes.length - flitsOf (eHeadValid o.env))) p o1
    | (t, none) => landed (begunTx (giveUp (t.setPort p { t.port p with lastTx := badFcs (bytes.take (maxLen s p)) }) c o.ph) p o) p c
  else s

/-- A copy that waits in an output buffer and whose frame is now whole is edited, or not sent. -/
def wholeWaiting (c : Nat) (bytes : List Byte) (p : Nat) (s : State) (o : OutFrame) : State :=
  let mine (z : OutFrame) : Bool := z.cell == c && !z.whole && z.ph == o.ph
  let buf (t : State) (f : List OutFrame → List OutFrame) : State := t.setPort p { t.port p with outBuf := f (t.port p).outBuf }
  if o.cell = c ∧ !o.whole then
    match finishEdit s p o bytes with
    | (t, some o1) => giveUp (buf t fun l => l.map fun z => if mine z then o1 else z) c o.ph
    | (t, none) => landed (giveUp (buf t fun l => l.filter fun z => !mine z) c o.ph) p c
  else s

/-- A port whose output holds copies of a frame that is now whole. -/
def wholePort (c : Nat) (bytes : List Byte) (s : State) (p : Nat) : State :=
  let s1 := (s.port p).sendingAll.foldl (wholeSent c bytes p) s
  (s1.port p).outBuf.foldl (wholeWaiting c bytes p) s1

/-- The ports with output of a frame. -/
def portsWith (s : State) (c : Nat) : List Nat :=
  (s.ports.filter fun q => (q.2.outBuf.any fun o => o.cell == c && !o.whole) || q.2.sendingAll.any fun o => o.cell == c).map (·.1)

/-- A frame has ended whole: its copies in the Editors are completed. -/
def frameWhole (s : State) (c : Nat) : State := (portsWith s c).foldl (wholePort c (s.frame c).bytes) s

/-- The copies of a frame that a port holds are not sent: one being sent is closed with an inverted FCS, the others counted and their holds given up. -/
def dropCopies (pick : OutFrame → Bool) (s : State) (p : Nat) : State :=
  let s1 := (s.port p).sendingAll.foldl (fun t o => if pick o then closeOut t p o else t) s
  let mine := (s1.port p).outBuf.filter pick
  let s2 := s1.setPort p { s1.port p with outBuf := (s1.port p).outBuf.filter fun o => !pick o }
  mine.foldl (fun u o => landed (letGo (egrAbort u p) o) p o.cell) s2

/-- A frame has ended errored after its envelope was formed (R49, R84): a copy being sent is closed with an inverted FCS; a copy not
begun is not sent and its cells are returned; each counts in PORT_EGR_ABORT_CNT. -/
def abortCopies (s : State) (c : Nat) : State := (portsWith s c).foldl (dropCopies fun o => o.cell == c && !o.whole) s

/-- A cell or flit of a frame on its way to an Editor or a MAC of a slice is hit by a double-bit error (R25): its copies there end errored, whole ones too. -/
def abortWhole (s : State) (sl c : Nat) : State :=
  ((List.range 32).map fun i => sl * 32 + i).foldl (dropCopies fun o => o.cell == c) s

end Sys2Proof.Machine
end

