-- ==== Sys2Proof/Machine/Links.lean ====
section
/-! DEFINITION. The states of Courier links and what a change of them moves: buckets, routes, and the envelopes that wait (R425, R439, R441, R447, R449, R464, R465). -/

namespace Sys2Proof.Machine

/-! ### Buckets (R441, R447) -/

/-- The envelopes of the eight pigeonholes of a link. -/
def linkEnvs (s : State) (k : Nat) : List Env := (List.range 8).flatMap fun c => mapGet [] s.depot.ph (4096 + k * 8 + c)

/-- Whether parcels of a bucket placed on a link have not all been sent and acknowledged. -/
def bucketBusy (s : State) (k tag : Nat) : Bool :=
  ((linkEnvs s k).any fun e => cTag e == tag) || (s.link k).unacked.any fun p => p.tag == tag

/-- The moves of every group whose buckets have nothing left on their old links, marked so. -/
def noteClear (s : State) : State :=
  s.withCour fun c => { c with groups := c.groups.map fun p =>
    (p.1, { p.2 with moves := p.2.moves.map fun m =>
      if m.clearAt.isNone && !bucketBusy s (wayLink s p.1 m.old) (bucketTag p.1 m.bucket) then { m with clearAt := some s.up } else m }) }

/-- A bucket begins to move to another way; from a failed link it moves at once (R447, R449). -/
def moveBucket (g b dst : Nat) (skip : Bool) (s : State) : State :=
  let old := (s.group g).buckets.getD b 0
  let noted (x : CourGroup) : CourGroup := { x with moved := mapSet 0 x.moved b (x.intervals + 1) }
  if skip then s.withGroup g fun x => noted { x with buckets := modAt x.buckets b fun _ => dst }
  else if (moveOf s g b).isSome then s
  else noteClear (s.withGroup g fun x => noted { x with moves := x.moves ++ [⟨b, old, dst, s.up, none, []⟩] })

/-- A held envelope goes to the bucket's new way. -/
def placeHeld (s : State) (e : Env) : State :=
  let r := courPlace s e
  if r.2.1 = 0 then dropRef r.1 (eCell e) none else if r.2.1 = 1 then r.1 else admitPlaced r.1 r.2.2

/-- A move ends: the bucket table names the new way and the held envelopes go there first. -/
def endMove (s : State) (g b : Nat) : State :=
  match moveOf s g b with
  | none => s
  | some m =>
    let s1 := s.withGroup g fun x => { x with moves := x.moves.filter fun o => o.bucket != b, buckets := modAt x.buckets b fun _ => m.new }
    let k := wayLink s g m.new
    m.held.foldl (fun t e => if wayUsable t g m.new then admitPlaced t (setEf e 9 31 19 (4096 + k * 8 + eClass e)) else placeHeld t e) s1

/-- A group after a change of its ways or their links: without buckets it is given them, and buckets whose way is not usable move (R441, R449). -/
def regroup (s : State) (g : Nat) : State :=
  let u := usableWays s g
  let x := s.group g
  if u.isEmpty then s
  else if x.buckets.isEmpty then s.withGroup g fun x => { x with buckets := (List.range 256).map fun b => u.getD (b % u.length) 0 }
  else
    let one (t : State) (b : Nat) : State :=
      let w := (t.group g).buckets.getD b 0
      let dst := u.getD (b % u.length) 0
      match moveOf t g b with
      | some m => if u.contains m.new then t else t.withGroup g fun x => { x with moves := x.moves.map fun o => if o.bucket = b then { o with new := dst } else o }
      | none => if u.contains w then t else moveBucket g b dst (linkState t (wayLink t g w) != 4 && linkState t (wayLink t g w) != 6) t
    (List.range 256).foldl one s

/-- Every group in use. -/
def regroupAll (s : State) : State := (s.cour.groups.map (·.1)).foldl regroup s

/-! ### Links -/

/-- JOINED is 1 while a link is UP (R464). -/
def putJoined (s : State) : State := s.setRf Reg.courId 31 31 (b2n ((List.range 32).any fun k => linkState s k == 4))

/-- The lanes of the group that carries a link. -/
def courLanes (s : State) (k : Nat) : List Nat :=
  match linkLane s k with
  | some l => (List.range (modeLanes s k)).map (l + ·)
  | none => []

/-- What PORT_LANE_STAT of a link's lanes shows as it enters a state: signal and lock from HELLO on, LINK_UP in UP and LEAVING. -/
def courLaneStat (s : State) (k st : Nat) : State :=
  (courLanes s k).foldl (fun t l =>
    let t1 := if st = 2 then t.setRf (Reg.laneStat l) 6 5 3 else t
    t1.setRf (Reg.laneStat l) 4 4 (b2n (st == 4 || st == 6))) s

/-- Lock is lost on the lanes of a link (R581). -/
def courLockLost (s : State) (k : Nat) : State :=
  (courLanes s k).foldl (fun t l =>
    if t.rb (Reg.laneStat l) 5 then (t.setRf (Reg.laneStat l) 5 4 0).stat (laneSet l) 3 else t) s

/-- A link enters a state. -/
def enterLink (s : State) (k st : Nat) : State :=
  courTimeCheck (putJoined (((courLaneStat s k st).setRf (Reg.linkStat k) 31 29 st).withLink k fun l => { l with since := s.up }))

/-- Whether an envelope keeps its pigeonhole whatever its routes: a mirror copy, which names its link; and, while the link is LEAVING, one that has no other way (R425, R465). -/
def staysQueued (s : State) (k : Nat) (e : Env) : Bool := decide (e.length < 20) || (linkState s k == 6 && !cMc e && !cDirect e && !routeOk s (cDst e))

/-- The envelopes that wait in a link's pigeonholes are resolved again, in pigeonhole order; one that keeps its pigeonhole stays (R449). -/
def reroute (s : State) (k : Nat) : State :=
  let one (t : State) (h : Nat) : State :=
    let l := mapGet [] t.depot.ph h
    let t0 := { t with depot := { t.depot with ph := mapSet [] t.depot.ph h [] } }
    l.foldl (fun t e =>
      let r := courPlace t e
      if staysQueued t k e = true then intoPh t h e
      else if r.2.1 = 2 ∧ ePh r.2.2 = h then intoPh r.1 h r.2.2
      else
        let t1 := if hasFrame r.1 (eCell e) then r.1.setFrame (eCell e) { r.1.frame (eCell e) with charges := (r.1.frame (eCell e)).charges.erase h } else r.1
        if r.2.1 = 0 then dropRef t1 (eCell e) none
        else if r.2.1 = 1 then t1
        else match admitAt t1 (ePh r.2.2) r.2.2 with
          | (t2, some e2) => intoPh t2 (ePh r.2.2) e2
          | (t2, none) => dropRef t2 (eCell e) none) t0
  ([0, 1, 2, 3, 4, 5, 6, 7].map fun c => 4096 + k * 8 + c).foldl one s

/-- What the buckets that move off a link hold: group, bucket and envelopes. -/
def heldOff (s : State) (k : Nat) : List (Nat × Nat × List Env) :=
  s.cour.groups.flatMap fun p => (p.2.moves.filter fun m => wayLink s p.1 m.old == k).map fun m => (p.1, m.bucket, m.held)

/-- Those envelopes laid aside; from a failed link the moves are over at once, since R447's step 2 is skipped (R449). -/
def layAside (s : State) (k : Nat) : State :=
  let failed := linkState s k != 6
  let mine (g : Nat) (m : BucketMove) : Bool := wayLink s g m.old == k
  s.withCour fun c => { c with groups := c.groups.map fun p =>
    if failed then
      (p.1, { p.2 with buckets := (p.2.moves.filter (mine p.1)).foldl (fun l m => modAt l m.bucket fun _ => m.new) p.2.buckets, moves := p.2.moves.filter fun m => !mine p.1 m })
    else (p.1, { p.2 with moves := p.2.moves.map fun m => if mine p.1 m then { m with held := [] } else m }) }

/-- Envelopes laid aside come back behind the older ones of their bucket: held with it while it moves, placed otherwise. -/
def bringBack (s : State) (x : Nat × Nat × List Env) : State :=
  if (moveOf s x.1 x.2.1).isSome then
    s.withGroup x.1 fun g => { g with moves := g.moves.map fun m => if m.bucket = x.2.1 then { m with held := m.held ++ x.2.2 } else m }
  else x.2.2.foldl placeHeld s

/-- A link stops being usable: its buckets move, its waiting envelopes are resolved again, and each route left with no valid way raises ROUTE_DOWN (R449). -/
def linkGone (s t : State) (k : Nat) : State :=
  let t1 := noteClear ((heldOff t k).foldl bringBack (reroute (regroupAll (layAside t k)) k))
  let lost := (s.cour.routes.map (·.1)).filter fun d => routeOk s d && !routeOk t1 d
  lost.foldl (fun u d => u.raise 0x0703 72 d) t1

/-- The parcels of a link's replay buffer discarded and counted, and its sender and receiver begun anew. -/
def linkClear (s : State) (k : Nat) : State :=
  let n := (s.link k).unacked.length
  let s1 := s.withLink k fun l => { l with unacked := [], next := 0, exp := 0, genSince := 0, rfree := 60, nakSent := false, ackDue := none, ctl := [] }
  let s2 := s1.setRf (Reg.linkStat k) 16 13 0
  if n = 0 then s2 else s2.count (Reg.courLostCnt k) n

/-- A link fails (R439): 0 replays, 1 lock, 2 heartbeat. -/
def failLink (s : State) (k why : Nat) : State := linkGone s ((enterLink (linkClear s k) k 5).raise 0x0702 72 k why) k

/-- A link is DOWN: its lanes are disabled, or its lock is lost after LEAVE. -/
def downLink (s : State) (k : Nat) : State := if linkState s k = 0 then s else linkGone s (enterLink (linkClear s k) k 0) k

/-- Lock is lost on a link's lanes (R425, R439): in CHECK and UP the link fails, in LEAVING it is DOWN; before that it locks anew. -/
def unlockLink (s : State) (k : Nat) : State :=
  let s1 := courLockLost s k
  let st := linkState s k
  if st = 3 ∨ st = 4 then failLink s1 k 1 else if st = 6 then downLink s1 k else if st = 1 ∨ st = 2 then enterLink s1 k 1 else s1

/-- REFCLK of a port group is gone: the Courier links on its lanes lose lock (R73). -/
def unlockGroup (s : State) (g : Nat) : State :=
  ((List.range 32).filter fun k => (linkLane s k).any fun l => l / 16 == g).foldl unlockLink s

/-- The envelopes queued for a link when it enters LEAVING are marked: it still carries those, and no new ones (R425). -/
def markQueued (s : State) (k : Nat) : State :=
  { s with depot := { s.depot with ph := ([0, 1, 2, 3, 4, 5, 6, 7].map fun c => 4096 + k * 8 + c).foldl (fun m h =>
      mapSet [] m h ((mapGet [] m h).map fun e => setEf (e ++ List.replicate (17 - e.length) 0) 16 1 1 1)) s.depot.ph } }

/-- LEAVE, sent or received, puts a link into LEAVING (R425, R465). -/
def leaveLink (s : State) (k : Nat) : State :=
  if linkState s k = 4 ∨ linkState s k = 3 then markQueued (linkGone s (enterLink s k 6) k) k else s

/-- The links after a change of lanes or of mode: LOCKING when lanes are enabled for one that is DOWN, DOWN when they are not, or the mode carries none (R425). -/
def linksRefresh (s : State) : State :=
  (List.range 32).foldl (fun t k =>
    if linkCarried t k && t.dataPath then (if linkState t k = 0 then enterLink t k 1 else t) else downLink t k) s

/-- Links put into LEAVING all at once: no route goes by another of them first. -/
def leaveAll (s : State) : List Nat → State
  | [] => s
  | k :: r => (k :: r).foldl markQueued (r.foldl (fun t j => linkGone t t j) (linkGone s ((k :: r).foldl (fun t j => enterLink t j 6) s) k))

/-- WITHDRAW puts every link into LEAVING (R465). -/
def linksLeave (s : State) : State := leaveAll s ((List.range 32).filter fun k => linkState s k == 4 || linkState s k == 3)

end Sys2Proof.Machine
end

