-- ==== Sys2Proof/Machine/Ports.lean ====
section
/-! DEFINITION. The ports: reception (R46, R47, R75, R76, R81, R83 to R85, R89, R94), admission to the ingress store (R113, R344), the
entry into ENV_A (R52), links and preemption (R73, R77, R88), lane configuration (R72, R74), the express meter (R363, R365) and the
egress postmark queue (R98). -/

namespace Sys2Proof.Machine

/-! ### The express meter (R363) -/

/-- The unit of the byte bucket: a byte, in units of 2⁻¹⁶ ÷ 8,000,000. -/
def byteUnit : Nat := 8000000 * 65536

/-- A port with its buckets brought up to a time, counted by the module's running time, which no step of module time moves. -/
def meterTo (s : State) (p t : Nat) : PortSt :=
  let x := s.port p
  let d := t - x.meterAt
  let bm := x.byteMissing - d * s.rf (pReg Reg.portXpolCfg p) 6 0 * portRate s p
  let fm := x.frameMissing - d
  { x with byteMissing := bm, frameMissing := fm, meterAt := max x.meterAt t, breach := if bm = 0 ∧ fm = 0 then false else x.breach }

/-- The meter's decision on a class 7 frame of a length, by the buckets as they stood when it began: a conforming frame takes from both buckets, a nonconforming one is
counted, and the first after both were full raises XENV_BREACH. -/
def meterJudge (s : State) (p len t : Nat) : State :=
  let cfg := s.reg (pReg Reg.portXpolCfg p)
  if !bitOf cfg 31 then s
  else
    let x := meterTo s p t
    let burst := fld cfg 11 8
    let gap := fld cfg 27 12 * 100 * nsUnit
    let ok := decide (len ≤ 1522) && decide (x.byteMissing + (len + 20) * byteUnit ≤ burst * 1542 * byteUnit) &&
      decide (x.frameMissing + gap ≤ burst * gap)
    if ok then s.setPort p { x with byteMissing := x.byteMissing + (len + 20) * byteUnit, frameMissing := x.frameMissing + gap }
    else
      let s1 := (s.setPort p { x with breach := true }).count (pReg Reg.portXpolCnt p)
      if x.breach then s1 else s1.raise 0x0104 (64 + p / 64) p

/-- XPOL_CFG_WRITE (R363, R365): the meter is configured, and its buckets filled when EN is written 1. -/
def execXpolCfgWrite (m port : Nat) (val : Word) (s : State) : Host.Outcome State Fault Refusal :=
  let bad (_ : State) : Bool := fld val 6 0 == 0 || decide (100 < fld val 6 0) || fld val 11 8 == 0 || decide (8 < fld val 11 8) ||
    (bitOf val 31 && fld val 27 12 == 0)
  occur (s.life.rails && decide (port < 512)) s
    (s.command m (pReg Reg.portXpolCfg port) val bad fun t =>
      let x := meterTo s port s.up
      t.setPort port (if bitOf val 31 then { x with byteMissing := 0, frameMissing := 0, meterAt := s.up, breach := false } else x))

/-! ### Admission -/

/-- Whether a frame of a port and class is admitted when its first flit has arrived (R113, R480 to R482, R509). -/
def portAdmits (s : State) (p cls pm : Nat) : Bool :=
  storeAdmits s (p / 32) cls && tenActive s (portTenancy s p (usesOld s pm)) && !(s.mode == 4 && s.life.wdStopped)

/-- A frame is admitted: it takes a slot of the store and a frame record, and every Nth is chosen for sampling (R51, R113, R317,
R344). The mark says whether it is sampled. -/
def admitFrame (s : State) (p cell cls pm : Nat) : State × Bool :=
  let sl := p / 32
  let x := s.slice sl
  let y := s.port p
  let n := s.rf (pReg Reg.portSampleCfg p) 15 0
  let pick := decide (n ≠ 0) && decide (n ≤ y.sampled + 1)
  let it : StoreItem := { port := p, cls := cls, pm := pm, cell := cell, env := none, head := [], extKey := 0, waiting := [] }
  (((s.setSlice sl { x with store := x.store ++ [it] }).setFrame cell
      { cells := [], bytes := [], xpr := cls == 7, landing := some sl, ended := 0, refs := 0, rctOk := false, rlan := false, rseqV := false,
        rseq := 0, leak := false, inPort := p, charges := [] }).setPort p
      { y with sampled := if n = 0 ∨ pick then 0 else y.sampled + 1 }, pick)

/-- A frame refused at admission is counted for its port and class. -/
def refuseFrame (s : State) (p cls : Nat) : State := s.count (Reg.sortRefuseCnt (p / 32) (p % 32) cls)

/-- Whether a port receives: it exists, its lane and MAC are enabled and its link is up. -/
def portReceives (s : State) (p : Nat) : Bool := portExists s p && portUp s p && s.rb (Reg.laneCfg (groupLane s (p / 4))) 16

/-- Whether preemption is enabled on a port whose lane has it (R86, R89). -/
def preemptEn (s : State) (p : Nat) : Bool := s.rb (pReg Reg.portPreemptCfg p) 0 && laneMode s (p / 4) != 5

/-- Whether a port can begin to receive a frame: none is in progress, or the one in progress is preempted and another comes between its fragments (R89). -/
def rxFree (s : State) (p : Nat) : Bool :=
  let x := s.port p
  x.rx.isNone || (preemptEn s p && x.rxPre.isNone)

/-- The hatch by which a port's flits reach its slice, and that by which a slice's flits reach its port. -/
def laneIn (p : Nat) : Nat := hatchNo 0 (p / 32)

/-- Whether an island keeps time yet: a port group takes no postmark before its first correction word since ENTRY (R108). -/
def groupTimed (s : State) (p : Nat) : Bool := s.time.words.any fun w => w.1 == 64 + p / 64

/-- FRAME_START (R20, R79, R84, R85, R89, R94, R96, R108, R113, R117): the first flit of a frame arrives through LANE_IN, its class is decided and its admission judged. A
run of `skipped` bytes discarded before it after a stall is counted. On a port with MACsec, which acts before the Sorter, the Sorter meets
the frame at its end (R494). `cell` is the number its first cell will have. -/
def execFrameStart (port dt : Nat) (first : List Byte) (cell skipped : Nat) (s : State) : Host.Outcome State Fault Refusal :=
  let s := advance s dt
  let x := s.port port
  let head := first.take 64
  let pm := ((s.now : Int) - byteTime s port head.length + psUnits (s.rf (pReg Reg.portTsAdj port) 15 0)).toNat
  let s1 := (if x.discarding ∧ 0 < skipped then s.count (pReg Reg.portResyncCnt port) else s).passed (laneIn port) 1
  let s2 := s1.setPort port { s1.port port with discarding := false }
  let cls := frameClass s port head (decide (head.length < 64))
  let ct := s.rb (pReg Reg.portCtCfg port) cls
  let rx (t : State) (adm smp : Bool) : State :=
    t.setPort port { t.port port with
      rxPre := if x.rx.isSome then x.rx else x.rxPre
      rx := some { cell := cell, pm := pm, cls := cls, bytes := head, admitted := adm, ct := ct, formed := false, sample := smp,
                   began := s.up - byteTime s port head.length } }
  let control := beNat (slice head 12 2) == 0x8808
  let right := cellFree s cell || (decide (cellCount ≤ cell) && decide (cell < 0x7FFFF) && !hasFrame s cell)
  occur (s.dataPath && portReceives s port && groupTimed s port && s.clear (laneIn port) && rxFree s port && !head.isEmpty && right) s
    (if rxSecured s port || control then rx s2 false false
     else if portAdmits s2 port cls pm then
       let r := admitFrame s2 port cell cls pm
       rx r.1 true r.2
     else rx (refuseFrame s2 port cls) false false)

/-! ### Forming the envelope -/

/-- Whether a frame carries a valid PRP trailer or HSR tag for its port's instance, and its sequence number (R317, R352). -/
def rctInfo (s : State) (p : Nat) (bytes : List Byte) (whole : Bool) : Option Nat :=
  match redOf s p with
  | none => none
  | some (r, _) =>
    if redMode s r = 1 then
      let b := bytes.take (bytes.length - 4)
      let n := b.length
      let w := f16 b (n - 4)
      if whole ∧ f16 b (n - 2) = 0x88FB ∧ (w / 4096 = 10 ∨ w / 4096 = 11) ∧ w % 4096 = (n - 14 - (if hasTag b then 4 else 0)) % 4096 then
        some (f16 b (n - 6))
      else none
    else if f16 bytes 12 = 0x892F then some (f16 bytes 16) else none

/-- The envelope of a received frame is formed (R46, R47): its store slot and frame record are completed. `len` is 0 while the frame's end
is not known. -/
def formFrame (s : State) (p : Nat) (r : RxFrame) (bytes : List Byte) (len hv : Nat) : State :=
  let red := rctInfo s p bytes (decide (len ≠ 0))
  let isB := match redOf s p with | some (_, b) => b | none => false
  let g := formEnvelope s p r.cell r.cls r.pm len hv r.ct r.sample (bytes.take hv)
  let f := g.1.frame r.cell
  let s1 := g.1.setFrame r.cell { f with refs := 1, bytes := bytes, ended := if len = 0 then f.ended else 1, rctOk := red.isSome, rlan := isB,
                                         rseq := red.getD 0 }
  let x := s1.slice (p / 32)
  s1.setSlice (p / 32) { x with store := x.store.map fun it =>
    if it.cell = r.cell ∧ it.env.isNone then
      { it with env := some g.2.env, head := bytes.take hv, extKey := g.2.extKey, waiting := g.2.waiting }
    else it }

/-- The cut-through head length of a port and class (R47). -/
def headLength (s : State) (p cls : Nat) : Nat := 64 * (1 + s.rf (Reg.sortPortCt (p / 32) (p % 32)) (2 * cls + 1) (2 * cls))

/-- The flits that carry a frame's bytes after its first n. -/
def flitsPast (n m : Nat) : Nat := flitsOf m - flitsOf n

/-- ENVELOPE_FORM_CT (R20, R47): `more` bytes arrive and HEAD_VALID reaches the cut-through head length. -/
def execEnvelopeFormCt (port dt : Nat) (more : List Byte) (s : State) : Host.Outcome State Fault Refusal :=
  let s := advance s dt
  match (s.port port).rx with
  | none => .next s
  | some r =>
    let bytes := r.bytes ++ more
    let hv := headLength s port r.cls
    let r1 := { r with bytes := bytes, formed := true }
    occur (s.dataPath && s.clear (laneIn port) && r.admitted && r.ct && !r.formed && decide (hv ≤ bytes.length) && decide (bytes.length ≤ maxLen s port)) s
      (formFrame ((s.passed (laneIn port) (flitsPast r.bytes.length bytes.length)).setPort port { s.port port with rx := some r1 }) port r1 bytes 0 hv)

/-! ### The end of a frame -/

/-- A frame in reception leaves its port, errored (R46, R49, R81): before its envelope is formed it is discarded, after that the Depot and the Editors deal with it. -/
def endErroredOf (s : State) (p : Nat) (r : RxFrame) : State :=
  let s1 := s.setPort p ((s.port p).rxDone r.cell)
  if !r.admitted then s1
  else if r.formed then abortCopies (s1.setFrame r.cell { s1.frame r.cell with ended := 2, bytes := r.bytes }) r.cell
  else discardUnformed s1 r.cell

/-- The frame in progress of a port ends errored. -/
def endErrored (s : State) (p : Nat) : State :=
  match (s.port p).rx with
  | none => s
  | some r => endErroredOf s p r

/-- A class 7 frame that ends, however it ends, meets the meter (R363). -/
def rxMeter (s : State) (p : Nat) (r : RxFrame) : State :=
  if r.cls = 7 then meterJudge s p r.bytes.length r.began else s

/-- Every frame in progress on a port ends errored, as a stall or a lane switched off ends it, and each is counted (R74, R84, R580). -/
def endAllErrored (s : State) (p : Nat) : State :=
  (s.port p).rxAll.foldl (fun t r => endErroredOf (rxMeter (t.stat (portSet p) 6) p r) p r) s

/-- The statistics of a good frame of n bytes (R580). -/
def rxStats (s : State) (p : Nat) (bytes : List Byte) (express : Bool) : State :=
  let b := portSet p
  let n := bytes.length
  let d := slice bytes 0 6
  let cast := if d.all (· == 255) then 4 else if (d.getD 0 0).toNat % 2 = 1 then 3 else 2
  let bin := if n ≤ 64 then 7 else if n ≤ 127 then 8 else if n ≤ 255 then 9 else if n ≤ 511 then 10 else if n ≤ 1023 then 11
    else if n ≤ 1518 then 12 else 13
  let s1 := (((s.stat b 0).stat b 1 n).stat b cast).stat b bin
  if express then s1.stat b 21 else s1

/-- A good frame whose reception was admitted has ended: its envelope is formed if it was not, and its copies in the Editors are
completed (R46, R47). -/
def endGood (s : State) (p : Nat) (r : RxFrame) (bytes : List Byte) : State :=
  let s1 := s.setPort p ((s.port p).rxDone r.cell)
  if !r.admitted then s1
  else if r.formed then
    frameWhole (s1.setFrame r.cell { s1.frame r.cell with ended := 1, bytes := bytes }) r.cell
  else formFrame s1 p r bytes bytes.length (if r.ct then min bytes.length (headLength s p r.cls) else min bytes.length 256)

/-- A good frame of a port with MACsec: verified and in the clear it meets the Sorter, and is admitted or refused (R113, R494). One that decrypts to fewer than 64 bytes is
refused like a frame without a place in the store, and counted in SORT_REFUSE_CNT; the specification does not say what becomes of it (DESIGN CHOICE, log entry 60). -/
def endSecured (s : State) (p : Nat) (r : RxFrame) (bytes : List Byte) : State :=
  let s0 := s.setPort p ((s.port p).rxDone r.cell)
  match secureRx s0 p (bytes.take (bytes.length - 4)) with
  | (s1, none) => s1
  | (s1, some plain) =>
    let b := plain ++ fcsOf plain
    let cls := frameClass s1 p (b.take 64) (decide (b.length ≤ 64))
    let s2 := rxMeter s1 p { r with cls := cls, bytes := b }
    if b.length < 64 ∨ !portAdmits s2 p cls r.pm ∨ hasFrame s2 r.cell then refuseFrame s2 p cls
    else
      let a := admitFrame s2 p r.cell cls r.pm
      let ct := s.rb (pReg Reg.portCtCfg p) cls
      let r1 := { r with cls := cls, admitted := true, ct := ct, sample := a.2, bytes := b }
      formFrame a.1 p r1 b b.length (min b.length (if ct then headLength s p cls else 256))

/-- The envelope of a cut-through frame whose bytes go past the head length is formed before they end (R47). -/
def formPast (s : State) (p : Nat) (r : RxFrame) (bytes : List Byte) : State × RxFrame :=
  let hv := headLength s p r.cls
  if r.admitted && r.ct && !r.formed && decide (hv < bytes.length) then
    let r1 := { r with formed := true, bytes := bytes }
    (formFrame (s.setPort p { s.port p with rx := some r1 }) p r1 bytes 0 hv, r1)
  else (s, { r with bytes := bytes })

/-- What ends a frame errored at its port, counted (R75, R89, R580): more bytes than MAX_LEN, which end it at the next one whatever follows; fewer than 64; an error
character or a break of the reassembly rules. None for a frame that ends with its last byte. -/
def rxFault (s : State) (p n : Nat) (how : RxEnd) : Option State :=
  let cnt (f : Nat → Nat → Nat) (t : State) : State := t.count (pReg f p)
  let err := s.stat (portSet p) 6
  if maxLen s p < n then some (cnt Reg.portOversizeCnt err)
  else match how with
    | .errorChar => some (if n < 64 then cnt Reg.portRuntCnt err else err)
    | .badFragments => some (cnt Reg.portFragErrCnt (if n < 64 then cnt Reg.portRuntCnt err else err))
    | .last => if n < 64 then some (cnt Reg.portRuntCnt s) else none

/-- FRAME_RX_END (R20, R46, R47, R49, R75, R76, R81, R89, R363, R580): the frame being received ends with its last bytes and how it ends; `frags`
is the number of fragments it was reassembled from, if it was preempted, which a port receives only while preemption is enabled. -/
def execFrameRxEnd (port dt : Nat) (rest : List Byte) (how : RxEnd) (frags : Nat) (s : State) : Host.Outcome State Fault Refusal :=
  let s := advance s dt
  match (s.port port).rx with
  | none => .next s
  | some r =>
    let all := r.bytes ++ rest
    let bytes := all.take (maxLen s port + 1)
    let n := bytes.length
    let s0 := (if 2 ≤ frags then s.stat (portSet port) 14 frags else s).passed (laneIn port) (flitsPast r.bytes.length n)
    let f := formPast s0 port r bytes
    let secured := rxSecured s port && !r.admitted
    let s1 := if secured then f.1 else rxMeter f.1 port f.2
    let control := beNat (slice bytes 12 2) == 0x8808
    let fcsOk := decide (bytes.drop (n - 4) = fcsOf (bytes.take (n - 4)))
    let s2 := if fcsOk then rxStats s1 port bytes (r.cls == 7 && !control) else s1.stat (portSet port) 5
    occur (s.dataPath && s.clear (laneIn port) && ((decide (frags < 2) && how != .badFragments) || preemptEn s port)) s
      (match rxFault s1 port n how with
       | some t => endErroredOf t port f.2
       | none =>
         if control then endErroredOf (s2.count (pReg Reg.portMacctlCnt port)) port f.2
         else if !fcsOk then endErroredOf s2 port f.2
         else if secured then endSecured s2 port f.2 bytes
         else endGood s2 port f.2 bytes)

/-- The stall limit of a port (R83). -/
def stallLimit (s : State) (p : Nat) : Nat :=
  let l := s.rf (pReg Reg.portStallCfg p) 15 0
  if l = 0 then max (10000 * nsUnit) (2 * byteTime s p (maxLen s p + 20)) else l * 1000 * nsUnit

/-- STALL_LIMIT (R83 to R85): the port has stalled in the middle of a frame for `stalled` units of time, which reaches the stall limit. -/
def execStallLimit (port dt stalled : Nat) (s : State) : Host.Outcome State Fault Refusal :=
  let s := advance s dt
  let s1 := endAllErrored (s.count (pReg Reg.portStallCnt port)) port
  occur (s.dataPath && ((s.port port).rx).isSome && decide (stallLimit s port ≤ stalled)) s
    (s1.setPort port { s1.port port with discarding := true })

/-! ### Cells (R321, R322) and flits -/

/-- The port whose frame in reception a first cell names, if there is one. -/
def rxPort (s : State) (c : Nat) : Option Nat :=
  (s.ports.find? fun q => q.2.rxAll.any fun r => r.cell == c).map (·.1)

/-- A cell write that is refused ends the frame errored (R321). -/
def refuseCell (s : State) (c : Nat) : State :=
  let s1 := rxDiscard (s.count Reg.depotLandFullCnt) c
  if isFormed s1 c then abortCopies (s1.setFrame c { s1.frame c with ended := 2 }) c else discardUnformed s1 c

/-- Whether the pools have a cell for a landing frame (R321); after its envelope has been admitted a cell is always charged (R322). -/
def landRoom (s : State) (f : Frame) : Bool :=
  match f.landing with
  | none => true
  | some sl => if f.xpr then decide (0 < expressFree s) else decide (landingOf s sl < s.rf Reg.depotLandCfg 15 0) && decide (0 < sharedFree s)

/-- CELL_WRITE (R20, R316, R321, R322): the next cell of a frame passes CELL_W and is written with the bytes that have arrived since; the first has the frame's own
number. -/
def execCellWrite (frame cell : Nat) (more : List Byte) (s : State) : Host.Outcome State Fault Refusal :=
  let f := s.frame frame
  let rx := (rxPort s frame).isSome && s.ports.any fun p => p.2.rxAll.any fun r => r.cell == frame && r.admitted
  let bytes := if rx then f.bytes ++ more else f.bytes
  let right := if f.cells.isEmpty then cell == frame else cellFree s cell
  let h := hatchNo 1 (f.inPort / 32)
  let s1 := (if rx then { s with ports := s.ports.map fun p =>
      (p.1, if p.2.rxAll.any fun r => r.cell == frame && r.admitted then p.2.rxJoin frame more else p.2) } else s).passed h 1
  occur (s.dataPath && s.clear h && hasFrame s frame && right && decide (f.cells.length * 256 < bytes.length) && f.ended != 2) s
    (if landRoom s f && decide (cell < cellCount) then s1.setFrame frame { f with cells := f.cells ++ [cell], bytes := bytes } else refuseCell s1 frame)

/-! ### Into station A (R52) -/

/-- ENVELOPE_ENTER_ENV_A (R52, R61): the envelope of store slot `i` is sent into ENV_A with the next SEQ of its domain, when it is formed, its
lookups are complete and no earlier frame of its domain is in the store; without credit it waits in the store (R20, R27). A learning insertion still queued for it will no
longer touch it (R133). -/
def execEnvelopeEnterEnvA (sl i : Nat) (s : State) : Host.Outcome State Fault Refusal :=
  let x := s.slice sl
  match x.store[i]? with
  | none => .next s
  | some it =>
    match it.env with
    | none => .next s
    | some e =>
      let d := eDomain e
      let q := mapGet 0 x.nextSeq d
      let ent : HEntry := { pay := .env (setEf e 2 31 16 q) it.head, flow := d, xpr := it.cls == 7 }
      let h := hatchNo 2 sl
      let first := !((x.store.take i).any fun o => o.port == it.port && o.cls == it.cls)
      occur (s.dataPath && decide (sl < 16) && it.waiting.isEmpty && first) s
        (if ((s.hatch h).channel h ent).isSome then
          (s.setSlice sl { x with store := dropAt x.store i, nextSeq := mapSet 0 x.nextSeq d ((q + 1) % 65536),
                                  learnQ := x.learnQ.map fun r => if r.cell = some it.cell then { r with cell := none } else r }).offer h ent
         else s.waitNoted h)

/-! ### Links and preemption -/

/-- Preemption of a port as its configuration and link stand (R86, R88): DISABLED without EN or verification, and on a 100G_4L port, else from INITIAL. -/
def preemptEval (s : State) (p : Nat) : State :=
  let cfg := s.reg (pReg Reg.portPreemptCfg p)
  let st := pReg Reg.portPreemptStat p
  let up := (s.port p).linkUp
  let v := s.rf st 2 0
  if !preemptEn s p then (s.setRf st 2 0 0).setRf st 4 4 0
  else if bitOf cfg 1 then (s.setRf st 2 0 0).setRf st 4 4 (b2n up)
  else
    let v1 := if v = 0 ∨ !up then 1 else v
    let s1 := (s.setRf st 2 0 v1).setRf st 4 4 (b2n (up && v1 == 3))
    if v1 = 1 then s1.setPort p { s1.port p with attempts := 0 } else s1

/-- The lanes of a port's group. -/
def portLanes (s : State) (p : Nat) : List Nat := (List.range (groupSize (laneMode s (p / 4)))).map fun i => p / 4 + i

/-- Whether another sub-port of the lane is up. -/
def siblingUp (s : State) (p : Nat) : Bool := (List.range 4).any fun i => p / 4 * 4 + i != p && (s.port (p / 4 * 4 + i)).linkUp

/-- The link of a port goes down (R74, R77, R88): the frame being sent is closed, and verification returns to INITIAL. -/
def portDown (s : State) (p : Nat) : State :=
  let s1 := closeTx (s.setPort p { s.port p with linkUp := false }) p
  preemptEval s1 p

/-- LINK_DOWN (R77, R84, R88, R581): the link of a port goes down; `cause` is 1 for a loss of lock, 2 for a loss of signal, 0 for any other. A
frame being received stalls. -/
def execLinkDown (port dt cause : Nat) (s : State) : Host.Outcome State Fault Refusal :=
  let s := advance s dt
  let lanes := portLanes s port
  let s1 := portDown s port
  let s2 := if cause = 0 then s1 else lanes.foldl (fun t l =>
    let t1 := ((t.setRf (Reg.laneStat l) 5 5 0).setRf (Reg.laneStat l) 4 4 0).stat (laneSet l) 3
    if cause = 2 then (t1.setRf (Reg.laneStat l) 6 6 0).stat (laneSet l) 5 else t1) s1
  let s3 := if siblingUp s2 port then s2 else lanes.foldl (fun t l => t.setRf (Reg.laneStat l) 4 4 0) s2
  occur (s.life.rails && (s.port port).linkUp) s s3

/-- LINK_UP (R73, R88): the link of a port comes up, with REFCLK present. -/
def execLinkUp (port dt : Nat) (s : State) : Host.Outcome State Fault Refusal :=
  let s := advance s dt
  let s1 := (portLanes s port).foldl (fun t l => t.setRf (Reg.laneStat l) 6 4 7) s
  occur (s.dataPath && portExists s port && s.rb (Reg.laneCfg (port / 4)) 16 && s.rb (Reg.laneStat (port / 4)) 7 && !(s.port port).linkUp) s
    (preemptEval (s1.setPort port { s1.port port with linkUp := true }) port)

/-- PREEMPT_VERIFY (R88): an attempt at verification is made at once from INITIAL and every VERIFY_MS after; after 3, FAILED. -/
def execPreemptVerify (port dt : Nat) (s : State) : Host.Outcome State Fault Refusal :=
  let s := advance s dt
  let cfg := s.reg (pReg Reg.portPreemptCfg port)
  let st := pReg Reg.portPreemptStat port
  let x := s.port port
  let v := s.rf st 2 0
  occur (s.dataPath && decide (port < 512) && preemptEn s port && !bitOf cfg 1 && x.linkUp && (v == 1 || (v == 2 && decide (x.verifyAt ≤ s.up)))) s
    (if x.attempts < 3 then
      (s.setRf st 2 0 2).setPort port { x with attempts := x.attempts + 1, verifyAt := s.up + fld cfg 15 8 * 1000000 * nsUnit }
     else s.setRf st 2 0 4)

/-- VERIFY_RESPONSE (R88): the link partner answers a verification attempt, and preemption becomes active. -/
def execVerifyResponse (port : Nat) (s : State) : Host.Outcome State Fault Refusal :=
  let st := pReg Reg.portPreemptStat port
  occur (s.dataPath && decide (port < 512) && s.rf st 2 0 == 2 && (s.port port).linkUp) s ((s.setRf st 2 0 3).setRf st 4 4 1)

/-- REFCLK_LOSS (R73, R610): REFCLK of port group g has been outside its limits for 10 µs; its lanes lose lock and their links, ports' and Courier, go down. -/
def execRefclkLoss (g : Nat) (s : State) : Host.Outcome State Fault Refusal :=
  let lanes := (List.range 16).map fun i => g * 16 + i
  let ps := ((List.range 64).map fun i => g * 64 + i).filter fun p => (s.port p).linkUp
  let s1 := unlockGroup (lanes.foldl (fun t l => t.setRf (Reg.laneStat l) 7 7 0) s) g
  let s2 := lanes.foldl (fun t l =>
    let t1 := (t.setRf (Reg.laneStat l) 5 5 0).setRf (Reg.laneStat l) 4 4 0
    if t.rb (Reg.laneStat l) 5 then t1.stat (laneSet l) 3 else t1) s1
  occur (s.life.rails && decide (g < 8) && s.rb (Reg.laneStat (g * 16)) 7) s (ps.foldl portDown s2)

/-- REFCLK_RETURN (R73, R610): REFCLK of port group g is within its limits again. -/
def execRefclkReturn (g : Nat) (s : State) : Host.Outcome State Fault Refusal :=
  occur (s.life.rails && decide (g < 8) && !s.rb (Reg.laneStat (g * 16)) 7) s
    (((List.range 16).map fun i => g * 16 + i).foldl (fun t l => t.setRf (Reg.laneStat l) 7 7 1) s)

/-! ### Lane configuration (R72, R74) -/

/-- Whether an FEC value is accepted for a mode. -/
def fecOk (mode fec : Nat) : Bool := fec == 0 || (fec == 1 && (mode == 2 || mode == 3)) || (fec == 2 && (mode == 3 || mode == 5))

/-- Whether a write of PORT_LANE_CFG is refused (R72). A multi-lane MODE is judged by the other lanes of its group: the first lane itself may stand in another mode with EN 0, which
the specification does not say (DESIGN CHOICE, log entry 63). -/
def laneRefused (lane : Nat) (val : Word) (s : State) : Bool :=
  let old := s.reg (Reg.laneCfg lane)
  let mode := fld val 3 0
  let w := groupSize mode
  let changes := mode != fld old 3 0 || fld val 6 4 != fld old 6 4 || bitOf val 7 != bitOf old 7 || fld val 23 19 != fld old 23 19
  let courier (n : Nat) : Bool := decide (6 ≤ n) && decide (n ≤ 8)
  decide (8 < mode) || !fecOk mode (fld val 6 4) || (changes && (bitOf old 16 || bitOf val 16)) ||
    (decide (1 < w) && (lane % w != 0 || (List.range w).any fun i => i != 0 && laneMode s (lane + i) != 0)) ||
    groupLane s lane != lane ||
    (courier mode && (List.range 128).any fun k => k != lane && groupLane s k == k && courier (laneMode s k) && s.rf (Reg.laneCfg k) 23 19 == fld val 23 19)

/-- MODE_EFF of every lane: a follower shows its group's mode (PORT_LANE_STAT). -/
def modeEffects (s : State) (lane : Nat) : State :=
  ((List.range 4).map fun i => lane / 4 * 4 + i).foldl (fun t l => t.setRf (Reg.laneStat l) 3 0 (laneMode t (groupLane t l))) s

/-- The ports of a lane are taken down because its EN is cleared: a frame being received ends errored at once (R74). -/
def laneOff (s : State) (lane : Nat) : State :=
  let s1 := ((List.range 4).map fun i => lane * 4 + i).foldl (fun t p =>
    let t1 := endAllErrored t p
    if (t1.port p).linkUp then portDown t1 p else t1) s
  ((List.range (groupSize (laneMode s lane))).map (lane + ·)).foldl (fun t l => (t.setRf (Reg.laneStat l) 5 5 0).setRf (Reg.laneStat l) 4 4 0) s1

/-- LANE_CFG_WRITE (R72, R74): PORT_LANE_CFG is written or refused; clearing EN takes the lane's ports down. -/
def execLaneCfgWrite (m lane : Nat) (val : Word) (s : State) : Host.Outcome State Fault Refusal :=
  let was := s.rb (Reg.laneCfg lane) 16
  occur (s.life.rails && decide (lane < 128)) s
    (s.command m (Reg.laneCfg lane) val (laneRefused lane val) fun t =>
      linksRefresh (modeEffects (if was ∧ !bitOf val 16 then laneOff t lane else t) lane))

/-! ### The egress postmark queue (R98) -/

/-- What a read of PORT_TSQ_W0 does and returns: the oldest egress postmark is taken into W0 to W3, and W0 is cleared by its read; with an empty queue VALID reads 0. -/
def takeTsq (m port : Nat) (s : State) : State :=
  let w (f : Nat → Nat → Nat) := pReg f port
  let n (v : Nat) : Word := BitVec.ofNat 32 v
  let s0 := s.setReg (w Reg.tsqW0) 0
  match (s.port port).tsq with
  | [] => (s0.setReg (w Reg.tsqW3) 0).answer m 0
  | q :: r =>
    ((((s0.setPort port { s.port port with tsq := r }).setReg (w Reg.tsqW1) (n (q.pm / 2 ^ 32))).setReg
      (w Reg.tsqW2) (n (q.frac * 65536 + q.seqId))).setReg (w Reg.tsqW3) (n (2 ^ 31 + q.msgType * 256 + q.domain))).answer m (n (q.pm % 2 ^ 32))

/-- A read of PORT_TSQ_W0 on its way to its block. -/
def tsqRead (m port : Nat) (s : State) : State :=
  s.issue m (pReg Reg.tsqW0 port) false 0 fun s => (s.answer m 0).access m (pReg Reg.tsqW0 port) (takeTsq m port)

/-- TSQ_POP (R98): a read of PORT_TSQ_W0. -/
def execTsqPop (m port : Nat) (s : State) : Host.Outcome State Fault Refusal :=
  occur (s.life.rails && decide (port < 512)) s (tsqRead m port s)

end Sys2Proof.Machine
end

