-- ==== Sys2Proof/Machine/Gate.lean ====
section
/-! DEFINITION. The distributors and reorder gates of the stations (R42, R53 to R58, R63, R170, R247, R282, R474) and delivery from the internal pigeonholes (R326). -/

namespace Sys2Proof.Machine

/-- The hatch a station takes envelopes from, and the one its gate sends into. -/
def inHatch (stn : Nat) : Nat := hatchNo (if stn % 3 = 0 then 2 else if stn % 3 = 1 then 3 else 5) (stn / 3)
def outHatch (stn : Nat) : Nat := hatchNo (if stn % 3 = 0 then 3 else if stn % 3 = 1 then 4 else 6) (stn / 3)

/-- Envelopes held by threads or waiting at a station's gate, those its hatch has no credit for among them (STN_GATE_STAT.INFLIGHT). -/
def gateInflight (s : State) (stn : Nat) : Nat := (s.station stn).gate.length + (s.hatch (outHatch stn)).held.length

/-- The limit an envelope is handed out under: STN_GATE_CFG.TIMEOUT as it stands (R57). -/
def gateLimit (s : State) (stn : Nat) : Nat := s.rf (stReg Reg.gateCfg stn) 9 0 * 1000 * nsUnit

/-- The free thread of a station for an envelope: the engines in rotation, the lowest thread number; express T-threads for class 7 and S-threads for the rest, of the
envelope's tenancy or tenancy 0, without a pending tap (R53, R170, R282, R474). -/
def stationThread (s : State) (stn : Nat) (e : Env) : Option Nat :=
  let order := (List.range 4).map fun i => stn * 4 + ((s.station stn).rotate + i) % 4
  order.findSome? fun g => if takesWork s g then
      ((List.range 16).map (g * 16 + ·)).find? fun m =>
        waitsWork s m && thrPool s m && thrIsT s m == (eClass e == 7) && (thrTenancy s m == eTenancy e || thrTenancy s m == 0) &&
          !((s.shm stn).taps.any fun p => p.thread == m)
    else none

/-- A hatch without the head of one of its sub-channels. -/
def Hatch.popOf (x : Hatch) (xpr : Bool) : Hatch :=
  if xpr then { x with xFifo := x.xFifo.drop 1, xUnseen := x.xUnseen + 1, xRemoved := x.xRemoved + 1 }
  else { x with gFifo := x.gFifo.drop 1, gUnseen := x.gUnseen + 1, gRemoved := x.gRemoved + 1 }

/-- What the distributor makes of the head of a sub-channel: nothing while no thread is free for it (R53, R54). -/
def distributeOne (s : State) (stn : Nat) (xpr : Bool) : Option State :=
  let h := inHatch stn
  let x := s.hatch h
  match (if xpr then x.xFifo.head? else x.gFifo.head?) with
  | some { pay := .env e head, flow := f, xpr := p } =>
    let s1 := s.setHatch h (x.popOf xpr)
    let st := s.station stn
    if eVoid e then
      some (s1.setStation stn { st with gate := st.gate ++ [⟨e, head, f, p, none, true, true, s.up, 0, []⟩] })
    else match stationThread s stn e with
      | none => none
      | some m =>
        let s2 := (s1.drainWindow m).setStation stn { st with gate := st.gate ++ [⟨e, head, f, p, some m, false, false, s.up, gateLimit s stn, []⟩], rotate := (m / 16 + 1) % 4 }
        some (ringBell (s2.withThr m fun t => { t with late := false }) m 0)
  | some _ => some (s.setHatch h (x.popOf xpr))
  | none => none

/-- DISTRIBUTE (R53, R54, R170, R474): the express head first, the general head when that waits for a thread. -/
def execDistribute (stn dt : Nat) (s : State) : Host.Outcome State Fault Refusal :=
  let s := advance s dt
  match (match distributeOne s stn true with | some t => some t | none => distributeOne s stn false) with
  | none => .next s
  | some t => occur (s.dataPath && decide (stn < 48) && decide (gateInflight s stn < 64)) s t

/-- Whether an envelope at a place of the gate may go on: released, no helper reads its frame, and every earlier one of its domain, or at station C of its pigeonhole, gone
(R55, R63, R247). -/
def gateMay (g : List GateItem) (ix : Nat) : Bool :=
  match g[ix]? with
  | some x => x.released && x.cmds.isEmpty && (g.take ix).all fun o => o.flow != x.flow
  | none => false

/-- GATE_SEND (R42, R55, R63): an envelope goes on with its reserved bits cleared. -/
def execGateSend (stn ix dt : Nat) (s : State) : Host.Outcome State Fault Refusal :=
  let s := advance s dt
  let st := s.station stn
  match st.gate[ix]? with
  | none => .next s
  | some x =>
    let s1 := s.setStation stn { st with gate := dropAt st.gate ix }
    let s2 := if envDirty x.env then s1.count (engBlk (stn * 4) + 0x10C) else s1
    occur (s.dataPath && decide (stn < 48) && gateMay st.gate ix) s
      (s2.offer (outHatch stn) { pay := .env (envClean x.env) (if stn % 3 = 1 then [] else x.head), flow := x.flow, xpr := x.xpr })

/-- GATE_TIMEOUT (R57, R58, R247): an envelope held for longer than its limit is voided and its thread's claim is over; one released while a helper reads its frame is still
held in this sense, and one released void keeps its cause. -/
def execGateTimeout (stn ix dt : Nat) (s : State) : Host.Outcome State Fault Refusal :=
  let s := advance s dt
  let st := s.station stn
  match st.gate[ix]? with
  | none => .next s
  | some x =>
    let done := x.released && eVoid x.env
    let s0 := match x.thread with | some m => s.drainWindow m | none => s
    let s1 := s0.setStation stn { s0.station stn with gate := modAt (s0.station stn).gate ix fun x =>
      { x with env := if done then x.env else voidOver 2 stn x.env, released := true, thread := none, cmds := [] } }
    let s2 := match x.thread with | some m => s1.withThr m fun t => { t with late := true } | none => s1
    occur (s.dataPath && decide (stn < 48) && (x.thread.isSome || !x.cmds.isEmpty) && decide (x.since + x.limit < s.up)) s
      (if done then s2 else s2.count (engBlk (stn * 4) + 0x108))

/-! ### Internal pigeonholes (R326) -/

/-- The island an internal pigeonhole delivers to. -/
def intIsland (i : Nat) : Nat := if i < 16 then 81 else 73 + (i - 16) / 6

/-- INT_PH_DELIVER (R326): the head of an internal pigeonhole whose frame has ended is written into the next slot of its ring, when that is not FULL, word 0 last, and
the consumer's doorbell is rung. -/
def execIntPhDeliver (ix dt : Nat) (s : State) : Host.Outcome State Fault Refusal :=
  let s := advance s dt
  let ph := 4352 + ix
  match phOf s ph with
  | [] => .next s
  | e0 :: rest =>
    let e := withLength s e0
    let i := intIsland ix
    let pos := mapGet 0 s.depot.ringPos ix % 2 ^ s.rf (Reg.intCfg0 ix) 30 27
    let a := (s.reg (Reg.intCfg1 ix)).toNat + pos * 256
    let f := s.frame (eCell e)
    let errored := eCut e && f.ended == 2
    let data := f.bytes.take (min 192 (eLength e))
    let put (t : State) (k : Nat) : State := t.setShmWord i (a + 4 * k) ⟨tagBITS, if k = 0 then ew e 0 ||| 0x80000000 else ew e k⟩
    let s1 := { s with depot := { s.depot with ph := mapSet [] s.depot.ph ph rest } }
    let s2 := { s1 with depot := { s1.depot with ringPos := mapSet 0 s1.depot.ringPos ix ((pos + 1) % 2 ^ s.rf (Reg.intCfg0 ix) 30 27) } }
    let h := hatchNo 0x0C (i - 73)
    let s3 := if i = 81 then s2 else s2.setHatch h ((s2.hatch h).pass false { pay := .data (eCell e) data, flow := 0, xpr := false })
    let s4 := ((List.range 16).map (15 - ·)).foldl put (writeShm s3 i (a + 64) data false)
    let s5 := ringBell (dropRef s4 (eCell e) (some ph)) (s.rf (Reg.intCfg0 ix) 15 0) (s.rf (Reg.intCfg0 ix) 26 24)
    let full := bitOf (shmWord s i a).data 31
    occur (s.dataPath && decide (ix < 64) && (errored || (s.rb (Reg.intCfg0 ix) 31 && f.ended != 0 && !full && (i == 81 || dispatchRoom s (i - 73))))) s
      (if errored then freeVoid (uncharge s1 (eCell e) ph) (voidBy 0x08 72 e) else s5)

end Sys2Proof.Machine
end

