-- ==== Sys2Proof/Machine/Graphs.lean ====
section
/-! DEFINITION. Graph images and the graph commands (R283 to R290). -/

namespace Sys2Proof.Machine

/-! ### The image (R283 to R285) -/

/-- A 32-bit word of DRAM. -/
def dramWord (d : DramSt) (a : Nat) : Nat := leNat (memRead d.mem a 4)

/-- Bits [hi:lo] of word w of an image's header. -/
def hdr (d : DramSt) (a w hi lo : Nat) : Nat := bits (dramWord d (a + 4 * w)) hi lo

/-- Node n of an image. -/
def imageNode (d : DramSt) (a n : Nat) : GNode :=
  let w (k : Nat) : Nat := dramWord d (a + 64 + 16 * n + 4 * k)
  { kind := bits (w 0) 31 28, nin := bits (w 0) 27 23, nout := bits (w 0) 22 18, prio := bits (w 0) 17 15, log := (w 0).testBit 14, arg := w 1,
    limit := bits (w 2) 31 20, cost := bits (w 2) 19 0, param := w 3 }

/-- Edge k of an image. -/
def imageEdge (d : DramSt) (a k : Nat) : GEdge :=
  let p := a + hdr d a 5 31 16 * 16 + 8 * k
  let e0 := dramWord d p
  { src := bits e0 31 22, out := bits e0 21 18, dst := bits e0 17 8, inp := bits e0 7 4, depth := bits (dramWord d (p + 4)) 6 0, base := 0 }

/-- The nodes and edges of an image, and word k of the parameter block at an offset of its parameter area. -/
def imageNodes (d : DramSt) (a : Nat) : List GNode := (List.range (hdr d a 2 10 0)).map (imageNode d a)
def imageEdges (d : DramSt) (a : Nat) : List GEdge := (List.range (hdr d a 2 31 16)).map (imageEdge d a)
def imageParam (d : DramSt) (a p k : Nat) : Nat := dramWord d (a + hdr d a 5 15 0 * 16 + p + 4 * k)

/-- MAGIC, VERSION, and an IMAGE_LEN that covers the header, the tables and the parameter area. -/
def imageOk (d : DramSt) (a : Nat) : Bool :=
  let len := dramWord d (a + 16)
  dramWord d a == 0x57475231 && hdr d a 1 31 16 == 1 && decide (64 + 16 * hdr d a 2 10 0 ≤ len) &&
    decide (hdr d a 5 31 16 * 16 + 8 * hdr d a 2 31 16 ≤ len) && decide (hdr d a 5 15 0 * 16 + 32 * hdr d a 8 31 16 ≤ len)

/-- The fields of an EMIT node and its parameter block (R295, R298). -/
def emitFieldsOk (d : DramSt) (a : Nat) (x : GNode) : Bool :=
  let ph := bits x.arg 31 19
  let p (k : Nat) : Nat := imageParam d a x.param k
  let v := (p 7).testBit 31
  decide (ph < 4352) && bits x.arg 18 16 == 0 && decide (bits x.arg 15 12 ≤ 1) &&
    decide (x.param + 32 ≤ 32 * hdr d a 8 31 16) &&
    decide (60 ≤ p 0 / 65536) && decide (p 0 / 65536 ≤ 1024) && p 0 % 65536 == 0 && decide (p 4 / 65536 ≤ 48) &&
    decide (1 ≤ p 5 / 65536) && decide (p 5 / 65536 ≤ 1024) && decide (16 ≤ p 6 / 65536) && decide (p 6 / 65536 ≤ 32) && p 6 % 65536 == 0 &&
    (if ph < 4096 then p 7 == 0 else v)

/-- The fields of node n of an image (R284). -/
def nodeFieldsOk (d : DramSt) (a n : Nat) : Bool :=
  let x := imageNode d a n
  decide (x.kind ≤ 4) && decide (x.nin ≤ 16) && decide (x.nout ≤ 16) && dramWord d (a + 64 + 16 * n) % 2 ^ 14 == 0 &&
    (if x.kind = 0 then bits x.arg 17 16 == 0 && bits x.arg 15 6 == 0
     else if x.kind = 1 then bits x.arg 31 18 == 0 && bits x.arg 15 6 == 0 && decide (bits x.arg 5 0 < 48)
     else if x.kind = 2 then decide (1 ≤ bits x.arg 31 16)
     else if x.kind = 3 then
       bits x.arg 31 22 == 0 && decide (1 ≤ bits x.arg 21 11) && decide (bits x.arg 21 11 ≤ 1024) && decide (1 ≤ bits x.arg 10 0) &&
         decide (bits x.arg 10 0 ≤ bits x.arg 21 11)
     else emitFieldsOk d a x)

/-- The fields of edge k (R285). -/
def edgeFieldsOk (d : DramSt) (a k : Nat) : Bool :=
  let p := a + hdr d a 5 31 16 * 16 + 8 * k
  let n := bits (dramWord d (p + 4)) 6 0
  dramWord d p % 16 == 0 && bits (dramWord d (p + 4)) 31 7 == 0 && decide (4 ≤ n) && decide (n ≤ 64)

/-- Reserved fields are 0, every field lies in its range, TENANCY is the command's, and an unpinned graph does not name account 0 (R286, R407). -/
def imageFieldsOk (d : DramSt) (a ten : Nat) : Bool :=
  let nodes := hdr d a 2 10 0
  let edges := hdr d a 2 31 16
  hdr d a 1 15 0 == 0 && hdr d a 2 15 11 == 0 && decide (1 ≤ nodes) && decide (nodes ≤ 1024) && decide (1 ≤ edges) && decide (edges ≤ 4096) &&
    hdr d a 3 23 21 == 0 && hdr d a 3 15 0 == 0 && hdr d a 3 31 28 == ten && (hdr d a 3 24 24 == 1 || hdr d a 3 20 16 != 0) &&
    dramWord d (a + 24) % 64 == 0 && dramWord d (a + 28) % 32 == 0 && hdr d a 8 15 0 == 0 &&
    ((List.range 6).all fun k => dramWord d (a + 40 + 4 * k) == 0) &&
    ((List.range nodes).all (nodeFieldsOk d a)) && (List.range edges).all (edgeFieldsOk d a)

/-- The nodes a pass over the graph has reached, widened by those whose inputs all come from them; a graph without a cycle is reached whole. -/
def reachPass (edges : List GEdge) (n : Nat) (got : List Nat) : List Nat :=
  got ++ (List.range n).filter fun k => !got.contains k && edges.all fun e => e.dst != k || got.contains e.src

/-- Repeated passes. -/
def reachAll (edges : List GEdge) (n : Nat) : Nat → List Nat → List Nat
  | 0, got => got
  | f + 1, got => let next := reachPass edges n got; if next.length = got.length then got else reachAll edges n f next

/-- The topology (R286): every input and output on exactly one edge, edges only between inputs and outputs that exist, no cycle, ALIGN fed by TAP-IN alone, and the counts
of the table of node kinds (R274). -/
def topologyOk (nodes : List GNode) (edges : List GEdge) : Bool :=
  let node (k : Nat) : GNode := nodes.getD k default
  let n := nodes.length
  (edges.all fun e => decide (e.src < n) && decide (e.dst < n) && decide (e.out < (node e.src).nout) && decide (e.inp < (node e.dst).nin) &&
      (edges.filter fun o => o.src == e.src && o.out == e.out).length == 1 && (edges.filter fun o => o.dst == e.dst && o.inp == e.inp).length == 1 &&
      ((node e.dst).kind != 2 || (node e.src).kind == 1)) &&
    (nodes.map (·.nin)).foldl (· + ·) 0 == edges.length && (nodes.map (·.nout)).foldl (· + ·) 0 == edges.length &&
    (nodes.all fun x =>
      if x.kind = 0 then decide (1 ≤ x.nin) else if x.kind = 1 then x.nin == 0 && x.nout == 1 else if x.kind = 2 then decide (1 ≤ x.nin) && x.nout == x.nin
      else if x.kind = 3 then x.nin == 1 && x.nout == 1 else x.nin == 1 && x.nout == 0) &&
    (reachAll edges n n []).length == n

/-! ### The layout (R285, R294) -/

/-- Whether an edge is held in the token store: its consumer is an ALIGN (R275). -/
def inStore (nodes : List GNode) (e : GEdge) : Bool := (nodes.getD e.dst default).kind == 2

/-- Slots of the token store the edges take. -/
def storeSlots (nodes : List GNode) (edges : List GEdge) : Nat := ((edges.filter (inStore nodes)).map (·.depth)).foldl (· + ·) 0

/-- The bench-memory edges laid out from an address, and the address after them. -/
def layEdges (nodes : List GNode) : Nat → List GEdge → List GEdge × Nat
  | a, [] => ([], a)
  | a, e :: r =>
    if inStore nodes e then let q := layEdges nodes a r; (e :: q.1, q.2)
    else let q := layEdges nodes (a + e.depth * 64) r; ({ e with base := a } :: q.1, q.2)

/-- Slots of a WINDOW's ring: N + STEP × the depth of its output edge. -/
def ringLen (edges : List GEdge) (n : Nat) (x : GNode) : Nat :=
  bits x.arg 21 11 + bits x.arg 10 0 * ((edges.find? fun e => e.src == n).getD default).depth

/-- The rings laid out after the edges, and the address after them. -/
def layRings (edges : List GEdge) : Nat → Nat → List GNode → List GNode × Nat
  | _, a, [] => ([], a)
  | n, a, x :: r =>
    if x.kind = 3 then let q := layRings edges (n + 1) (a + ringLen edges n x * 64) r; ({ x with ring := a } :: q.1, q.2)
    else let q := layRings edges (n + 1) a r; (x :: q.1, q.2)

/-- Two areas share a byte. -/
def overlap (a n b m : Nat) : Bool := decide (0 < n) && decide (0 < m) && decide (a < b + m) && decide (b < a + n)

/-- Whether an area lies in bench shared memory (R234). -/
def inBench (a n : Nat) : Bool := decide (0x100000 ≤ a) && decide (a + n ≤ 0x500000)

/-- Whether the graph fits (R286). -/
def memoryOk (s : State) (d : DramSt) (a : Nat) (nodes : List GNode) (edges : List GEdge) : Bool :=
  let buf := dramWord d (a + 24)
  let bufLen := dramWord d (a + 36)
  let par := dramWord d (a + 28)
  let parLen := 32 * hdr d a 8 31 16
  let lay := layEdges nodes buf edges
  decide (s.rf Reg.tstore 12 0 + storeSlots nodes edges ≤ 4096) && decide ((layRings lay.1 0 lay.2 nodes).2 ≤ buf + bufLen) &&
    inBench buf bufLen && inBench par parLen &&
    s.wshop.graphs.all fun p =>
      gState s p.1 == 0 || gBench s p.1 != hdr d a 3 27 25 ||
        !(overlap buf bufLen p.2.bufBase p.2.bufLen || overlap buf bufLen p.2.paramDest p.2.paramLen || overlap par parLen p.2.bufBase p.2.bufLen ||
          overlap par parLen p.2.paramDest p.2.paramLen)

/-! ### The commands (R287 to R290) -/

/-- GO with an operation: refused while BUSY, with a reserved OP, or outside SETUP, SERVICE and REDUCED (R290). -/
def graphCmdRefused (val : Word) (s : State) : Bool :=
  bitOf val 31 && (s.rb Reg.wshopCmdStat 31 || decide (fld val 18 16 = 0) || decide (4 < fld val 18 16) || !(decide (1 ≤ s.mode) && decide (s.mode ≤ 3)))

/-- A command ends with ERR. -/
def graphDone (s : State) (err : Nat) : State := (s.setRf Reg.wshopCmdStat 31 30 1).setRf Reg.wshopCmdStat 23 16 err

/-- A write of WSHOP_GRAPH_CMD with GO and an operation. -/
def graphCmd (op m : Nat) (val : Word) (act : Nat → State → State) (s : State) : Host.Outcome State Fault Refusal :=
  occur (s.life.rails && bitOf val 31 && fld val 18 16 == op) s
    (s.command m Reg.graphCmd val (graphCmdRefused val) fun s => act (fld val 5 0) (s.setRf Reg.wshopCmdStat 30 30 0))

/-- The lines of DRAM that a LOAD reads: the header's, and with a header that names an image within the region, the whole image's. -/
def loadLines (s : State) (ten ofs : Nat) : List Nat :=
  let d := dramAfter s.dram s.dram.queue
  let a := regionBase s ten + ofs
  let len := dramWord d (a + 16)
  if regionSize s ten < ofs + 64 then []
  else (List.range ((if imageOk d a ∧ ofs + len ≤ regionSize s ten then a + max 64 len + 63 else a + 127) / 64 - a / 64)).map (a / 64 + ·)

/-- LOAD (R286, R287, R378): the reads of the image go to DRAM through the Hall's DRAM_REQ and the WSHOP port. -/
def execGraphLoad (m : Nat) (val : Word) (s : State) : Host.Outcome State Fault Refusal :=
  graphCmd 1 m val (fun g s =>
    if gState s g ≠ 0 then graphDone s 7
    else
      let ofs := (s.reg Reg.graphSrcLo).toNat + 2 ^ 32 * s.rf Reg.graphSrcHi 7 0
      let l := loadLines s (fld val 11 8) ofs
      let n := s.help.nextRef
      let s1 := ((s.setRf Reg.wshopCmdStat 31 31 1).withWshop fun w => { w with load := some ⟨g, fld val 11 8, ofs, n, l.length⟩ })
      ((List.range l.length).zip l).foldl (fun t p =>
        t.offer (hatchNo 0x0F 81) { pay := .dramReq ⟨1, 81, n + p.1, 0xFFFF, 0, false, p.2, 0, [], false⟩, flow := 0, xpr := false })
        { s1 with help := { s1.help with nextRef := n + l.length } }) s

/-- The answers to a LOAD's reads that have come to the Hall: reference, status and line. -/
def loadAnswers (s : State) (j : LoadJob) : List (Nat × Nat × List Byte) :=
  let x := s.hatch (hatchNo 0x10 81)
  (x.taken ++ x.gFifo).filterMap fun e =>
    match e.pay with
    | .dramRsp r st d => if j.ref ≤ r ∧ r < j.ref + j.refs then some (r, st, d) else none
    | _ => none

/-- Whether a read of a LOAD, or its answer, is still on its way. -/
def loadWaits (s : State) (j : LoadJob) : Bool :=
  let q := s.hatch (hatchNo 0x0F 81)
  let a := s.hatch (hatchNo 0x10 81)
  let mine (r : Nat) : Bool := decide (j.ref ≤ r) && decide (r < j.ref + j.refs)
  (q.held ++ q.gTransit ++ q.gFifo ++ q.taken ++ a.held ++ a.gTransit).any (fun e =>
    match e.pay with | .dramReq r => mine r.ref | .dramRsp r _ _ => mine r | _ => false) ||
    s.dram.queue.any fun w => w.r.src == 81 && mine w.r.ref

/-- The image as a LOAD has read it: the lines of its answers at their module addresses. -/
def readImage (s : State) (j : LoadJob) (ans : List (Nat × Nat × List Byte)) : DramSt :=
  { (default : DramSt) with mem := ans.foldl (fun m p => memWrite m (((regionBase s j.ten + j.ofs) / 64 + (p.1 - j.ref)) * 64) p.2.2) [] }

/-- A graph that has passed every check is installed: laid out, its parameter area copied, LOADED. -/
def installGraph (s : State) (d : DramSt) (a g : Nat) : State :=
  let nodes := imageNodes d a
  let edges := imageEdges d a
  let buf := dramWord d (a + 24)
  let par := dramWord d (a + 28)
  let parLen := 32 * hdr d a 8 31 16
  let lay := layEdges nodes buf edges
  let rings := layRings lay.1 0 lay.2 nodes
  let s1 := s.setGraph g { nodes := rings.1, edges := lay.1, account := hdr d a 3 20 16, bufBase := buf, bufLen := dramWord d (a + 36), paramDest := par, paramLen := parLen }
  let s2 := s1.setReg (Reg.graphStat g) (BitVec.ofNat 32 (2 ^ 29 + hdr d a 3 31 28 * 2 ^ 25 + hdr d a 3 27 25 * 2 ^ 22 + hdr d a 3 24 24 * 2 ^ 21 + nodes.length))
  let s3 := s2.setRf Reg.tstore 12 0 (s.rf Reg.tstore 12 0 + storeSlots nodes edges)
  writeShm s3 (gIsland s3 g) par (memRead d.mem (a + hdr d a 5 15 0 * 16) parLen) false

/-- The first check that a LOAD fails (R286, R383, R392): an image beyond the tenancy's region, or a read that ends in POISON or an error, is DRAM_ERR. -/
def loadError (s : State) (d : DramSt) (g ten ofs : Nat) (bad : Bool) : Nat :=
  let a := regionBase s ten + ofs
  let len := dramWord d (a + 16)
  if bad || decide (regionSize s ten < ofs + 64) then 8
  else if !imageOk d a then 1
  else if regionSize s ten < ofs + len then 8
  else if !imageFieldsOk d a ten then 2
  else if !topologyOk (imageNodes d a) (imageEdges d a) then 3
  else if !memoryOk s d a (imageNodes d a) (imageEdges d a) then 4
  else if gState s g ≠ 0 then 7 else 0

/-- LOAD_COMPLETE (R286, R290, R383, R392): every read of the image has been answered, and the image is checked. -/
def execLoadComplete (dt : Nat) (s : State) : Host.Outcome State Fault Refusal :=
  let s := advance s dt
  match s.wshop.load with
  | none => .next s
  | some j =>
    let ans := loadAnswers s j
    let d := readImage s j ans
    let err := loadError s d j.graph j.ten j.ofs (decide (ans.length < j.refs) || ans.any fun p => p.2.1 != 0)
    let k := hatchNo 0x10 81
    let s1 := s.setHatch k (dropAnswers (s.hatch k) fun r => (decide (j.ref ≤ r) && decide (r < j.ref + j.refs)) || !awaited s 24 r)
    let s2 := graphDone (s1.withWshop fun w => { w with load := none }) err
    occur (s.life.rails && !loadWaits s j) s (if err = 0 then installGraph s2 d (regionBase s j.ten + j.ofs) j.graph else s2)

/-- A placement of a pinned graph that is not an enabled T-thread of the bench, of the graph's tenancy, with POOL = 0 (R288). -/
def noThread (s : State) (g : Nat) : Bool :=
  gPinned s g && (List.range (s.graph g).nodes.length).any fun n =>
    (gNode s g n).kind == 0 && (let m := placement s g n; !(thrEn s m && thrIsT s m && !thrPool s m && thrTenancy s m == gTen s g))

/-- The stations whose TAP hatches feed a graph, through any TAP-IN or through one with DROP = 0. -/
def tapStations (s : State) (g : Nat) (holding : Bool) : List Nat :=
  ((s.graph g).nodes.filter fun x => x.kind == 1 && !(holding && x.arg.testBit 17)).map fun x => x.arg % 64

/-- After a start of graph g, one station's TAP hatch would feed a started pinned graph and a TAP-IN with DROP = 0 of an unpinned graph (R288). -/
def tapConflict (s : State) (g : Nat) : Bool :=
  let on := (s.wshop.graphs.map (·.1)).filter fun k => k == g || gState s k == 2 || gState s k == 4
  (on.filter (gPinned s)).any fun p => (tapStations s p false).any fun st => on.any fun u => !gPinned s u && (tapStations s u true).contains st

/-- Every edge empty and every node as it is before its first dispatch. -/
def clearGraph (s : State) (g : Nat) : State :=
  s.setGraph g { s.graph g with
    edges := (s.graph g).edges.map fun e => { e with head := 0, count := 0, toks := [] }
    nodes := (s.graph g).nodes.map fun x =>
      { x with run := none, count := 0, last := none, sets := [], slot := 0, have_ := 0, since := 0, noAcct := false, deferred := false } }

/-- START (R288): a LOADED graph becomes RUNNING, unless a placement or a TAP hatch forbids it. -/
def execGraphStart (m : Nat) (val : Word) (s : State) : Host.Outcome State Fault Refusal :=
  graphCmd 2 m val (fun g s =>
    if gState s g ≠ 1 then graphDone s 7
    else if noThread s g then graphDone s 5
    else if tapConflict s g then graphDone s 6
    else testGraph false (graphDone (((clearGraph s g).setGState g 2).setRf (Reg.graphStat g) 20 11 0) 0) g) s

/-- A graph is STOPPING (R289): tokens of TAP-IN and ALIGN are discarded, and no node of it is ready. -/
def stopGraph (s : State) (g : Nat) : State :=
  unready ((s.setGraph g { s.graph g with
    edges := (s.graph g).edges.map fun e => { e with toks := [] }
    nodes := (s.graph g).nodes.map fun x => { x with sets := [], noAcct := false } }).setGState g 3) g

/-- STOP (R287, R289). -/
def execGraphStop (m : Nat) (val : Word) (s : State) : Host.Outcome State Fault Refusal :=
  graphCmd 3 m val (fun g s => if gState s g = 2 ∨ gState s g = 4 then graphDone (stopGraph s g) 0 else graphDone s 7) s

/-- STOPPING_END (R289): no node of a STOPPING graph runs, and it is LOADED again. -/
def execStoppingEnd (g dt : Nat) (s : State) : Host.Outcome State Fault Refusal :=
  let s := advance s dt
  occur (s.life.rails && gState s g == 3 && (s.graph g).nodes.all fun x => x.run.isNone) s ((clearGraph s g).setGState g 1)

/-- A LOADED graph's slot is EMPTY again and its memory is free (R287). -/
def unloadGraph (s : State) (g : Nat) : State :=
  let x := s.graph g
  let s1 := s.setRf Reg.tstore 12 0 (s.rf Reg.tstore 12 0 - storeSlots x.nodes x.edges)
  (s1.setReg (Reg.graphStat g) 0).withWshop fun w => { w with graphs := mapErase w.graphs g }

/-- UNLOAD (R287). -/
def execGraphUnload (m : Nat) (val : Word) (s : State) : Host.Outcome State Fault Refusal :=
  graphCmd 4 m val (fun g s => if gState s g = 1 then graphDone (unloadGraph s g) 0 else graphDone s 7) s

end Sys2Proof.Machine
end

