-- ==== Sys2Proof/Machine/Tenancy.lean ====
section
/-! DEFINITION. Tenancies (R480 to R483), key slots (R484 to R487) and the one-time-programmable fuses (R490). -/

namespace Sys2Proof.Machine

/-! ### Tenancy reset (R480 to R482) -/

/-- The threads of a tenancy that are enabled. -/
def tenThreads (s : State) (t : Nat) : List Nat := (List.range (engineCount * 16)).filter fun m => thrEn s m && thrTenancy s m == t

/-- An envelope of a tenancy being reset, on its way to the Depot: the Depot will void it at admission step 1. -/
def voidTen (t : Nat) (e : Env) : Env := if eTenancy e = t then voidBy 0x03 72 e else e

/-- An entry of a hatch, with an envelope of a tenancy being reset voided. -/
def voidEntry (t : Nat) (x : HEntry) : HEntry :=
  match x.pay with
  | .env e head => { x with pay := .env (voidTen t e) head }
  | _ => x

/-- Every envelope of a tenancy in a hatch voided. -/
def voidHatch (t : Nat) (x : Hatch) : Hatch :=
  { x with held := x.held.map (voidEntry t), taken := x.taken.map (voidEntry t), gTransit := x.gTransit.map (voidEntry t), xTransit := x.xTransit.map (voidEntry t),
           gFifo := x.gFifo.map (voidEntry t), xFifo := x.xFifo.map (voidEntry t) }

/-- Whether an envelope in a station is already void: it arrived so, or was released so. A VOID that firmware has stored into one not yet released is none (R58). -/
def gateVoid (x : GateItem) : Bool := x.wasVoid || (x.released && eVoid x.env)

/-- Whether a tenancy's reset voids an envelope in a station (R58). -/
def resetVoids (t : Nat) (x : GateItem) : Bool := eTenancy x.env == t && !gateVoid x

/-- The envelopes of a tenancy at a station's gate voided: whatever held one, its claim is over (R58). -/
def voidGate (t stn : Nat) (x : GateItem) : GateItem :=
  if resetVoids t x then { x with env := voidOver 3 stn x.env, released := true, thread := none, cmds := [] } else x

/-- Every envelope of a tenancy outside the Depot's queues voided: in the stores of the slice fronts, in hatches and in stations, whose gates count theirs (R58, R69). A thread that
held one has nothing left to release: a later REL of it counts in STN_LATE_REL_CNT, as R57 has it after a timeout; the specification does not say so of a reset (DESIGN CHOICE, log
entry 67). -/
def voidTransit (s : State) (t : Nat) : State :=
  let late := s.stations.flatMap fun p => p.2.gate.filterMap fun x => if resetVoids t x then x.thread else none
  let s1 := { s with
    hatches := s.hatches.map fun p => (p.1, voidHatch t p.2)
    slices := s.slices.map fun p => (p.1, { p.2 with store := p.2.store.map fun it => { it with env := it.env.map (voidTen t) } })
    stations := s.stations.map fun p => (p.1, { p.2 with gate := p.2.gate.map (voidGate t p.1) }) }
  let s2 := s.stations.foldl (fun u p => let n := (p.2.gate.filter (resetVoids t)).length; if n = 0 then u else u.count (engBlk (p.1 * 4) + 0x108) n) s1
  late.foldl (fun u m => u.withThr m fun x => { x with late := true }) s2

/-- The virtual output queues without entries of a tenancy, or of the pigeonholes of its ports; their holds and charges go. -/
def clearVoqs (s : State) (t : Nat) : State :=
  let gone (e : Env) : Bool := eTenancy e == t || (eMc e == false && decide (ePh e < 4096) && portTenancy s (ePh e / 8) false == t)
  let lost := s.depot.voq.flatMap fun p => (p.2.map (·.env)).filter gone
  let s1 := { s with depot := { s.depot with voq := (s.depot.voq.map fun p => (p.1, p.2.filter fun x => !gone x.env)).filter fun p => p.2 != [] } }
  lost.foldl (fun u e => dropRef u (eCell e) (if eMc e then none else some (ePh e))) s1

/-- A class of a port that has become empty has no deficit (R340). -/
def emptied (s : State) (h : Nat) : State :=
  if h < 4096 ∧ h % 8 ≠ 7 ∧ (phOf s h).isEmpty = true then s.setPort (h / 8) (setDeficit (s.port (h / 8)) (h % 8) 0) else s

/-- The pigeonholes without envelopes of a tenancy, and those of its ports empty. -/
def clearPhs (s : State) (t : Nat) : State :=
  let gone (h : Nat) (e : Env) : Bool := eTenancy e == t || (decide (h < 4096) && portTenancy s (h / 8) false == t)
  let lost : List (Nat × Env) := s.depot.ph.flatMap fun p => (p.2.filter (gone p.1)).map fun e => (p.1, e)
  let left : NMap (List Env) := s.depot.ph.map fun p => (p.1, p.2.filter fun e => !gone p.1 e)
  let s1 : State := { s with depot := { s.depot with ph := left.filter fun p => p.2 != [] } }
  let strip (x : CourGroup) : CourGroup := { x with moves := x.moves.map fun m => { m with held := m.held.filter fun e => eTenancy e != t } }
  let s2 : State := { s1 with cour := { s1.cour with groups := s1.cour.groups.map fun p => (p.1, strip p.2) } }
  let held : List Env := s.cour.groups.flatMap fun p => p.2.moves.flatMap fun m => m.held.filter fun e => eTenancy e == t
  held.foldl (fun u e => dropRef u (eCell e) none) (lost.foldl (fun u x => emptied (dropRef u (eCell x.2) (some x.1)) x.1) s2)

/-- A region of DRAM as it is before any line of it is written: every line reads 0, and nothing already issued lands in it later (R384). -/
def clearRegion (s : State) (t : Nat) : State :=
  let b := regionBase s t
  let n := regionSize s t
  let inside (l : Nat) : Bool := decide (b ≤ l * 64) && decide (l * 64 < b + n)
  s.withDram fun d => { d with mem := mapClear d.mem b n, poison := d.poison.filter fun l => !inside l, queue := d.queue.filter fun w => !(w.r.wr && inside w.r.line) }

/-- The stores its engines' threads had issued have reached memory before it is cleared (R161, R480). -/
def drainEngines (s : State) (threads : List Nat) : State := ((threads.map (· / 16)).eraseDups).foldl (fun u e => u.drainIf e fun _ => true) s

/-- The shared memory pages a tenancy owns read INT 0, and so does the local data of its engines. -/
def clearPages (s : State) (t : Nat) (threads : List Nat) : State :=
  let s1 := { s with shared := (s.shared.map fun p =>
    (p.1, { p.2 with words := p.2.words.filter fun w => !(p.1 != 81 && pageOwner s ((islandEngines p.1).headD 0) (0x100000 + w.1 * 4) == t) })).filter fun p => decide (p.2 ≠ default) }
  ((threads.map (· / 16)).eraseDups).foldl (fun u e => u.withEng e fun x => { x with local_ := [], localBad := [] }) s1

/-- A graph of a tenancy being reset is stopped and unloaded; a thread that runs one of its nodes has nothing left to release. -/
def endGraph (s : State) (g : Nat) : State :=
  let on := s.engines.flatMap fun p => (p.2.threads.filter fun q => match q.2.disp with | some d => d.d.graph == g | none => false).map fun q => p.1 * 16 + q.1
  let s1 := on.foldl (fun t m => (t.dropDispatch m).withThr m fun x => { x with late := true }) s
  unloadGraph (stopGraph s1 g) g

/-- Graphs, PTP instance and threads of a tenancy come to their end (steps 2, 3 and 6). -/
def endTenancy (s : State) (t : Nat) (threads : List Nat) : State :=
  let s1 := (((List.range 64).filter fun g => gState s g != 0 && gTen s g == t).foldl endGraph s).setRf (Reg.ptpCfg t) 31 31 0
  threads.foldl (fun u m => if engFailed u (m / 16) then u else resetThr ((u.dropDispatch m).withThr m fun x => { x with halt := false, todo := [] }) m) s1

/-- The sequence of a tenancy reset from its write to DONE, 200 µs later, as one effect. -/
def resetTenancy (t : Nat) (s : State) : State :=
  let threads := tenThreads s t
  let s1 := s.setRf (Reg.tenStatus t) 31 30 1
  let s2 := endTenancy (voidTransit (drainEngines s1 threads) t) t threads
  let s3 := clearPages (clearRegion (clearPhs (clearVoqs s2 t) t) t) t threads
  let s4 := setHold (putBal s3 (t + 1) 0) (t + 1) 0
  advance ((s4.setRf (Reg.tenStatus t) 31 30 2).setRf (Reg.tenStatus t) 29 29 1) (200000 * nsUnit)

/-- A RESET of tenancy 0 or of one that is RESETTING, a RELEASE of one that is not HELD, and both in one write are refused (R480, R481). -/
def tenCtlRefused (val : Word) (s : State) : Bool :=
  let t := fld val 3 0
  let st := s.rf (Reg.tenStatus t) 31 30
  (bitOf val 31 && (t == 0 || st == 1)) || (bitOf val 30 && st != 2) || (bitOf val 31 && bitOf val 30)

/-- TEN_RESET (R480, R482). -/
def execTenReset (m : Nat) (val : Word) (s : State) : Host.Outcome State Fault Refusal :=
  occur (s.life.rails && bitOf val 31) s (s.command m Reg.tenCtl val (tenCtlRefused val) (resetTenancy (fld val 3 0)))

/-- TEN_RELEASE (R481). -/
def execTenRelease (m : Nat) (val : Word) (s : State) : Host.Outcome State Fault Refusal :=
  occur (s.life.rails && bitOf val 30 && !bitOf val 31) s
    (s.command m Reg.tenCtl val (tenCtlRefused val) fun s => s.setRf (Reg.tenStatus (fld val 3 0)) 31 30 0)

/-! ### Key slots (R484 to R487) -/

/-- The key in a slot, if any. -/
def keyIn (s : State) (i : Nat) : Option KSlot := (s.keySlots.find? fun p => p.1 == i).map (·.2)

/-- Whether a function may write a slot for a tenancy: function 0 any, the others a slot that is empty or theirs, for themselves (R487). -/
def mayFill (s : State) (f i ten : Nat) : Bool :=
  f == 0 || (ten == f && match keyIn s i with | some k => k.tenancy == f | none => true)

/-- Whether a function may erase a slot: function 0 any, the others one that holds a key of theirs. -/
def mayErase (s : State) (f i : Nat) : Bool := f == 0 || match keyIn s i with | some k => k.tenancy == f | none => false

/-- Writes of TEN_KSLOT_CFG that are refused (R485, R487): both actions at once, TYPE 0 or an HMAC key of the wrong length with WR, and a slot that is not the function's. -/
def kslotRefused (m : Nat) (val : Word) (s : State) : Bool :=
  let f := funcOf m
  (bitOf val 31 && bitOf val 30) ||
    (bitOf val 31 && (fld val 23 22 == 0 || (fld val 23 22 == 3 && (decide (fld val 18 12 < 16) || decide (64 < fld val 18 12))) || !mayFill s f (fld val 11 0) (fld val 27 24))) ||
    (bitOf val 30 && !mayErase s f (fld val 11 0))

/-- A slot written from DATA0 to DATA15, which are then cleared. -/
def fillSlot (val : Word) (s : State) : State :=
  let typ := fld val 23 22
  let n := if typ = 1 then 16 else if typ = 2 then 32 else fld val 18 12
  let bytes := (List.range 16).flatMap fun w => leBytes 4 (s.reg (Reg.kslotData w)).toNat
  let k : KSlot := { typ := typ, tenancy := fld val 27 24, persist := bitOf val 29, len := fld val 18 12, data := bytes.take n }
  (List.range 16).foldl (fun t w => t.setReg (Reg.kslotData w) 0) { s with keySlots := mapInsert (mapErase s.keySlots (fld val 11 0)) (fld val 11 0) k }

/-- KSLOT_WR (R484, R485, R487). -/
def execKslotWr (m : Nat) (val : Word) (s : State) : Host.Outcome State Fault Refusal :=
  occur (s.life.rails && bitOf val 31) s (s.command m Reg.kslotCfg val (kslotRefused m val) (fillSlot val))

/-- KSLOT_ERASE (R485, R487): the slot is empty. -/
def execKslotErase (m : Nat) (val : Word) (s : State) : Host.Outcome State Fault Refusal :=
  occur (s.life.rails && bitOf val 30 && !bitOf val 31) s
    (s.command m Reg.kslotCfg val (kslotRefused m val) fun s => { s with keySlots := mapErase s.keySlots (fld val 11 0) })

/-- The slots saved to the Cellar: those with PERSIST set (R486). -/
def State.persistKeys (s : State) : List (Nat × KSlot) := s.keySlots.filter fun p => p.2.persist

/-- The device key, of 32 bytes. -/
def deviceKey : List Byte := beBytes 32 (Config.deviceKey % 2 ^ 256)

/-- The record of a key slot (R486): header, IV, wrapped key and tag, of which header and IV are authenticated only; the header word has its first byte least significant (log
entry 78). -/
def keyRecord (iv i : Nat) (k : KSlot) : List Byte :=
  let head := leBytes 4 (2 ^ 31 + b2n k.persist * 2 ^ 30 + k.tenancy * 2 ^ 24 + k.typ * 2 ^ 22 + k.len * 2 ^ 12 + i) ++ beBytes 12 iv
  let r := gcmEnc deviceKey (beBytes 12 iv) head (k.data ++ List.replicate (64 - k.data.length) 0)
  head ++ r.1 ++ r.2 ++ List.replicate 32 0

/-- The key a record holds for its slot, if it authenticates. -/
def keyOfRecord (b : List Byte) : Option KSlot :=
  let w := leNat (b.take 4)
  let r := gcmDec deviceKey (slice b 4 12) (b.take 16) (slice b 16 64)
  let typ := bits w 23 22
  let len := bits w 18 12
  if r.2 = slice b 80 16 then
    some { typ := typ, tenancy := bits w 27 24, persist := true, len := len, data := r.1.take (if typ = 1 then 16 else if typ = 2 then 32 else len) }
  else none

/-- The records an image holds, by slot: a slot without PERSIST, or empty, has one of zeros, which is not listed; each written record has the next IV. -/
def keyRecords (s : State) : List (Nat × List Byte) :=
  (s.persistKeys.zip (List.range s.persistKeys.length)).map fun p => (p.1.1, keyRecord (s.cellar.recIv + 1 + p.2) p.1.1 p.1.2)

/-- The IVs they took are used up. -/
def ivsUsed (s : State) : State := { s with cellar := { s.cellar with recIv := s.cellar.recIv + s.persistKeys.length } }

/-- What TEN_KSLOT_INFO shows of the slot TEN_KSLOT_CFG names. -/
def kslotInfo (s : State) : Word :=
  match keyIn s (s.rf Reg.kslotCfg 11 0) with
  | some k => BitVec.ofNat 32 (2 ^ 31 + b2n k.persist * 2 ^ 30 + k.tenancy * 2 ^ 24 + k.typ * 2 ^ 22 + k.len * 2 ^ 12)
  | none => 0

/-! ### Fuses (R490) -/

/-- Whether a key hash slot is blank: slot 0 is shipped with a hash. -/
def hashBlank (s : State) (i : Nat) : Bool := i != 0 && mapGet 0 s.otp.hashes i == 0

/-- The key hash slots that are neither blank nor revoked. -/
def hashesLive (s : State) : List Nat := (List.range 4).filter fun i => !hashBlank s i && !s.otp.revoked.contains i

/-- Writes of HALL_BOOT_CTL that are refused: outside SETUP, from any master but function 0, a running SVN not above that of OTP, and a revocation of the slot that verified the image or of the last live one. -/
def bootCtlRefused (m : Nat) (val : Word) (s : State) : Bool :=
  let slot := fld val 1 0
  s.mode != 1 || m != 0x0F00 ||
    (bitOf val 31 && decide (s.rf Reg.bootStat 13 8 ≤ s.otp.svn)) ||
    (bitOf val 30 && (slot == s.rf Reg.bootStat 1 0 || hashesLive s == [slot]))

/-- What HALL_BOOT_CTL does: fuses blown up to the running SVN, and a slot revoked. -/
def bootCtlAct (val : Word) (s : State) : State :=
  let s1 := if bitOf val 31 then
      ({ s with otp := { s.otp with svn := s.rf Reg.bootStat 13 8 } }).setRf Reg.bootStat 19 14 (s.rf Reg.bootStat 13 8)
    else s
  if bitOf val 30 then { s1 with otp := { s1.otp with revoked := if s1.otp.revoked.contains (fld val 1 0) then s1.otp.revoked else s1.otp.revoked ++ [fld val 1 0] } } else s1

/-- COMMIT_SVN (R490); a write that sets REVOKE too does both or neither. -/
def execCommitSvn (m : Nat) (val : Word) (s : State) : Host.Outcome State Fault Refusal :=
  occur (s.life.rails && bitOf val 31) s (s.command m Reg.bootCtl val (bootCtlRefused m val) (bootCtlAct val))

/-- REVOKE (R490). -/
def execRevoke (m : Nat) (val : Word) (s : State) : Host.Outcome State Fault Refusal :=
  occur (s.life.rails && bitOf val 30 && !bitOf val 31) s (s.command m Reg.bootCtl val (bootCtlRefused m val) (bootCtlAct val))

end Sys2Proof.Machine
end

