-- ==== Sys2Proof/Machine/Live.lean ====
section
/-! DEFINITION. What a read of a register finds (R543): the registers behind select registers, the fields that show the state of a unit as it stands, and the words that are
Hall shared memory. -/

namespace Sys2Proof.Machine

/-- The register a BAR0 offset reaches: behind a select register, the one selected. -/
def regKey (s : State) (ofs : Nat) : Nat :=
  if 0x180104 ≤ ofs ∧ ofs ≤ 0x180124 then 0x400000 + s.rf Reg.depotPhSel 12 0 * 0x40 + (ofs - 0x180104)
  else if 0x180204 ≤ ofs ∧ ofs ≤ 0x180218 then 0x480000 + s.rf Reg.depotPortSel 8 0 * 0x20 + (ofs - 0x180200)
  else if ofs = 0x30044 ∨ ofs = 0x30048 then 0x4A0000 + s.rf Reg.ledgIslSel 6 0 * 8 + (ofs - 0x30044)
  else ofs

/-- The place in Hall shared memory of a word of a mailbox page (R538). -/
def mbxAddr (ofs : Nat) : Nat := 0x1F0000 + (ofs - 0x1000)

/-- Whether an offset is a word of a mailbox page that is Hall shared memory: HDR, RHDR, REQ and RSP. -/
def mbxShared (ofs : Nat) : Bool :=
  decide (0x1000 ≤ ofs) && decide (ofs < 0x3000) && (let r := ofs % 0x200; r == 0 || r == 0xC || (decide (0x40 ≤ r) && decide (r < 0x140)))

/-- The registers of a slice that show a unit as it stands. -/
def shownSlice (s : State) (k : Nat) : Word :=
  let sl := (k - 0x100000) / 0x8000
  let r := k % 0x8000
  let n (v : Nat) : Word := BitVec.ofNat 32 v
  if r = 0x2204 then n (ageNow s)
  else if r = 0x2308 then n (lpmUse s.dirs.lpmS).1
  else if r = 0x230C then n (lpmUse s.dirs.lpmS).2
  else if 0x4000 ≤ r ∧ r < 0x7000 ∧ r % 0x1000 = 0x104 then putFld (s.reg k) 6 0 (gateInflight s (sl * 3 + (r - 0x4000) / 0x1000))
  else s.reg k

/-- Whether an offset is a snapshot copy of the statistics of a port that names no MAC (R568). -/
def deadStat (s : State) (k : Nat) : Bool :=
  decide (0x80000 ≤ k) && decide (k < 0x100000) && (let r := k % 0x1000; decide (0x800 ≤ r) && decide (r < 0xC00) &&
    !portExists s ((k - 0x80000) / 0x1000 * 4 + (r - 0x800) / 0x100))

/-- The 32-bit word a byte list holds at a place, the first byte in [7:0]. -/
def leWord (b : List Byte) (w : Nat) : Word := BitVec.ofNat 32 (leNat (slice b (4 * w) 4))

/-- The thread whose status register an offset is (R182). -/
def thrOfStat (k : Nat) : Option Nat :=
  let r := k % 0x1000
  let n := (r - 0x400) / 16
  if r < 0x400 ∨ 0x800 ≤ r ∨ r % 16 ≠ 8 then none
  else if 0x8000 ≤ k ∧ k < 0x9000 then some (224 * 16 + n)
  else if 0x100000 ≤ k ∧ k < 0x180000 ∧ 4 ≤ k % 0x8000 / 0x1000 ∧ k % 0x8000 / 0x1000 < 7 then
    some (((k - 0x100000) / 0x8000 * 12 + (k % 0x8000 / 0x1000 - 4) * 4) * 16 + n)
  else if 0x1A8000 ≤ k ∧ k < 0x1B0000 then some ((192 + (k - 0x1A8000) / 0x1000 * 4) * 16 + n)
  else none

/-- What a register shows: the stored word, or the state of its unit as it stands. -/
def shown (s : State) (k : Nat) : Word :=
  let n (v : Nat) : Word := BitVec.ofNat 32 v
  if mbxShared k then (shmWord s 81 (mbxAddr k)).data
  else if k = Reg.alqStat then n (s.evt.queue.length * 2 ^ 16 + (s.evt.slots.filter fun x => x.island != 0xFF || x.code != 0x0906).length)
  else if k = Reg.attnCfg then putFld (s.reg k) 29 29 (b2n (attnDriven s))
  else if k = Reg.wdreqStat then putFld (putFld (s.reg k) 31 31 (b2n s.life.wdreqHigh)) 29 29 (b2n s.life.wdreqArmed)
  else if k = Reg.timeStatus then putFld (s.reg k) 23 12 (holdSeconds s)
  else if k = Reg.kslotInfo then kslotInfo s
  else if 0x100000 ≤ k ∧ k < 0x180000 then shownSlice s k
  else if k = Reg.depotPoolStat then n (sharedFree s)
  else if k = Reg.depotXpoolStat then n (expressFree s)
  else if 0x400000 ≤ k ∧ k < 0x480000 ∧ k % 0x40 = 0x10 then n (phUse s ((k - 0x400000) / 0x40))
  else if 0x400000 ≤ k ∧ k < 0x480000 ∧ k % 0x40 = 0x14 then n (mapGet 0 s.depot.phAvg ((k - 0x400000) / 0x40) / 2 ^ 32)
  else if 0x1C0100 ≤ k ∧ k < 0x1C0180 ∧ k % 16 = 0 then putFld (s.reg k) 17 16 (portLevel s ((k - 0x1C0100) / 16))
  else if 0x1C0200 ≤ k ∧ k < 0x1C0240 ∧ k % 16 = 4 then
    (if migrating s ((k - 0x1C0200) / 16) then putFld (s.reg k) 27 0 (migPtr s ((k - 0x1C0200) / 16)) else s.reg k)
  else if 0x1D0600 ≤ k ∧ k < 0x1D0620 then leWord (s.link (s.rf Reg.peerSealSel 4 0)).peerSeal ((k - 0x1D0600) / 4)
  else if deadStat s k then 0
  else match thrOfStat k with
    | some m => putFld (s.reg k) 31 29 (thrState s m)
    | none => s.reg k

end Sys2Proof.Machine
end

