-- ==== Sys2Proof/Machine/Snapshot.lean ====
section
/-! DEFINITION. The final snapshot (R526): the contents of the table, its words in order from each item's offset, each with its first byte the least significant. -/

namespace Sys2Proof.Machine

/-- The words of the snapshot: offset and value. -/
def snapshotWords (s : State) : List (Nat × Word) :=
  let put (ofs : Nat) (l : List Word) : List (Nat × Word) := l.mapIdx fun i w => (ofs + 4 * i, w)
  let n (v : Nat) : Word := BitVec.ofNat 32 v
  put 0 [s.reg Reg.lifeMode, s.reg Reg.lifeHealth, s.reg Reg.lifeMargin0, s.reg Reg.lifeMargin1, s.reg Reg.lifeHucE] ++
  put 0x40 [n (pmNow s % 2 ^ 32), n (pmNow s / 2 ^ 32), n (fracOf s.now), shown s Reg.timeStatus, s.reg Reg.timeSrcCfg] ++
  put 0x80 [s.reg Reg.epochStatus, s.reg Reg.courSealStat, s.reg Reg.sealTagLo, s.reg Reg.sealTagHi, s.reg Reg.courId] ++
  put 0x100 ((List.range 32).flatMap fun a => [s.reg (Reg.acctBalLo a), s.reg (Reg.acctBalHi a)]) ++
  put 0x200 [s.reg Reg.ledgTherm, s.reg Reg.ledgHeadLo, s.reg Reg.ledgHeadHi] ++
  put 0x300 ((List.range 16).map (fun t => s.reg (Reg.tenStatus t)) ++ (List.range 4).map fun c => s.reg (Reg.chStat c)) ++
  put 0x400 (s.evt.recent.flatMap alarmWords)

/-- The 64 KiB of the snapshot; bytes not listed are 0. -/
def snapshotOf (s : State) : List Host.Cell := (snapshotWords s).foldl (fun m p => memWrite m p.1 (leBytes 4 p.2.toNat)) []

end Sys2Proof.Machine
end

