-- ==== Sys2Proof/Machine/Life.lean ====
section
/-! DEFINITION. The commands of the life cycle (chapter 15): power, removal, sag, HOLDUP and its save, withdrawal,
checkpoints, the hold-up test and the causes of reduced service. -/

namespace Sys2Proof.Machine

/-- A millisecond, in units of 2⁻¹⁶ ns. -/
def msUnit : Nat := 1000000 * nsUnit

/-- The time an image of 4,792,320 bytes takes at 320 MB/s: 14.976 ms (R522). -/
def imageTime : Nat := 14976000 * nsUnit

/-- The slot the next image goes to: the one after the newest valid image, modulo 15 (R524). -/
def nextSlot (c : CellarSt) : Nat := match c.newest with | some n => (n + 1) % 15 | none => 0

/-- An image of the state as it stands (R522, R526). -/
def captureImage (s : State) (kind : Nat) : Image :=
  { kind := kind, seq := s.cellar.seq + 1, pm := pmNow s, mode := (s.reg Reg.lifeMode).toNat, health := (s.reg Reg.lifeHealth).toNat,
    timeStatus := (s.reg Reg.timeStatus).toNat, epochs := s.epoch.sealEpoch * 256 + s.rf Reg.epochStatus 7 0,
    hucStat := (s.reg Reg.lifeHucStat).toNat, vin := s.life.vin, snapshot := snapshotOf s, records := keyRecords s,
    strong := s.cellar.strong, valid := true }

/-- A checkpoint whose writing has ended becomes the newest valid image (R522 to R524). -/
def State.settleCkpt (s : State) : State :=
  match s.cellar.ckpt with
  | some (slot, t0, im) =>
    if t0 + imageTime ≤ s.up then
      { (s.setRf Reg.cellStat 27 27 0) with
        cellar := { s.cellar with images := (s.cellar.images.filter (fun p => p.1 != slot)) ++ [(slot, im)], newest := some slot,
                                  ckpt := none, unread := some slot } }
    else s
  | none => s

/-- The checkpoint in progress is abandoned without a commit; its slot holds no valid image, and its SEQ is free (R503,
R522). -/
def State.dropCkpt (s : State) : State :=
  match s.cellar.ckpt with
  | some (slot, _, im) =>
    { (s.setRf Reg.cellStat 27 27 0) with
      cellar := { s.cellar with images := s.cellar.images.filter (fun p => p.1 != slot), seq := im.seq - 1, ckpt := none } }
  | none => s

/-- The valid image with the highest SEQ among those whose block CRCs match (R527). -/
def newestImage (c : CellarSt) (badSlots : List Nat) : Option (Nat × Image) :=
  (c.images.filter fun p => p.2.valid && !badSlots.contains p.1).foldl
    (fun best p => match best with | some b => if b.2.seq < p.2.seq then some p else some b | none => some p) none

/-- One block of the Cellar that read back wrong is remapped to a free spare block (R524, R529). -/
def remapBlock (s : State) (slot b : Nat) : State :=
  let used := s.cellar.remapped.length
  if 112 ≤ used then s.causeUp 4
  else
    let s1 := ({ s with cellar := { s.cellar with remapped := s.cellar.remapped ++ [(slot, b)] } }).count Reg.cellRemapCnt
    let s2 := (s1.setRf Reg.cellStat 7 0 (used + 1)).setRf Reg.lifeMargin1 15 8 (112 - (used + 1))
    if s2.rf Reg.ckptCfg 7 0 ≤ used + 1 then s2.causeUp 4 else s2

/-- What ENTRY's read of the Cellar says of bad blocks: entry x is block x / 16 of slot x % 16 (log entry 23). A save is read back here: the blocks of it that read wrong are
remapped (R524). Slots are read from the highest SEQ down to the image that is taken. -/
def readSaves (c : CellarSt) (badSlots : List Nat) (s : State) : State :=
  let low := match newestImage c (badSlots.map (· % 16)) with | some p => p.2.seq | none => 0
  let hit (x : Nat) : Bool := decide (x / 16 < 128) && c.images.any fun p => p.1 == x % 16 && p.2.kind != 1 && decide (low < p.2.seq)
  (badSlots.filter hit).foldl (fun t x => remapBlock t (x % 16) (x / 16)) s

/-- The state at the start of ENTRY (R570, R505, R527, R528): every register and memory afresh, what is kept without power or
by the Save island kept, and the Cellar's newest valid image restored. -/
def enterEntry (s : State) (start : Nat) (badSlots badKeys : List Nat) : State :=
  let c := s.cellar
  let found := newestImage c (badSlots.map (· % 16))
  let base : State :=
    { State.reset with
      pending := s.pending, up := s.up, draws := s.draws, resp := s.resp, respEp := s.respEp, otp := s.otp, flash := s.flash
      life := { State.reset.life with vin := s.life.vin, entryAt := s.up, chargeAt := s.up, testAt := s.up,
                                      wdreqHigh := s.life.wdreqHigh, wdreqSince := s.life.wdreqSince, wdreqArmed := false }
      cellar := { c with ckpt := none, unread := none, ckptSec := 0, strong := [], prevSnap := [], newest := found.map (·.1),
                         seq := (c.images.map fun p => p.2.seq).foldl max 0 } }
  let used := c.remapped.length
  let s1 := ((base.setRf Reg.lifeMode 19 16 start).setRf Reg.cellStat 7 0 used).setRf Reg.lifeMargin1 15 8 (112 - used)
  let s1 := if s.rb Reg.lifeHealth 4 then s1.causeUp 4 else s1
  let s1 := readSaves c badSlots s1
  match found with
  | none => s1
  | some (slot, im) =>
    let read (p : Nat × List Byte) : Nat × Option KSlot := (p.1, if badKeys.contains p.1 then none else keyOfRecord p.2)
    let got : List (Nat × Option KSlot) := im.records.map read
    let s2 := { s1 with keySlots := got.filterMap fun (p : Nat × Option KSlot) => p.2.map fun k => (p.1, k), cellar := { s1.cellar with strong := im.strong, prevSnap := im.snapshot } }
    let s3 := (((s2.setRf Reg.cellStat 31 31 1).setRf Reg.cellStat 30 28 im.kind).setRf Reg.cellStat 19 16 slot)
    let w (n : Nat) : Word := BitVec.ofNat 32 n
    let s4 := (((s3.setReg Reg.prevSeqLo (w (im.seq % 2 ^ 32))).setReg Reg.prevSeqHi (w (im.seq / 2 ^ 32))).setReg
      Reg.prevPmLo (w (im.pm % 2 ^ 32))).setReg Reg.prevPmHi (w (im.pm / 2 ^ 32))
    (got.filter fun (p : Nat × Option KSlot) => p.2.isNone).foldl (fun t p => t.raise 0x0801 81 0 p.1) s4

/-- A save of a kind begins: its image is captured, and what stood in its slot is written over (R514, R524). -/
def startSave (s : State) (kind : Nat) : State :=
  let slot := nextSlot s.cellar
  ivsUsed { s with
    cellar := { s.cellar with images := s.cellar.images.filter fun p => p.1 != slot }
    life := { s.life with saving := some (slot, captureImage s kind) } }

/-- Whether a HOLDUP trigger acts in the present mode (R500, R503): not in HOLDUP, nor once the rails of a withdrawn module are down. -/
def State.mayHold (s : State) : Bool := s.mode != 5 && s.life.rails

/-- HOLDUP begins (R503, R514): admission stops, a checkpoint in progress is abandoned, a hold-up test ends without a result, the
image is captured and its save begun, and the main rails are isolated; a WITHDRAW save in progress goes on as it is. -/
def beginHoldup (s : State) (kind : Nat) : State :=
  let s1 := (s.settleCkpt.dropCkpt).setMode 5
  let s2 := s1.setRf Reg.lifeHucStat 30 30 0
  match s.life.saving with
  | some _ => { s2 with life := { s2.life with rails := false, holdCause := kind, wdStopped := true } }
  | none => startSave { s2 with life := { s2.life with rails := false, holdCause := kind, wdStopped := true } } kind

/-- POWER_UP (R504, R510): soft start completes with PRESENT_N low, ENABLE and SYS_RESET_N high and VIN_12 at least 10.8 V, from a
module without power, or from WITHDRAW with rails down once one of its pins has been cycled. -/
def execPowerUp (dt vin : Nat) (cycled : Bool) (badSlots badKeys : List Nat) (s : State) : Host.Outcome State Fault Refusal :=
  let s := advance s dt
  occur (decide (1080 ≤ vin) && !s.life.rails && (s.life.dark || (s.life.ejectOk && (cycled || s.life.cycled)))) s
    (enterEntry { s with life := { s.life with vin := vin } } 0 badSlots badKeys)

/-- What ENTRY's self-test leaves of lanes (R505, R529): the failed lanes, LANES_FAILED and the LANE cause. -/
def State.failLanes (s : State) (lanes : List Nat) : State :=
  let new := lanes.filter fun l => decide (l < 128) && !s.life.lanesFailed.contains l
  if new.isEmpty then s
  else
    let all := s.life.lanesFailed ++ new.eraseDups
    (({ s with life := { s.life with lanesFailed := all } }).setRf Reg.lifeMargin0 23 16 all.length).causeUp 2

/-- SAG (R513): VIN_12 has stood below THRESH for 40 µs, or below 9.0 V for 2 µs (vin in 10 mV, dur in 2⁻¹⁶ ns). -/
def execSag (dt vin dur : Nat) (s : State) : Host.Outcome State Fault Refusal :=
  let s := advance s dt
  let low := (decide (vin < s.rf Reg.lifeSagCfg 7 0 * 10) && decide (40000 * nsUnit ≤ dur)) ||
    (decide (vin < 900) && decide (2000 * nsUnit ≤ dur))
  let s1 := { s with life := { s.life with vin := vin } }
  occur low s (if s.mayHold then beginHoldup (s1.count Reg.lifeSagCnt) 2 else s1)

/-- VIN_DIP_END (R513): VIN_12 was below THRESH and rose again before detection: counted, with no effect on the mode. -/
def execVinDipEnd (dt vin dur : Nat) (s : State) : Host.Outcome State Fault Refusal :=
  let s := advance s dt
  occur (s.life.rails && decide (vin < s.rf Reg.lifeSagCfg 7 0 * 10) && decide (dur < 40000 * nsUnit) &&
    !(decide (vin < 900) && decide (2000 * nsUnit ≤ dur))) s (s.count Reg.lifeDipCnt)

/-- REMOVAL (R511, R503): PRESENT_N has been high for 2 µs. -/
def execRemoval (dt : Nat) (s : State) : Host.Outcome State Fault Refusal :=
  let s := advance s dt
  let s1 := { s with life := { s.life with presentHigh := true, cycled := true } }
  occur (!s.life.presentHigh) s (if s.mayHold then beginHoldup s1 3 else s1)

/-- ENABLE_LOW (R508). -/
def execEnableLow (dt : Nat) (s : State) : Host.Outcome State Fault Refusal :=
  let s := advance s dt
  let s1 := { s with life := { s.life with enableHigh := false, cycled := true } }
  occur s.life.enableHigh s (if s.mayHold then beginHoldup s1 4 else s1)

/-- SYS_RESET (R508, R503): a low pulse of SYS_RESET_N. From 10 µs it is taken; below 1 µs it is ignored; between, a free value
decides. It restarts ENTRY without a save, waits for a HOLDUP save to complete, and counts as the cycling that a withdrawn
or parked module waits for. -/
def execSysReset (dt width : Nat) (badSlots badKeys : List Nat) (s : State) : Host.Outcome State Fault Refusal :=
  let s := advance s dt
  let between := decide (1000 * nsUnit ≤ width) && decide (width < 10000 * nsUnit)
  let taken := decide (10000 * nsUnit ≤ width) || (between && Config.resetTaken s.draws)
  let s := if between then s.drawn else s
  let power := decide (1080 ≤ s.life.vin) && !s.life.presentHigh && s.life.enableHigh
  occur taken s
    (if s.mode = 5 then
      if s.life.saving.isSome then { s with life := { s.life with resetHeld := true } }
      else if s.life.parked && power then enterEntry s 2 badSlots badKeys
      else { s with life := { s.life with cycled := true } }
    else if !s.life.rails then { s with life := { s.life with cycled := true } }
    else enterEntry s.settleCkpt.dropCkpt 2 badSlots badKeys)

/-- PERST (R508, R570): it resets PCIe configuration space only, of which the specification gives the machine no register, and
never changes the mode. -/
def execPerst (s : State) : Host.Outcome State Fault Refusal := .next s

/-- WITHDRAW begins (R509, R465): the mode, the links' LEAVE, and SVC_PEND cleared. -/
def State.beginWithdraw (s : State) : State :=
  let s1 := (s.setMode 4).setRf Reg.lifeMode 8 8 0
  (linksLeave s1).withLife fun l => { l with wdAt := s.up, wdStopped := false, wdDrained := false }

/-- Whether a write of LIFE_CTL is refused (R500, R502, R503, R532): SVC_ARM outside SETUP, SVC_DISARM while a commit is ARMED,
WITHDRAW or RESTART outside SETUP, SERVICE and REDUCED. -/
def lifeCtlRefused (val : Word) (s : State) : Bool :=
  let serving := decide (1 ≤ s.mode) && decide (s.mode ≤ 3)
  (bitOf val 31 && s.mode != 1) || (bitOf val 30 && s.rf Reg.epochStatus 18 16 == 2) || ((bitOf val 29 || bitOf val 28) && !serving)

/-- What a write of LIFE_CTL does with the commands it sets: SVC_ARM, SVC_DISARM, then RESTART before WITHDRAW (R503). -/
def lifeCtlAct (val : Word) (s : State) : State :=
  let s := if bitOf val 31 then s.setRf Reg.lifeMode 8 8 1 else s
  let s := if bitOf val 30 then s.setRf Reg.lifeMode 8 8 0 else s
  if bitOf val 28 then beginHoldup s 6 else if bitOf val 29 then s.beginWithdraw else s

/-- SVC_ARM (R502). -/
def execSvcArm (m : Nat) (val : Word) (s : State) : Host.Outcome State Fault Refusal :=
  occur (s.life.rails && bitOf val 31) s (s.command m Reg.lifeCtl val (lifeCtlRefused val) (lifeCtlAct val))

/-- SVC_DISARM (R502). -/
def execSvcDisarm (m : Nat) (val : Word) (s : State) : Host.Outcome State Fault Refusal :=
  occur (s.life.rails && bitOf val 30 && !bitOf val 31) s (s.command m Reg.lifeCtl val (lifeCtlRefused val) (lifeCtlAct val))

/-- WITHDRAW (R500, R509). -/
def execLifeWithdraw (m : Nat) (val : Word) (s : State) : Host.Outcome State Fault Refusal :=
  occur (s.life.rails && bitOf val 29 && !bitOf val 31 && !bitOf val 30) s
    (s.command m Reg.lifeCtl val (lifeCtlRefused val) (lifeCtlAct val))

/-- RESTART (R500). -/
def execLifeRestart (m : Nat) (val : Word) (s : State) : Host.Outcome State Fault Refusal :=
  occur (s.life.rails && bitOf val 28 && !bitOf val 31 && !bitOf val 30 && !bitOf val 29) s
    (s.command m Reg.lifeCtl val (lifeCtlRefused val) (lifeCtlAct val))

/-- WITHDRAW_ADMISSION_STOP (R509): DELAY_MS after the start of WITHDRAW. -/
def execWithdrawAdmissionStop (dt : Nat) (s : State) : Host.Outcome State Fault Refusal :=
  let s := advance s dt
  occur (s.mode == 4 && s.life.rails && !s.life.wdStopped && decide (s.life.wdAt + s.rf Reg.lifeWdCfg 15 0 * msUnit ≤ s.up)) s
    { s with life := { s.life with wdStopped := true } }

/-- Whether the Depot holds no envelope. -/
def depotEmpty (s : State) : Bool := s.depot.voq.isEmpty && s.depot.ph.isEmpty

/-- A hatch of envelopes emptied: what was held is gone, and what had been sent is removed, so that its credit returns (R18). -/
def Hatch.purge (x : Hatch) : Hatch :=
  let g := x.gTransit.length + x.gFifo.length
  let e := x.xTransit.length + x.xFifo.length
  { x with held := [], taken := [], gTransit := [], gFifo := [], xTransit := [], xFifo := [], gUnseen := x.gUnseen + g, gRemoved := x.gRemoved + g,
           xUnseen := x.xUnseen + e, xRemoved := x.xRemoved + e }

/-- A port stores no more of the frames it is receiving. -/
def PortSt.refuseRest (x : PortSt) : PortSt :=
  let drop (r : RxFrame) : RxFrame := { r with admitted := false }
  { x with rx := x.rx.map drop, rxPre := x.rxPre.map drop }

/-- The frames still held at the drain limit are discarded and counted (R509), wherever their envelopes are; a thread that held one has nothing left to release (log entry 23). -/
def discardHeld (s : State) : State :=
  let n := s.frames.length
  let late := s.stations.flatMap fun p => p.2.gate.filterMap fun x => if x.released then none else x.thread
  let s0 := late.foldl (fun u m => u.withThr m fun x => { x with late := true }) s
  let s1 := if n = 0 then s0 else s0.count Reg.lifeWdDiscardCnt n
  { s1 with
    frames := []
    depot := { s1.depot with voq := [], ph := [], matched := [] }
    hatches := s1.hatches.map fun p => (p.1, if 2 ≤ p.1 / 128 ∧ p.1 / 128 ≤ 6 then p.2.purge else p.2)
    ports := s1.ports.map fun p => (p.1, p.2.refuseRest)
    cour := { s1.cour with groups := s1.cour.groups.map fun p => (p.1, { p.2 with moves := p.2.moves.map fun m => { m with held := [] } }) }
    slices := s1.slices.map fun p => (p.1, { p.2 with store := [] })
    stations := s1.stations.map fun p => (p.1, { p.2 with gate := [] }) }

/-- Every graph that runs or has failed is stopped, and every thread that is not FAULTED halted. -/
def stopGraphs (s : State) : State := ((List.range 64).filter fun g => gState s g == 2 || gState s g == 4).foldl stopGraph s
def haltAll (s : State) : State := ((List.range (engineCount * 16)).filter (thrEn s)).foldl haltThr s

/-- WITHDRAW_DRAIN_END (R509): the drain ends, or DRAIN_MS passes: frames still held are discarded, graphs stop, threads halt,
checkpoints stop and the image of kind WITHDRAW is captured and its save begun. -/
def execWithdrawDrainEnd (dt : Nat) (s : State) : Host.Outcome State Fault Refusal :=
  let s := advance s dt
  let limit := s.life.wdAt + (s.rf Reg.lifeWdCfg 15 0 + s.rf Reg.lifeWdCfg 31 16) * msUnit
  let s1 := (haltAll (stopGraphs (if depotEmpty s then s else discardHeld s))).settleCkpt.dropCkpt
  occur (s.mode == 4 && s.life.rails && s.life.wdStopped && !s.life.wdDrained && (depotEmpty s || decide (limit ≤ s.up))) s
    (startSave ((s1.withLife fun l => { l with wdDrained := true }).setRf Reg.cellStat 27 27 1) 7)

/-- SAVE_COMPLETE (R514, R509, R503): the commit record of the save is written. In WITHDRAW the module powers its main rails down and
asserts EJECT_OK_N, or returns to SETUP under STAY; in HOLDUP it enters ENTRY after RESTART or a held SYS_RESET_N, and otherwise parks. -/
def execSaveComplete (dt : Nat) (badSlots badKeys : List Nat) (s : State) : Host.Outcome State Fault Refusal :=
  let s := advance s dt
  match s.life.saving with
  | none => .next s
  | some (slot, im) =>
    let c := { s.cellar with images := (s.cellar.images.filter (fun p => p.1 != slot)) ++ [(slot, im)], newest := some slot, seq := im.seq }
    let s1 := { (s.setRf Reg.cellStat 27 27 0) with cellar := c, life := { s.life with saving := none } }
    if s.mode = 5 then
      if s.life.holdCause = 6 then .next (enterEntry s1 3 badSlots badKeys)
      else if s.life.resetHeld ∧ 1080 ≤ s.life.vin ∧ !s.life.presentHigh ∧ s.life.enableHigh then .next (enterEntry s1 2 badSlots badKeys)
      else .next { s1 with life := { s1.life with parked := true, cycled := s.life.resetHeld } }
    else if s.rb Reg.lifeCtl 0 then .next (s1.setMode 1)
    else .next { s1 with life := { s1.life with rails := false, ejectOk := true, cycled := false } }

/-- THERMAL_SHUTDOWN (R517): EST has stood at or above 125 °C for 100 ms after THERM_CRIT. -/
def execThermalShutdown (dt : Nat) (s : State) : Host.Outcome State Fault Refusal :=
  let s := advance s dt
  let due := match s.ledg.critSince with | some t => decide (t + 100 * msUnit ≤ s.up) | none => false
  occur (s.mayHold && due) s (beginHoldup s 5)

/-- POWER_RETURN (R515): a parked module whose conditions have held for 10 ms enters ENTRY; after THERMAL, only once ENABLE or
SYS_RESET_N has been cycled. -/
def execPowerReturn (dt vin held : Nat) (cycled : Bool) (badSlots badKeys : List Nat) (s : State) : Host.Outcome State Fault Refusal :=
  let s := advance s dt
  occur (s.mode == 5 && s.life.parked && !s.life.dark && decide (1080 ≤ vin) && decide (10 * msUnit ≤ held) &&
    (s.life.holdCause != 5 || cycled || s.life.cycled)) s
    (enterEntry { s with life := { s.life with vin := vin } } 1 badSlots badKeys)

/-- CAP_DEPLETED (R515): the capacitor of a parked module falls to 8.0 V: the Save island powers down, the strongbox is lost, the
Cellar image remains. -/
def execCapDepleted (dt : Nat) (s : State) : Host.Outcome State Fault Refusal :=
  let s := advance s dt
  occur (s.mode == 5 && s.life.parked && !s.life.dark) s
    { s with life := { s.life with dark := true }, cellar := { s.cellar with strong := [], prevSnap := [] } }

/-- CHECKPOINT (R523, R524): at a second boundary of module time, in SETUP, SERVICE or REDUCED with EN = 1, an image of kind
CHECKPOINT is captured and its writing begins in the slot after the newest valid one. -/
def execCheckpoint (dt : Nat) (s : State) : Host.Outcome State Fault Refusal :=
  let s := (advance s dt).settleCkpt
  let slot := nextSlot s.cellar
  let im := captureImage s 1
  occur (s.life.rails && decide (1 ≤ s.mode) && decide (s.mode ≤ 3) && s.rb Reg.ckptCfg 31 && s.cellar.ckpt.isNone &&
      s.cellar.ckptSec != s.now / secUnit) s
    (ivsUsed { (s.setRf Reg.cellStat 27 27 1) with
      cellar := { s.cellar with ckpt := some (slot, s.up, im), seq := im.seq, ckptSec := s.now / secUnit,
                                images := s.cellar.images.filter (fun p => p.1 != slot) } })

/-- CHECKPOINT_READBACK (R524): the last checkpoint is read back; bad blocks are remapped; a checkpoint that could not be
completed is counted and is no valid image. -/
def execCheckpointReadback (dt : Nat) (bad : List Nat) (failed : Bool) (s : State) : Host.Outcome State Fault Refusal :=
  let s := (advance s dt).settleCkpt
  match s.cellar.unread with
  | none => .next s
  | some slot =>
    let s1 := { s with cellar := { s.cellar with unread := none } }
    let blocks := bad.filter fun b => decide (b < 128)
    let s2 := blocks.foldl (fun t b => remapBlock t slot b) s1
    let lost := failed || decide (112 < s.cellar.remapped.length + blocks.length)
    occur s.life.rails s
      (if lost then
        let c : CellarSt := { s2.cellar with images := s2.cellar.images.filter (fun p => p.1 != slot) }
        ({ s2 with cellar := { c with newest := (newestImage c []).map Prod.fst } }).count Reg.ckptFailCnt
      else s2)

/-- A hold-up test starts (R519). -/
def State.startTest (s : State) : State :=
  (s.setRf Reg.lifeHucStat 30 30 1).withLife fun l => { l with testAt := s.up }

/-- HOLDUP_TEST (R519, R520): at ENTRY, or TEST_H hours after the last, a test starts once the capacitor (vhuc in 10 mV) has reached
VCHG; one that has not reached it within 1 s of charging makes HOLDUP_LOW active. -/
def execHoldupTest (dt vhuc : Nat) (s : State) : Host.Outcome State Fault Refusal :=
  let s := (advance s dt).setRf Reg.lifeHucE 31 16 vhuc
  let due := !s.rb Reg.lifeHucStat 31 || decide (s.life.testAt + s.rf Reg.lifeHucCfg 15 8 * 3600 * secUnit ≤ s.up)
  occur (s.life.rails && s.mode != 5 && !s.rb Reg.lifeHucStat 30 && due) s
    (if s.rf Reg.lifeHucCfg 7 0 * 10 ≤ vhuc then s.startTest
     else if s.life.chargeAt + secUnit ≤ s.up then s.causeUp 3 else s)

/-- TEST_NOW (R519): LIFE_HUC_CFG written with TEST_NOW; refused while a test runs. -/
def execTestNow (m : Nat) (val : Word) (s : State) : Host.Outcome State Fault Refusal :=
  occur (s.life.rails && bitOf val 31) s
    (s.command m Reg.lifeHucCfg val (fun s => s.rb Reg.lifeHucStat 30) State.startTest)

/-- The voltage a test counts from, in 10 mV: VCHG, or the capacitor's own where it stands above that (R519, R607). -/
def testVolts (s : State) : Nat := max (s.rf Reg.lifeHucCfg 7 0 * 10) (s.rf Reg.lifeHucE 31 16)

/-- Usable energy in mJ, from CAP in µF, a voltage in 10 mV and ESR in mΩ (R519): 0.5 × CAP × (VCHG² − Vmin²), Vmin = 8.0 V + 0.45 A × ESR. -/
def holdupEnergy (cap volts esr : Nat) : Nat :=
  let v := volts * 10000
  let vmin := 8000000 + 450 * esr
  cap * (v * v - vmin * vmin) / (2 * 10 ^ 15)

/-- HOLDUP_TEST_DONE (R519, R520, R529): the voltage fell by `fall` and stepped by `step` (µV) under 0.25 A for 2 ms. -/
def execHoldupTestDone (dt fall step : Nat) (s : State) : Host.Outcome State Fault Refusal :=
  let s := advance s dt
  let cap := min 65535 (500000000 / fall)
  let esr := min 255 (step * 4 / 1000)
  let e := holdupEnergy (500000000 / fall) (testVolts s) (step * 4 / 1000)
  let s1 := (((s.setRf Reg.lifeHucStat 31 30 2).setRf Reg.lifeHucStat 23 16 esr).setRf Reg.lifeHucStat 15 0 cap)
  let s2 := (s1.setRf Reg.lifeHucE 15 0 (min 65535 e)).setRf Reg.lifeMargin1 7 0 (min 255 (e / 4))
  let good := if 211 ≤ e then s.life.goodTests + 1 else 0
  let s3 := { s2 with life := { s2.life with goodTests := good, chargeAt := s.up } }
  occur (s.life.rails && s.rb Reg.lifeHucStat 30 && decide (0 < fall) && decide (s.life.testAt + 2 * msUnit ≤ s.up)) s
    (if e < 192 then s3.causeUp 3 else if 3 ≤ good then s3.causeDown 3 else s3)

/-- SENSOR_CLEAR (R529): every sensor has been valid, with no METER_FAIL, for 10 s. -/
def execSensorClear (dt : Nat) (s : State) : Host.Outcome State Fault Refusal :=
  let s := advance s dt
  occur (s.life.rails && s.rf Reg.lifeMargin0 4 0 == 24 && decide (s.life.sensorsGoodAt + 10 * secUnit ≤ s.up)) s (s.causeDown 5)

/-- TX_PLL_LOCK_LOSS (R529): a lane's transmit PLL has lost lock for 1 ms while its group's REFCLK_OK was 1. -/
def execTxPllLockLoss (dt lane : Nat) (s : State) : Host.Outcome State Fault Refusal :=
  let s := advance s dt
  occur (s.dataPath && decide (lane < 128) && s.rb (Reg.laneStat lane) 7) s (linksRefresh (laneOff (s.failLanes [groupLane s lane]) (groupLane s lane)))

end Sys2Proof.Machine
end

