-- ==== Sys2Proof/Machine/P384.lean ====
section
/-! DEFINITION. ECDSA verification on the curve P-384 with SHA-256 (FIPS 186), which the boot ROM uses (R488). The algorithm is its standard's (log entry 10). -/

namespace Sys2Proof.Machine

/-- The prime of the field, the order of the base point, the coefficient b, and the base point. -/
def p384p : Nat := 2 ^ 384 - 2 ^ 128 - 2 ^ 96 + 2 ^ 32 - 1
def p384n : Nat := 0xffffffffffffffffffffffffffffffffffffffffffffffffc7634d81f4372ddf581a0db248b0a77aecec196accc52973
def p384b : Nat := 0xb3312fa7e23ee7e4988e056be3f82d19181d9c6efe8141120314088f5013875ac656398d8a2ed19d2a85c8edd3ec2aef
def p384gx : Nat := 0xaa87ca22be8b05378eb1c71ef320ad746e1d3b628ba79b9859f741e082542a385502f25dbf55296c3a545e3872760ab7
def p384gy : Nat := 0x3617de4a96262c6f5d9e98bf9292dc29f8f41dbd289a147ce9da3113b5f0b8c00a60b1ce1d7e819d7a431d7c90ea0e5f

/-- A power modulo a number, by squaring; `f` bounds the bits of the exponent. -/
def powMod : Nat → Nat → Nat → Nat → Nat
  | 0, _, _, _ => 1
  | f + 1, b, e, m => if e = 0 then 1 else
    let h := powMod f (b * b % m) (e / 2) m
    if e % 2 = 1 then b * h % m else h

/-- The inverse modulo a prime. -/
def invMod (a m : Nat) : Nat := powMod 384 (a % m) (m - 2) m

/-- A point as X, Y, Z with x = X ÷ Z² and y = Y ÷ Z³; Z = 0 is the point at infinity. -/
def ptDouble (q : Nat × Nat × Nat) : Nat × Nat × Nat :=
  let p := p384p
  let (x, y, z) := q
  let zz := z * z % p
  let yy := y * y % p
  let m := 3 * ((x + zz) * (x + p - zz) % p) % p
  let s := 4 * x * yy % p
  let x3 := (m * m + 2 * p - 2 * s) % p
  let y3 := (m * (s + p - x3) + 8 * (p * p - yy * yy)) % p
  (x3, y3, 2 * y * z % p)

/-- The sum of two points. -/
def ptAdd (a b : Nat × Nat × Nat) : Nat × Nat × Nat :=
  let p := p384p
  let (x1, y1, z1) := a
  let (x2, y2, z2) := b
  if z1 = 0 then b
  else if z2 = 0 then a
  else
    let zz1 := z1 * z1 % p
    let zz2 := z2 * z2 % p
    let u1 := x1 * zz2 % p
    let u2 := x2 * zz1 % p
    let s1 := y1 * zz2 * z2 % p
    let s2 := y2 * zz1 * z1 % p
    if u1 = u2 then (if s1 = s2 then ptDouble a else (1, 1, 0))
    else
      let h := (u2 + p - u1) % p
      let r := (s2 + p - s1) % p
      let hh := h * h % p
      let hhh := h * hh % p
      let v := u1 * hh % p
      let x3 := (r * r + 3 * p - hhh - 2 * v) % p
      let y3 := (r * (v + p - x3) + p * p - s1 * hhh) % p
      (x3, y3, h * z1 * z2 % p)

/-- u · a + v · b, for u and v of at most `n` bits. -/
def ptMul2 : Nat → Nat → Nat → Nat × Nat × Nat → Nat × Nat × Nat → Nat × Nat × Nat → Nat × Nat × Nat
  | 0, _, _, _, _, _ => (1, 1, 0)
  | n + 1, u, v, a, b, ab =>
    let d := ptDouble (ptMul2 n (u / 2) (v / 2) a b ab)
    if u % 2 = 1 then (if v % 2 = 1 then ptAdd d ab else ptAdd d a) else if v % 2 = 1 then ptAdd d b else d

/-- Whether a point is on the curve. -/
def onP384 (x y : Nat) : Bool :=
  decide (x < p384p) && decide (y < p384p) && y * y % p384p == (x * x * x + (p384p - 3) * x + p384b) % p384p

/-- Whether a signature (r, then s, 48 bytes each, most significant byte first) over a message verifies under an uncompressed public key (0x04, X, Y). -/
def ecdsaOk (key msg sig : List Byte) : Bool :=
  let x := beNat (slice key 1 48)
  let y := beNat (slice key 49 48)
  let r := beNat (slice sig 0 48)
  let s := beNat (slice sig 48 48)
  let e := beNat (sha256 msg)
  if key.headD 0 != 4 || !onP384 x y || r == 0 || s == 0 || decide (p384n ≤ r) || decide (p384n ≤ s) then false
  else
    let w := invMod s p384n
    let g := (p384gx, p384gy, 1)
    let q := (x, y, 1)
    let (X, _, Z) := ptMul2 384 (e * w % p384n) (r * w % p384n) g q (ptAdd g q)
    let zi := invMod Z p384p
    Z != 0 && (X * (zi * zi % p384p) % p384p) % p384n == r

end Sys2Proof.Machine
end

