-- ==== Sys2Proof/Machine/Epoch.lean ====
section
/-! DEFINITION. The epoch commit (R30 to R38, R66, R67, R134, R454). -/

namespace Sys2Proof.Machine

/-- EPOCH_AT_WRITE (R38): the write of HALL_EPOCH_AT_HI latches the epoch postmark. -/
def execEpochAtWrite (m : Nat) (val : Word) (s : State) : Host.Outcome State Fault Refusal :=
  occur s.life.rails s
    (s.command m Reg.epochAtHi val (fun _ => false) fun s =>
      let s1 := s.takeLo m Reg.epochAtLo
      { s1 with epoch := { s1.epoch with atLatched := (s1.reg Reg.epochAtHi).toNat * 2 ^ 32 + (s1.reg Reg.epochAtLo).toNat } })

/-- HALL_EPOCH_STATUS.STATE: 0 IDLE, 1 PENDING, 2 ARMED, 3 REFRESH, 4 ABORTED. -/
def epochState (s : State) : Nat := s.rf Reg.epochStatus 18 16

/-! ### Own and peers' seals (R453 to R457) -/

/-- The current and pending tags, of eight bytes, and the pending epoch: it is pending while an XMOD commit is scheduled or armed. -/
def ownTag (s : State) : List Byte := slice s.cour.seal_ 0 8
def ownPendTag (s : State) : List Byte := slice s.cour.pseal 0 8
def ownPending (s : State) : Bool := s.epoch.xmod && (epochState s == 1 || epochState s == 2)
def ownPendEpoch (s : State) : Nat := if ownPending s then (s.epoch.sealEpoch + 1) % 256 else s.epoch.sealEpoch

/-- Fields of a heartbeat. -/
def hbEpoch (h : List Byte) : Nat := beNat (slice h 0 1)
def hbPend (h : List Byte) : Bool := (beNat (slice h 2 1)).testBit 1
def hbPendEpoch (h : List Byte) : Nat := beNat (slice h 1 1)
def hbPendPm (h : List Byte) : Nat := beNat (slice h 20 8)

/-- The pair a peer counts as holding: its pending pair once the pending postmark has passed (R456). -/
def peerPair (s : State) (k : Nat) : Nat × List Byte :=
  let h := (s.link k).hb
  if hbPend h && decide (timeOfPm (hbPendPm h) ≤ s.now) then (hbPendEpoch h, slice h 12 8) else (hbEpoch h, slice h 4 8)

/-- A peer is in agreement. -/
def agreeing (s : State) (k : Nat) : Bool := !(s.link k).hb.isEmpty && peerPair s k == (s.epoch.sealEpoch, ownTag s)

/-- Dissent and pending differences, each alarmed once (R456). -/
def judgePeer (s : State) (k : Nat) : State :=
  let p := peerPair s k
  let h := (s.link k).hb
  let dis := p.1 == s.epoch.sealEpoch && p.2 != ownTag s
  let code := 1 + p.1 + 256 * beNat p.2
  let s1 := s.setRf (Reg.linkStat k) 18 18 (b2n dis)
  let s2 := if dis then
      (if (s.link k).dissented = code then s1
       else (s1.raise 0x0704 72 k p.1 (beNat (slice p.2 0 4)) (beNat (slice p.2 4 4))).withLink k fun l => { l with dissented := code })
    else s1.withLink k fun l => { l with dissented := 0 }
  let diff := hbPend h && ownPending s && (hbPendEpoch h != ownPendEpoch s || hbPendPm h != pmOf s.epoch.atSched)
  let s3 := s2.setRf (Reg.linkStat k) 17 17 (b2n diff)
  if diff && !(s.link k).pendAlarmed then (s3.raise 0x0705 72 k (hbPendEpoch h)).withLink k fun l => { l with pendAlarmed := true }
  else if diff then s3 else s3.withLink k fun l => { l with pendAlarmed := false }

/-- Every peer judged anew after a change of this module's own pair or of its pending commit (R456). -/
def judgePeers (s : State) : State :=
  (s.cour.links.map (·.1)).foldl (fun t k => if (linkState t k == 3 || linkState t k == 4 || linkState t k == 6) && !(t.link k).hb.isEmpty then judgePeer t k else t) s

/-- Whether a SCHEDULE is refused (R34, R36, R454). -/
def scheduleRefused (val : Word) (s : State) : Bool :=
  let pm := s.epoch.atLatched
  let t := timeOfPm pm
  let lead := if bitOf val 16 then 200000000 * nsUnit else 1000000 * nsUnit
  bitOf val 1 || !(epochState s == 0 || epochState s == 4) || !s.rb Reg.epochStatus 20 || decide (1000000000 ≤ pm % 2 ^ 30) ||
    decide (t < s.now + lead) || decide (s.now + 60 * secUnit < t) ||
    (bitOf val 16 && !(s.rb Reg.courId 31 && s.rb Reg.timeStatus 0))

/-- SCHEDULE (R33, R34, R454): HALL_EPOCH_CTL with SCHEDULE schedules a commit at the latched postmark. -/
def execEpochSchedule (m : Nat) (val : Word) (s : State) : Host.Outcome State Fault Refusal :=
  occur (s.life.rails && bitOf val 0) s
    (s.command m Reg.epochCtl val (scheduleRefused val) fun s =>
      let s1 := { s.setRf Reg.epochStatus 18 16 1 with
        epoch := { s.epoch with atSched := timeOfPm s.epoch.atLatched, xmod := bitOf val 16 } }
      if bitOf val 16 then judgePeers ((s1.setRf Reg.courSealStat 30 30 0).setRf Reg.courSealStat 15 8 (s.epoch.sealEpoch + 1)) else s1)

/-- CANCEL (R36): HALL_EPOCH_CTL with CANCEL ends a PENDING commit, and is refused in any other state, or with SCHEDULE. From 100 µs before the epoch postmark on the Hall
arms first, so a CANCEL that comes then meets ARMED although EPOCH_ARM may stand behind it in the queue. -/
def execEpochCancel (m : Nat) (val : Word) (s : State) : Host.Outcome State Fault Refusal :=
  occur (s.life.rails && bitOf val 1) s
    (s.command m Reg.epochCtl val (fun s => bitOf val 0 || epochState s != 1 || decide (s.epoch.atSched ≤ s.now + 100000 * nsUnit)) fun s =>
      judgePeers { ((s.setRf Reg.epochStatus 18 16 0).setRf Reg.courSealStat 30 30 0).setRf Reg.courSealStat 15 8 s.epoch.sealEpoch with epoch := { s.epoch with xmod := false } })

/-- The islands not ready at arming (R35, R134, R454): those named late, a slice front whose rehash is building, and 81 for a seal that is not
computed. -/
def notReady (s : State) (late : List Nat) : List Nat :=
  late ++ ((List.range 16).filter fun i => !(s.slice i).building.isEmpty).map (48 + ·) ++
    (if s.epoch.xmod && !s.rb Reg.courSealStat 30 then [81] else [])

/-- EPOCH_ARM (R35): 100 µs before the epoch postmark the Hall arms the commit, or aborts it; `late` names the islands that have not applied
their staged writes. -/
def execEpochArm (dt : Nat) (late : List Nat) (s : State) : Host.Outcome State Fault Refusal :=
  let s := advance s dt
  let no := notReady s (late.filter fun i => decide (i ≤ 83))
  occur (s.life.rails && epochState s == 1 && decide (s.epoch.atSched ≤ s.now + 100000 * nsUnit)) s
    (match no with
     | [] => s.setRf Reg.epochStatus 18 16 2
     | i :: r =>
       let n := r.foldl min i
       judgePeers ((((s.setRf Reg.epochStatus 18 16 4).setRf Reg.courSealStat 15 8 s.epoch.sealEpoch).setRf Reg.epochStatus 31 24 n).raise 0x0301 81 0 (s.rf Reg.epochStatus 15 8) n))

/-- Whether a table of a slice exchanges with its shadow at the epoch: its rehash is BUILT (R134). -/
def rehashBuilt (s : State) (sl code : Nat) : Bool := s.rb (rehashReg (if code = 2 then sl else 0) code) 30

/-- The tables of one slice at the epoch: STATIC exchanges its copies, or takes its shadow; LEARN takes its shadow; the hot cache is emptied
when EXT exchanges (R31, R134). -/
def commitSlice (s : State) (i : Nat) : State :=
  let x := s.slice i
  let st := rehashBuilt s i 1
  let le := rehashBuilt s i 2
  let ex := rehashBuilt s i 6
  let x1 := if st then { x with statA := x.statShadow, statS := x.statA, statShadow := [], swapped := x.swapped ++ [1] }
    else { x with statA := x.statS, statS := x.statA }
  let x2 := if le then { x1 with learn := x1.learnShadow, learnShadow := x1.learn, swapped := x1.swapped ++ [2] } else x1
  s.setSlice i (if ex then { x2 with cache := [], fills := x2.fills.map fun f => { f with stale := true }, swapped := x2.swapped ++ [6] } else x2)

/-- The port map's copies exchange: register i of 64. -/
def swapPortMap (s : State) (i : Nat) : State :=
  (s.setReg (Reg.tenPortAct i) (s.reg (Reg.tenPortMap i))).setReg (Reg.tenPortMap i) (s.reg (Reg.tenPortAct i))

/-- The active and staging copies exchange (R31, R134, R453). -/
def swapCopies (s : State) : State :=
  let ex := rehashBuilt s 0 6
  let s1 := (List.range 16).foldl commitSlice s
  let d := s1.dirs
  let s2 := { s1 with
    dirs := { d with vlanA := d.vlanS, vlanS := d.vlanA, lpmA := d.lpmS, lpmS := d.lpmA, rootA := d.rootS, rootS := d.rootA,
                     ext := if ex then d.extShadow else d.ext, extShadow := if ex then d.ext else d.extShadow,
                     extPlace := d.extPlace != ex }
    epoch := { s1.epoch with sysA := s1.epoch.sysS, sysS := s1.epoch.sysA } }
  (List.range 64).foldl swapPortMap s2

/-- The staging seal becomes the current seal at a commit scheduled with XMOD (R67, R454). -/
def swapSeal (s : State) : State :=
  let n := (s.epoch.sealEpoch + 1) % 256
  let s1 := { s with epoch := { s.epoch with sealEpoch := n }, cour := { s.cour with seal_ := s.cour.pseal } }
  let s2 := (s1.setReg Reg.sealTagLo (s1.reg Reg.psealTagLo)).setReg Reg.sealTagHi (s1.reg Reg.psealTagHi)
  ((s2.setRf Reg.courSealStat 31 30 2).setRf Reg.courSealStat 7 0 n)

/-- EPOCH_COMMIT (R31, R33, R66, R67, R502): at the epoch postmark the copies exchange and NOW_NUM advances; with SVC_PEND set, service
starts. -/
def execEpochCommit (dt : Nat) (s : State) : Host.Outcome State Fault Refusal :=
  let s := advance s dt
  let now := s.rf Reg.epochStatus 7 0
  let s1 := swapCopies s
  let s2 := { s1 with epoch := { s1.epoch with lastAt := s.epoch.atSched, oldReadable := true, prevSeal := s.epoch.sealEpoch } }
  let s3 := if s.epoch.xmod then { swapSeal s2 with epoch := { (swapSeal s2).epoch with xmod := false } } else s2
  occur (s.life.rails && epochState s == 2 && !s.epoch.oldReadable && decide (s.epoch.atSched ≤ s.now)) s
    (judgePeers ((s3.setRf Reg.epochStatus 7 0 (now + 1)).setRf Reg.epochStatus 15 8 (now + 2))).serviceStart

/-- Whether a frame of an earlier postmark still has its on-die lookups to make (R32). -/
def earlyFrame (s : State) : Bool :=
  (s.slices.any fun p => p.2.store.any fun it => decide (it.pm < s.epoch.lastAt) && it.env.isNone) ||
    s.ports.any fun p => p.2.rxAll.any fun r => decide (r.pm < s.epoch.lastAt) && !r.formed

/-- The rehashes of one slice are finished: SEED shows the new seed, REQ, BUILT and FAILED clear, and the old table is the next shadow (R134). -/
def releaseSlice (s : State) (i : Nat) : State :=
  let x := s.slice i
  let one (t : State) (code : Nat) : State :=
    if x.swapped.contains code then
      let seedReg := if code = 1 then Reg.dirHashSeedStatic i else if code = 2 then Reg.dirHashSeedLearn i else Reg.dirHashSeedExt i
      let newReg := if code = 1 then Reg.dirNewSeedStatic i else if code = 2 then Reg.dirNewSeedLearn i else Reg.dirNewSeedExt i
      (t.setReg seedReg (t.reg newReg)).setRf (rehashReg i code) 31 29 0
    else t
  let s1 := [1, 2, 6].foldl one s
  s1.setSlice i { x with swapped := [], learnShadow := if x.swapped.contains 2 then [] else x.learnShadow }

/-- EPOCH_RELEASE (R32, R134): the old copy is released, at the earliest 5 µs after the epoch, once no earlier frame needs it or 1 ms + 4 µs have
passed. -/
def execEpochRelease (dt : Nat) (s : State) : Host.Outcome State Fault Refusal :=
  let s := advance s dt
  let ext := (s.slice 0).swapped.contains 6
  let s1 := (List.range 16).foldl releaseSlice s
  let s2 := { s1 with epoch := { s1.epoch with oldReadable := false }, dirs := if ext then { s1.dirs with extShadow := [] } else s1.dirs }
  occur (s.life.rails && s.epoch.oldReadable && decide (s.epoch.lastAt + 5000 * nsUnit ≤ s.now) &&
      (!earlyFrame s || decide (s.epoch.lastAt + 1004000 * nsUnit ≤ s.now))) s
    ((s2.setRf Reg.epochStatus 18 16 3).setRf Reg.epochStatus 20 20 0)

/-- The staging copies rebuilt from the new active ones (R37). -/
def refreshCopies (s : State) : State :=
  let d := s.dirs
  let s1 := { s with
    slices := s.slices.map fun p => (p.1, { p.2 with statS := p.2.statA })
    dirs := { d with vlanS := d.vlanA, lpmS := d.lpmA, rootS := d.rootA }
    epoch := { s.epoch with sysS := s.epoch.sysA } }
  (List.range 64).foldl (fun t i => t.setReg (Reg.tenPortMap i) (t.reg (Reg.tenPortAct i))) s1

end Sys2Proof.Machine
end

