-- ==== Sys2Proof/Machine/Parcels.lean ====
section
/-! DEFINITION. Parcels (R427, R428), their protection by MACsec (R497) and link-level retry (R432 to R439): building, sending, acknowledging, and the receipt book. -/

namespace Sys2Proof.Machine

/-! ### The header (R427) -/

/-- Bits [hi:lo] of word w of a parcel. -/
def pf (b : List Byte) (w hi lo : Nat) : Nat := bits (beNat (slice b (4 * w) 4)) hi lo

def pType (b : List Byte) : Nat := pf b 0 11 8
def pClass (b : List Byte) : Nat := pf b 0 7 5
def pSeq (b : List Byte) : Nat := pf b 1 31 20
def pAck (b : List Byte) : Nat := pf b 1 19 8
def pLen (b : List Byte) : Nat := pf b 2 31 18
def pPayload (b : List Byte) : List Byte := slice b 16 (pLen b)

/-- The CRC-32 over header and payload is good. -/
def pGood (b : List Byte) : Bool := decide (20 ≤ b.length) && fcsOf (b.take (b.length - 4)) == b.drop (b.length - 4)

/-- A reserved TYPE, or a reserved bit that is not 0 (R428). -/
def pReserved (b : List Byte) : Bool := pType b == 0 || decide (10 ≤ pType b) || pf b 2 3 0 != 0 || pf b 3 3 0 != 0

/-- What the sender of a parcel gives for its header. -/
structure ParcelInfo where
  dst : Nat
  src : Nat
  typ : Nat
  cls : Nat
  ten : Nat
  mc : Bool
  seq : Nat
  sealNo : Nat
  rph : Nat
  flow : Nat
  hops : Nat

/-- The acknowledgement a parcel carries (R434), and RFREE: what is free, in KiB, of the 60 KiB of the receive buffer for classes 0 to 6 (R433). -/
def ackNow (s : State) (k : Nat) : Nat := ((s.link k).exp + 4095) % 4096
def freeKiB (s : State) (k : Nat) : Nat := (61440 - (((s.link k).rxBuf.filter fun x => pClass x.2 != 7).map fun x => x.2.length).foldl (· + ·) 0) / 1024

/-- A parcel as it is sent. -/
def parcelOf (s : State) (k : Nat) (x : ParcelInfo) (payload : List Byte) : List Byte :=
  let b := beBytes 4 (x.dst * 2 ^ 22 + x.src * 2 ^ 12 + x.typ * 2 ^ 8 + x.cls * 2 ^ 5 + x.ten * 2 + b2n x.mc) ++
    beBytes 4 (x.seq * 2 ^ 20 + ackNow s k * 2 ^ 8 + x.sealNo) ++ beBytes 4 (payload.length * 2 ^ 18 + x.rph * 2 ^ 4) ++
    beBytes 4 (x.flow * 2 ^ 16 + x.hops * 2 ^ 11 + freeKiB s k * 2 ^ 4) ++ payload
  b ++ fcsOf b

/-- A parcel with the present ACK and RFREE in place of its own (R437). -/
def parcelRenew (s : State) (k : Nat) (b : List Byte) : List Byte :=
  let n := overwrite (overwrite (b.take (b.length - 4)) 4 (beBytes 4 (pSeq b * 2 ^ 20 + ackNow s k * 2 ^ 8 + pf b 1 7 0)))
    12 (beBytes 4 (pf b 3 31 11 * 2 ^ 11 + freeKiB s k * 2 ^ 4))
  n ++ fcsOf n

/-- The peer of a link. -/
def peerOf (s : State) (k : Nat) : Nat := s.rf (Reg.linkStat k) 28 19

/-! ### MACsec on a link (R497) -/

/-- The number of the port whose MACsec configuration and SA entries serve a link: that of its first lane. -/
def linkPort (s : State) (k : Nat) : Nat := match linkLane s k with | some l => 4 * l | none => 512

/-- Whether MACsec protects a link's parcels. -/
def linkSecured (s : State) (k : Nat) : Bool := decide (linkPort s k < 512) && s.rb (pReg Reg.portMacsecCfg (linkPort s k)) 31

/-- A parcel as it goes onto the link: where MACsec is enabled the 16-byte header, which is authenticated only, then a tag of 8 bytes with AN and PN, the payload, the ICV and
the CRC. None when the transmit SA is not valid or has no PN left, which is counted. The tag's layout is the model's (log entry 30). -/
def secureParcel (s : State) (k : Nat) (b : List Byte) : State × Option (List Byte) :=
  if linkSecured s k = false then (s, some b)
  else
    let p := linkPort s k
    let cfg := s.reg (pReg Reg.portMacsecCfg p)
    let i := fld cfg 22 22
    let pn := saPn s p i
    if !bitOf (saWord s p i 0) 31 ∨ pn = 0 ∨ pnSpace s p ≤ pn then (s.count (pReg Reg.portMacsecPnCnt p), none)
    else
      let body := (b.drop 16).take (b.length - 20)
      let clear := if bitOf cfg 28 then min (secOffset s p) body.length else body.length
      let head := b.take 16 ++ beBytes 4 (fld (saWord s p i 0) 30 29) ++ beBytes 4 (pn % 2 ^ 32) ++ body.take clear
      let r := gcmEnc (saKey s p i) (saIv s p i pn) head (body.drop clear)
      (takePn s p i pn, some (head ++ r.1 ++ r.2 ++ fcsOf (head ++ r.1 ++ r.2)))

/-- A received parcel with a good CRC as its sender built it, or none where its verification fails, which is counted (R494, R497). With VALIDATE Disabled it passes unchanged. -/
def openParcel (s : State) (k : Nat) (b : List Byte) : State × Option (List Byte) :=
  let p := linkPort s k
  let cfg := s.reg (pReg Reg.portMacsecCfg p)
  if linkSecured s k = false ∨ fld cfg 25 24 = 0 then (s, some b)
  else if b.length < 44 then (s.count (pReg Reg.portMacsecUntagCnt p), none)
  else
    match rxSa s p none (beNat (slice b 16 4) % 4) with
    | none => (s.count (pReg Reg.portMacsecNosaCnt p), none)
    | some i =>
      let pn := fullPn s p i (beNat (slice b 20 4))
      let body := (b.drop 24).take (b.length - 44)
      let clear := if bitOf cfg 28 then min (secOffset s p) body.length else body.length
      let r := gcmDec (saKey s p i) (saIv s p i pn) (b.take 24 ++ body.take clear) (body.drop clear)
      if pn < saPn s p i ∨ pn = 0 then (s.count (pReg Reg.portMacsecReplayCnt p), none)
      else if r.2 ≠ slice b (b.length - 20) 16 then (s.count (pReg Reg.portMacsecIcvCnt p), none)
      else
        let q := b.take 16 ++ body.take clear ++ r.1
        ((setSaPn s p i (max (saPn s p i) (pn + 1 - fld cfg 15 0))).stat (portSet p) 23, some (q ++ fcsOf q))

/-- A parcel of n bytes counted in a link's statistics from counter i on: parcels, their bytes, and in the last counter of the three those of class 7 that carry data (R581). -/
def parcelStats (s : State) (k i n : Nat) (b : List Byte) : State :=
  let s1 := (s.stat (linkSet k) i).stat (linkSet k) (i + 1) n
  if pType b = 1 ∧ pClass b = 7 then s1.stat (linkSet k) (4 + i / 2) else s1

/-- A parcel leaves on a link, protected where MACsec is enabled; the acknowledgement it carries is no longer due. -/
def transmit (s : State) (k : Nat) (b : List Byte) : State :=
  match secureParcel s k b with
  | (s1, some w) => (parcelStats s1 k 0 w.length b).withLink k fun l => { l with lastTx := w, ackDue := none }
  | (s1, none) => s1

/-- A control parcel's header. -/
def ctlInfo (s : State) (k typ seq : Nat) : ParcelInfo := ⟨peerOf s k, ownModule s, typ, 0, 0, false, seq, 0, 0, 0, 0⟩

/-- An unsequenced parcel sent. -/
def sendCtl (s : State) (k typ : Nat) (payload : List Byte) : State := transmit s k (parcelOf s k (ctlInfo s k typ 0) payload)

/-! ### The sender (R432, R437) -/

/-- Bytes of the replay buffer, of class 7 or of the others. -/
def replayBytes (l : CourLink) (x7 : Bool) : Nat := ((l.unacked.filter fun p => (p.cls == 7) == x7).map fun p => p.bytes.length).foldl (· + ·) 0

/-- Whether a new sequenced parcel of a class and length may be sent (R432). -/
def canSend (s : State) (k cls n : Nat) : Bool :=
  let l := s.link k
  let g := replayBytes l false
  let x := replayBytes l true
  decide (l.unacked.length < 2047) && decide (g + x + n ≤ 65536) &&
    (if cls = 7 then decide (x + n ≤ 4096) else decide (g + n ≤ 61440) && decide (l.genSince + n ≤ l.rfree * 1024))

/-- A sequenced parcel sent: it takes NEXT and stands in the replay buffer. -/
def sendSeq (s : State) (k : Nat) (x : ParcelInfo) (payload : List Byte) (tag : Nat) : State :=
  let q := (s.link k).next
  let b := parcelOf s k { x with seq := q } payload
  (transmit s k b).withLink k fun l =>
    { l with next := (q + 1) % 4096, unacked := l.unacked ++ [⟨q, b, x.cls, tag⟩], timerAt := if l.unacked.isEmpty then s.up else l.timerAt,
             genSince := if x.cls = 7 then l.genSince else l.genSince + b.length }

/-- The control parcels that wait are sent while they may be. -/
def flushCtl (k : Nat) : Nat → State → State
  | 0, s => s
  | n + 1, s =>
    match (s.link k).ctl with
    | [] => s
    | (typ, p) :: r =>
      if canSend s k 0 (p.length + 20) then flushCtl k n (sendSeq (s.withLink k fun l => { l with ctl := r }) k (ctlInfo s k typ 0) p 0) else s

/-- A sequenced control parcel queued, and sent at once if it may be. -/
def queueCtl (s : State) (k typ : Nat) (payload : List Byte) : State :=
  let s1 := s.withLink k fun l => { l with ctl := l.ctl ++ [(typ, payload)] }
  flushCtl k (s1.link k).ctl.length s1

/-- Every unacknowledged parcel is sent again; at eight replays without progress the link fails (R437, R439). General parcels sent again count among those sent after the
latest ACK (R432; log entry 77). -/
def replay (s : State) (k : Nat) : State :=
  let l := s.link k
  let n := s.rf (Reg.linkStat k) 16 13 + 1
  let s1 := ((l.unacked.foldl (fun t p => transmit t k (parcelRenew s k p.bytes)) s).withLink k fun l =>
    { l with unacked := l.unacked.map fun p => { p with bytes := parcelRenew s k p.bytes }, timerAt := s.up, genSince := l.genSince + replayBytes l false }).count (Reg.courReplayCnt k)
  let s2 := s1.setRf (Reg.linkStat k) 16 13 n
  if 8 ≤ n then failLink s2 k 0 else s2

/-- The ACK and RFREE of a parcel with a good CRC are used (R428, R437). -/
def takeAck (s : State) (k a rfree : Nat) : State :=
  let l := s.link k
  let una := match l.unacked with | p :: _ => p.seq | [] => l.next
  let d := (a + 4096 - una) % 4096
  let s1 := s.withLink k fun l => { l with rfree := rfree, genSince := 0 }
  if d < l.unacked.length then
    let s2 := (s1.withLink k fun l => { l with unacked := l.unacked.drop (d + 1), timerAt := s.up }).setRf (Reg.linkStat k) 16 13 0
    noteClear (flushCtl k l.ctl.length s2)
  else if d = 4095 then flushCtl k l.ctl.length s1
  else s1.count Reg.courBadackCnt

/-! ### The receiver (R428, R434 to R436) -/

/-- A sequenced parcel judged by the receipt book: accepted and delivered, discarded with a NAK, or repeated and acknowledged. -/
def receiveSeq (s : State) (k : Nat) (b : List Byte) (deliver : State → State) : State :=
  let l := s.link k
  let d := (pSeq b + 4096 - l.exp) % 4096
  if d = 0 then
    deliver ((parcelStats s k 2 b.length b).withLink k fun l =>
      { l with exp := (l.exp + 1) % 4096, nakSent := false, ackDue := match l.ackDue with | some t => some t | none => some s.up })
  else if d ≤ 2047 then
    if l.nakSent then s else (sendCtl s k 3 []).withLink k fun l => { l with nakSent := true }
  else sendCtl (s.count (Reg.courDupCnt k)) k 2 []

/-- States in which parcels are received: those of a locked link; and those in which parcels other than HELLO are taken. -/
def lockedStates : List Nat := [2, 3, 4, 6]
def openStates : List Nat := [3, 4, 6]

/-- A received parcel (R428): one with a bad CRC is counted; one that fails verification is discarded (R497); the ACK and RFREE of any other are used; one with reserved bits is
sequenced, and its content discarded and counted; any other acts in the states of the link that take its type. -/
def parcelRx (k dt : Nat) (b : List Byte) (mine : Nat → Bool) (states : List Nat) (act : List Byte → State → State) (s : State) : Host.Outcome State Fault Refusal :=
  let s := advance s dt
  let st := linkState s k
  occur (s.dataPath && decide (k < 32) && lockedStates.contains st && (!pGood b || mine (pType b))) s
    (if !pGood b then s.count (Reg.courCrcErrCnt k)
     else match openParcel s k b with
       | (u, none) => u
       | (u, some q) =>
         let s1 := takeAck u k (pAck b) (pf b 3 10 4)
         if pReserved b then (if openStates.contains st then receiveSeq s1 k q fun s => s.count Reg.courRsvCnt else s1.count Reg.courRsvCnt)
         else if states.contains st then act q s1 else s1)

/-- ACK_RX (R437): an ACK frees parcels, or is ignored. -/
def execAckRx (k dt : Nat) (b : List Byte) (s : State) : Host.Outcome State Fault Refusal := parcelRx k dt b (· == 2) openStates (fun _ s => s) s

/-- NAK_RX (R437, R438): as an ACK; then every unacknowledged parcel is sent again. -/
def execNakRx (k dt : Nat) (b : List Byte) (s : State) : Host.Outcome State Fault Refusal := parcelRx k dt b (· == 3) openStates (fun _ s => replay s k) s

/-- ACK_SEND (R434): ACK_DELAY has passed without a parcel that carried the acknowledgement. -/
def execAckSend (k dt : Nat) (s : State) : Host.Outcome State Fault Refusal :=
  let s := advance s dt
  match (s.link k).ackDue with
  | none => .next s
  | some t => occur (s.dataPath && openStates.contains (linkState s k) && decide (t + s.rf (Reg.linkCfg k) 15 8 * 10 * nsUnit ≤ s.up)) s (sendCtl s k 2 [])

/-- REPLAY_TIMEOUT (R437): 2 µs after the first sending, or last replay, of the parcel at UNA. -/
def execReplayTimeout (k dt : Nat) (s : State) : Host.Outcome State Fault Refusal :=
  let s := advance s dt
  occur (s.dataPath && openStates.contains (linkState s k) && !(s.link k).unacked.isEmpty && decide ((s.link k).timerAt + 2000 * nsUnit ≤ s.up)) s (replay s k)

/-! ### Link states (R425, R426, R439) -/

/-- LINK_LOCKED (R73, R425): all lanes have held block lock and alignment for 1 ms, which they do only with REFCLK. -/
def execLinkLocked (k dt : Nat) (s : State) : Host.Outcome State Fault Refusal :=
  let s := advance s dt
  occur (s.dataPath && decide (k < 32) && linkState s k == 1 && (linkLane s k).any (fun l => s.rb (Reg.laneStat l) 7) &&
      decide ((s.link k).since + 1000000 * nsUnit ≤ s.up)) s
    ((enterLink s k 2).withLink k fun l => { l with helloAt := 0, refused := false })

/-- The HELLO payload: SYSTEM, module number, time depth (the layout is the model's, log entry 30). -/
def helloPayload (s : State) : List Byte := beBytes 4 (s.reg Reg.courSystem).toNat ++ beBytes 2 (ownModule s) ++ beBytes 2 (s.rf Reg.courTimeCfg 12 8)

/-- HELLO_SEND (R426): every 100 µs in HELLO. -/
def execHelloSend (k dt : Nat) (s : State) : Host.Outcome State Fault Refusal :=
  let s := advance s dt
  let l := s.link k
  occur (s.dataPath && decide (k < 32) && linkState s k == 2 && (l.helloAt == 0 || decide (l.helloAt + 100000 * nsUnit ≤ s.up))) s
    ((sendCtl s k 9 (helloPayload s)).withLink k fun l => { l with helloAt := s.up })

/-- What a HELLO received in HELLO does: accepted, both sequence spaces begin at 0; refused, LINK_REFUSED once and PEER shown. -/
def takeHello (k : Nat) (b : List Byte) (s : State) : State :=
  let sys := beNat (slice b 16 4)
  let m := beNat (slice b 20 2) % 1024
  let s1 := s.setRf (Reg.linkStat k) 28 19 m
  if sys = (s.reg Reg.courSystem).toNat ∧ m ≠ ownModule s then
    (enterLink s1 k 3).withLink k fun l =>
      { l with next := 0, exp := 0, unacked := [], genSince := 0, nakSent := false, ackDue := none, ctl := [], hbAt := s.up, hb := [], depth := beNat (slice b 22 2),
               hbSentAt := 0, timeSentAt := 0, timesSent := [], timeRx := none }
  else if (s.link k).refused then s1
  else (s1.raise 0x0701 72 k m sys).withLink k fun l => { l with refused := true }

/-- HELLO_RX (R426): judged in HELLO; in CHECK, UP and LEAVING it has no effect of its own. -/
def execHelloRx (k dt : Nat) (b : List Byte) (s : State) : Host.Outcome State Fault Refusal :=
  parcelRx k dt b (· == 9) [2, 3, 4, 6] (fun b s => if linkState s k = 2 then takeHello k b s else s) s

/-- LOCK_LOSS (R425, R439): lock has been lost for more than 10 µs; a link that is LEAVING is then DOWN. -/
def execLockLoss (k dt : Nat) (s : State) : Host.Outcome State Fault Refusal :=
  let s := advance s dt
  occur (s.life.rails && decide (k < 32) && openStates.contains (linkState s k)) s
    (unlockLink s k)

/-- HEARTBEAT_TIMEOUT (R439): no HEARTBEAT has arrived for 3 ms. -/
def execHeartbeatTimeout (k dt : Nat) (s : State) : Host.Outcome State Fault Refusal :=
  let s := advance s dt
  occur (s.dataPath && decide (k < 32) && openStates.contains (linkState s k) && decide ((s.link k).hbAt + 3000000 * nsUnit ≤ s.up)) s (failLink s k 2)

/-- LINK_RETRY (R425): a FAILED link goes to LOCKING after 10 ms, and a link that has become DOWN by losing lock while its lanes are enabled goes there at once. -/
def execLinkRetry (k dt : Nat) (s : State) : Host.Outcome State Fault Refusal :=
  let s := advance s dt
  let due := (linkState s k == 5 && decide ((s.link k).since + 10000000 * nsUnit ≤ s.up)) || linkState s k == 0
  occur (s.dataPath && decide (k < 32) && linkCarried s k && due) s (enterLink s k 1)

end Sys2Proof.Machine
end

