-- ==== Sys2Proof/Machine/Courier.lean ====
section
/-! DEFINITION. What parcels carry and the Courier block's own work (R430, R431, R441 to R457, R460 to R467): frames, heartbeats, seals, time, alarms, bucket moves, the
monitor, and the route and group registers. -/

namespace Sys2Proof.Machine

/-! ### Seals (R453 to R457) -/

/-- HEARTBEAT (R455). -/
def hbPayload (s : State) : List Byte :=
  beBytes 1 s.epoch.sealEpoch ++ beBytes 1 (ownPendEpoch s) ++
    beBytes 1 (b2n (s.rb Reg.courSealStat 31) + 2 * b2n (ownPending s) + 4 * b2n (s.mode == 4)) ++ beBytes 1 (s.rf Reg.courTimeCfg 12 8) ++
    ownTag s ++ ownPendTag s ++ beBytes 8 (if ownPending s then pmOf s.epoch.atSched else 0)

/-- HEARTBEAT_SEND (R455): every 1 ms in CHECK, UP and LEAVING. -/
def execHeartbeatSend (k dt : Nat) (s : State) : Host.Outcome State Fault Refusal :=
  let s := advance s dt
  let l := s.link k
  occur (s.dataPath && decide (k < 32) && openStates.contains (linkState s k) && (l.hbSentAt == 0 || decide (l.hbSentAt + 1000000 * nsUnit ≤ s.up)) && canSend s k 0 48) s
    ((sendSeq s k (ctlInfo s k 4 0) (hbPayload s) 0).withLink k fun l => { l with hbSentAt := s.up })

/-- A heartbeat accepted: CHECK becomes UP, LEAVE puts the link into LEAVING, as the module's own WITHDRAW does (R465), and the peer is judged. -/
def takeHeartbeat (k : Nat) (b : List Byte) (s : State) : State :=
  let h := pPayload b
  let s1 := s.withLink k fun l => { l with hb := h, hbAt := s.up, depth := beNat (slice h 3 1) }
  let s2 := if linkState s1 k = 3 then regroupAll (enterLink s1 k 4) else s1
  let s3 := if (beNat (slice h 2 1)).testBit 2 || s.mode == 4 then leaveLink s2 k else s2
  courTimeCheck (judgePeer s3 k)

/-- HEARTBEAT_RX (R425, R455, R456, R461, R465). -/
def execHeartbeatRx (k dt : Nat) (b : List Byte) (s : State) : Host.Outcome State Fault Refusal :=
  parcelRx k dt b (· == 4) openStates (fun b s => receiveSeq s k b (takeHeartbeat k b)) s

/-- SEAL_REQ_RX (R457): answered with the full current seal and its epoch. -/
def execSealReqRx (k dt : Nat) (b : List Byte) (s : State) : Host.Outcome State Fault Refusal :=
  parcelRx k dt b (· == 5) openStates (fun b s => receiveSeq s k b fun s => queueCtl s k 6 (slice s.cour.seal_ 0 32 ++ beBytes 1 s.epoch.sealEpoch)) s

/-- SEAL_RESP_RX (R457): kept for COUR_PEER_SEAL. -/
def execSealRespRx (k dt : Nat) (b : List Byte) (s : State) : Host.Outcome State Fault Refusal :=
  parcelRx k dt b (· == 6) openStates (fun b s => receiveSeq s k b fun s => s.withLink k fun l => { l with peerSeal := slice (pPayload b) 0 32 }) s

/-- SEAL_REQ (R457): a write of 1 to bit 31 sends SEAL_REQ on the selected link. -/
def execSealReq (m : Nat) (val : Word) (s : State) : Host.Outcome State Fault Refusal :=
  occur (s.life.rails && bitOf val 31) s
    (s.command m Reg.peerSealSel val (fun _ => false) fun s =>
      let k := fld val 4 0
      if openStates.contains (linkState s k) then queueCtl s k 5 [] else s)

/-- Pairs put in ascending order of key. -/
def sorted {α : Type} (l : List (Nat × α)) : NMap α := l.foldl (fun m p => mapInsert m p.1 p.2) []

/-- The canonical configuration of the staging copies (R453); the bytes of a prefix and of a root are the model's layout (log entry 31). -/
def canonical (s : State) : List Byte :=
  let on (i : Nat) : Bool := s.rb Reg.courSealCfg i
  let stat := sorted (((s.slice 0).statS.flatMap (·.2)).map fun e => (e.key, e.data))
  let pfx (p : Prefix4) : Nat := ((p.root * 2 + b2n p.v6) * 2 ^ 128 + p.addr) * 256 + p.plen
  let lpm := sorted (s.dirs.lpmS.map fun p => (pfx p, p))
  beBytes 8 0x43544D5345414C31 ++ beBytes 4 (ownPendEpoch s * 2 ^ 24) ++ beBytes 4 (s.reg Reg.courSealCfg).toNat ++
    (if on 0 then stat.flatMap fun p => beBytes 8 p.1 ++ beBytes 4 p.2 else []) ++
    (if on 1 then (List.range 4096).flatMap fun v => beBytes 8 (mapGet 0 s.dirs.vlanS v).toNat else []) ++
    (if on 2 then (lpm.flatMap fun p => beBytes 1 p.2.root ++ beBytes 1 (if p.2.v6 then 6 else 4) ++ beBytes 16 p.2.addr ++ beBytes 1 p.2.plen ++ beBytes 4 p.2.result) ++
        (List.range 32).flatMap fun i => beBytes 4 (mapGet 0 s.dirs.rootS i) else []) ++
    (if on 3 then (List.range 1024).flatMap fun i => beBytes 4 (mapGet 0 s.epoch.sysS i).toNat else [])

/-- SEAL_READY (R454): the seal of the staging copies is computed. -/
def execSealReady (dt : Nat) (s : State) : Host.Outcome State Fault Refusal :=
  let s := advance s dt
  let h := sha256 (canonical s)
  let s1 := s.withCour fun c => { c with pseal := h }
  let s2 := (s1.setReg Reg.psealTagHi (BitVec.ofNat 32 (beNat (slice h 0 4)))).setReg Reg.psealTagLo (BitVec.ofNat 32 (beNat (slice h 4 4)))
  occur (s.life.rails && s.epoch.xmod && epochState s == 1 && !s.rb Reg.courSealStat 30) s (s2.setRf Reg.courSealStat 30 30 1)

/-! ### Frames (R430, R431, R457) -/

/-- The postmark of a parcel, adjusted for its link (R458). -/
def rxPm (s : State) (k pm : Nat) : Nat := ((pm : Int) + psUnits (s.rf (Reg.linkAdj k) 15 0)).toNat

/-- Whether a class 7 parcel is delivered (R457). -/
def sealPasses (s : State) (k : Nat) (b : List Byte) (pm : Nat) : Bool :=
  let e := pf b 1 7 0
  pClass b != 7 || !s.rb (Reg.linkCfg k) 31 ||
    (agreeing s k && (e == s.epoch.sealEpoch || ((e + 1) % 256 == s.epoch.sealEpoch && decide (pm ≤ s.epoch.lastAt + 100000 * nsUnit))))

/-- A DATA parcel forwarded from the receive buffer becomes an envelope, or passes through in transit, or is dropped (R431); its frame passes COUR_IN in flits. -/
def deliverData (k t : Nat) (b : List Byte) (s : State) : State :=
  let dst := pf b 0 31 22
  let rph := pf b 2 17 4
  let hops := pf b 3 15 11
  let mc := pf b 0 0 0 == 1
  let frame := pPayload b ++ fcsOf (pPayload b)
  let info (ph : Nat) : SrcInfo :=
    { src := 1, no := k, ten := pf b 0 4 1, colour := 0, cls := pClass b, ph := ph, mc := mc, group := if mc then rph else 0, ptp := false, ect := false, s0 := 0, s1 := 0,
      sealNo := pf b 1 7 0, pm := t }
  let s0 := s
  let s := s0.passed (hatchNo 0x18 k) (flitsOf frame.length)
  if mc then s.originate (info 0) frame fun e => courInfo e 0 0 0 false false (hops + 1) 0 0
  else if dst = ownModule s then
    if 4096 ≤ rph ∧ rph < 4352 then s0.count Reg.courNoaddrCnt else s.originate (info rph) frame
  else if hops = 15 then s0.count Reg.courHopsCnt
  else s.originate (info (4096 + k * 8 + pClass b)) frame fun e => courInfo e 0 dst (pf b 0 21 12) false false (hops + 1) (pf b 3 31 16) rph

/-- The parcels of a link's receive buffer forwarded while COUR_IN has credit, class 7 first (R20, R433). -/
def forwardRx (k : Nat) : Nat → State → State
  | 0, s => s
  | n + 1, s =>
    let l := (s.link k).rxBuf
    match (match l.find? fun x => pClass x.2 == 7 with | some x => some x | none => l.head?) with
    | none => s
    | some x => if s.clear (hatchNo 0x18 k) then forwardRx k n (deliverData k x.1 x.2 (s.withLink k fun l => { l with rxBuf := l.rxBuf.erase x })) else s

/-- As many as there are. -/
def forwardAll (s : State) (k : Nat) : State := forwardRx k (s.link k).rxBuf.length s

/-- An accepted DATA parcel enters the receive buffer, unless R457 drops it, and goes on as COUR_IN allows. -/
def acceptData (k pm : Nat) (b : List Byte) (s : State) : State :=
  let t := rxPm s k pm
  if !sealPasses s k b t then s.count (Reg.courXsealDropCnt k)
  else forwardAll (s.withLink k fun l => { l with rxBuf := l.rxBuf ++ [(t, b)] }) k

/-- DATA_RX (R20, R431, R433, R435, R436, R457): `pm` is the module time of the parcel's first bit. -/
def execDataRx (k dt pm : Nat) (b : List Byte) (s : State) : Host.Outcome State Fault Refusal :=
  parcelRx k dt b (fun t => t == 1 || t == 0 || decide (10 ≤ t)) openStates (fun b s => receiveSeq s k b (acceptData k pm b)) s

/-- What a Courier pigeonhole's envelope gives for its parcel's header (R430); a mirror copy, which has no address of its own, goes by the fabric word of its original or
to the peer. -/
def dataInfo (s : State) (k : Nat) (e : Env) : ParcelInfo :=
  let own := ownModule s
  if 20 ≤ e.length then ⟨cDst e, cSrc e, 1, eClass e, eTenancy e, cMc e, 0, eSealEpoch e, cRph e, cFlow e, cHops e⟩
  else if bitOf (ew e 13) 31 then ⟨ef e 13 29 20, own, 1, eClass e, eTenancy e, false, 0, eSealEpoch e, ef e 13 13 0, flowOf s e, 0⟩
  else ⟨peerOf s k, own, 1, eClass e, eTenancy e, false, 0, eSealEpoch e, ePh e, flowOf s e, 0⟩

/-- PARCEL_SEND (R430, R432): the head of a pigeonhole of a link is sent when its frame is whole and COUR_OUT, the window, the replay buffer and the peer's space allow; class 7 goes
first. A link in LEAVING carries only what was queued when it entered it (R425). An errored cut-through frame is voided instead. -/
def execParcelSend (k c dt : Nat) (s : State) : Host.Outcome State Fault Refusal :=
  let s := advance s dt
  let h := 4096 + k * 8 + c
  match phOf s h with
  | [] => .next s
  | e0 :: rest =>
    let e := withLength s e0
    let f := s.frame (eCell e)
    let errored := eCut e && f.ended == 2
    let body := f.bytes.take (if eTrunc e then min 124 (eLength e - 4) else eLength e - 4)
    let s1 := { s with depot := { s.depot with ph := mapSet [] s.depot.ph h rest } }
    let ovr := c ≠ 7 ∧ s.rf (Reg.linkCfg k) 29 16 < body.length
    let tag := cTag e
    let s2 := sendSeq s1 k (dataInfo s k e) body tag
    let s2 := s2.passed (hatchNo 0x19 k) (flitsOf body.length)
    let s3 := if tag = 0 then s2 else s2.withGroup ((tag - 1) / 256) fun x =>
      { x with bytes := mapSet 0 x.bytes ((tag - 1) % 256) (mapGet 0 x.bytes ((tag - 1) % 256) + body.length) }
    let mayGo (e : Env) : Bool := linkState s k == 4 || (linkState s k == 6 && bitOf (ew e 16) 1)
    let first := !(phOf s (4096 + k * 8 + 7)).any mayGo
    occur (s.dataPath && decide (k < 32) && decide (c < 8) && mayGo e0 &&
        (errored || (f.ended == 1 && (c == 7 || first) && (decide ovr || (canSend s k (eClass e) (body.length + 20) && s.clear (hatchNo 0x19 k)))))) s
      (if errored then noteClear (freeVoid (uncharge s1 (eCell e) h) (voidBy 0x08 72 e))
       else if ovr then noteClear (dropRef (s1.count Reg.courGmaxCnt) (eCell e) (some h))
       else dropRef s3 (eCell e) (some h))

/-! ### Time (R460, R461) -/

/-- An extended postmark in sixteen bytes (the layout is the model's, log entry 30), and the time one names. -/
def pmBytes (t : Nat) : List Byte := beBytes 8 (pmOf t) ++ beBytes 2 (fracOf t) ++ List.replicate 6 0
def pmTime (b : List Byte) : Nat := timeOfPm (beNat (slice b 0 8)) + beNat (slice b 8 2)

/-- TIME_SEND (R460): every 1 ms on a link in UP. -/
def execTimeSend (k dt : Nat) (s : State) : Host.Outcome State Fault Refusal :=
  let s := advance s dt
  let l := s.link k
  let t := ((s.now : Int) + psUnits (s.rf (Reg.linkAdj k) 31 16)).toNat
  let prev := match l.timesSent.getLast? with | some p => p.2 | none => 0
  let rx := match l.timeRx with | some p => p | none => (0, 0)
  let payload := pmBytes prev ++ pmBytes rx.2 ++ beBytes 4 rx.1 ++ beBytes 4 (l.timeNo + 1)
  occur (s.dataPath && decide (k < 32) && linkState s k == 4 && (l.timeSentAt == 0 || decide (l.timeSentAt + 1000000 * nsUnit ≤ s.up))) s
    ((sendCtl s k 7 payload).withLink k fun l =>
      { l with timeSentAt := s.up, timeNo := (l.timeNo + 1) % 2 ^ 32, timesSent := (l.timesSent ++ [((l.timeNo + 1) % 2 ^ 32, t)]).drop (l.timesSent.length - 7) })

/-- TIME_RX (R460, R461): from four postmarks the link's delay and the peer's offset; the parent's offset steers module time. -/
def execTimeRx (k dt pm : Nat) (b : List Byte) (s : State) : Host.Outcome State Fault Refusal :=
  parcelRx k dt b (· == 7) openStates (fun b s =>
    let l := s.link k
    let p := pPayload b
    let m := beNat (slice p 36 4)
    let mine := l.timesSent.find? fun q => q.1 == beNat (slice p 32 4)
    let s1 := s.withLink k fun l => { l with timeRx := some (m, rxPm s k pm) }
    match mine, l.timeRx with
    | some (_, t1), some (n4, t4) =>
      if n4 + 1 = m then
        let t2 : Int := pmTime (slice p 16 16)
        let t3 : Int := pmTime (slice p 0 16)
        let off : Int := ((t2 - t1) + (t3 - t4)) / 2
        let s2 := s1.withLink k fun l => { l with delay := ((t4 - t1 : Int) - (t3 - t2)) / 2 }
        if k = timeParent s ∧ courTimeOk s = true then
          let s3 := if srcOf s2 false = 3 then lockSource s2 false off else s2
          if srcOf s3 true = 3 then lockSource s3 true off else s3
        else s2
      else s1
    | _, _ => s1) s

/-! ### Alarms (R466, R467) -/

/-- ALARM_RX (R466): each record goes on toward the collector, or into this module's alarm queue. -/
def execAlarmRx (k dt : Nat) (b : List Byte) (s : State) : Host.Outcome State Fault Refusal :=
  parcelRx k dt b (· == 8) openStates (fun b s => receiveSeq s k b fun s =>
    (List.range (pLen b / 32)).foldl (fun t i =>
      let a := { alarmOf ((List.range 8).map fun j => beNat (slice b (16 + 32 * i + 4 * j) 4)) with fwd := true }
      if alarmForwards t a then t.forwardAlarm a else t.withEvt fun e => { e with inbox := e.inbox ++ [a] }) s) s

/-- The records of a link in the order they are sent: summaries first, the most urgent first within each kind. -/
def alarmOrder (l : CourLink) : List (Alarm × Nat) :=
  let by4 (q : List (Alarm × Nat)) : List (Alarm × Nat) := [0, 1, 2, 3].flatMap fun v => q.filter fun a => a.1.sev == v
  let idx {α : Type} (q : List α) : List (α × Nat) := q.zip (List.range q.length)
  by4 ((idx l.sums).map fun p => (p.1.record, p.2)) ++ (match l.ovr with | some x => [(x.record, 1000)] | none => []) ++
    by4 ((idx l.alarms).map fun p => (p.1, 2000 + p.2))

/-- ALARM_PARCEL_SEND (R466, R467): up to eight records in a parcel of class 0, within the bucket. -/
def execAlarmParcelSend (k dt : Nat) (s : State) : Host.Outcome State Fault Refusal :=
  let s := advance s dt
  let l := s.link k
  let now := (alarmOrder l).take 8
  let n := now.length
  let lanes := modeLanes s k
  let gone := now.map (·.2)
  let keep {α : Type} (base : Nat) (q : List α) : List α := ((q.zip (List.range q.length)).filter fun p => !gone.contains (base + p.2)).map (·.1)
  let payload := now.flatMap fun a => (alarmWords { a.1 with fwd := true }).flatMap fun w => beBytes 4 w.toNat
  let s1 := sendSeq s k { ctlInfo s k 8 0 with dst := s.rf Reg.courAlarmCfg 9 0 } payload 0
  occur (s.dataPath && decide (k < 32) && linkState s k == 4 && n != 0 && alarmRoom s k lanes n && canSend s k 0 (32 * n + 20)) s
    (s1.withLink k fun l =>
      { l with alarms := keep 2000 l.alarms, sums := keep 0 l.sums, ovr := if gone.contains 1000 then none else l.ovr,
               alarmMissing := alarmLack s k lanes + alarmCost n * 2 ^ 21, alarmAt := s.up })

/-! ### Buckets (R446 to R450) -/

/-- BUCKET_MOVE_DRAIN (R447): nothing of the bucket is left on its old link, and FDT µs more have passed. -/
def execBucketMoveDrain (g b dt : Nat) (s : State) : Host.Outcome State Fault Refusal :=
  let s := noteClear (advance s dt)
  match moveOf s g b with
  | some m => match m.clearAt with
    | some t => occur (s.dataPath && decide (t + s.rf Reg.courMpCfg 15 8 * 1000 * nsUnit ≤ s.up)) s (endMove s g b)
    | none => .next s
  | none => .next s

/-- BUCKET_MOVE_TIMEOUT (R447): 50 µs after the move began the held parcels go at once, and the move is counted. -/
def execBucketMoveTimeout (g b dt : Nat) (s : State) : Host.Outcome State Fault Refusal :=
  let s := advance s dt
  match moveOf s g b with
  | some m => occur (s.dataPath && decide (m.since + 50000 * nsUnit ≤ s.up)) s (endMove (s.count Reg.courOrderRiskCnt) g b)
  | none => .next s

/-- The bytes a way has carried in the interval. -/
def wayLoad (x : CourGroup) (w : Nat) : Nat :=
  (((List.range 256).filter fun b => x.buckets.getD b 8 == w).map fun b => mapGet 0 x.bytes b).foldl (· + ·) 0

/-- The bucket the monitor moves and the way it moves to (R450). -/
def monitorPick (s : State) (g : Nat) : Option (Nat × Nat) :=
  let x := s.group g
  let u := usableWays s g
  let load := wayLoad x
  let total := (u.map load).foldl (· + ·) 0
  let heavy := u.foldl (fun h w => if load h < load w then w else h) (u.headD 0)
  let light := u.foldl (fun h w => if load w < load h then w else h) (u.headD 0)
  let may (b : Nat) : Bool := x.buckets.getD b 8 == heavy && decide (load light + mapGet 0 x.bytes b < load heavy) && (moveOf s g b).isNone &&
    (mapGet 0 x.moved b == 0 || decide (mapGet 0 x.moved b + 15 < x.intervals))
  if u.length < 2 ∨ load heavy * u.length * 100 ≤ total * (100 + s.rf Reg.courMpCfg 30 24) then none
  else
    match (List.range 256).filter may with
    | [] => none
    | b :: r => some (r.foldl (fun q o => if mapGet 0 x.bytes q < mapGet 0 x.bytes o then o else q) b, light)

/-- BUCKET_MONITOR (R450): every MON ms the monitor of a group with two usable ways may begin one move. -/
def execBucketMonitor (g dt : Nat) (s : State) : Host.Outcome State Fault Refusal :=
  let s := advance s dt
  let fresh (t : State) : State := t.withGroup g fun x => { x with bytes := [], intervals := x.intervals + 1, monAt := s.up }
  occur (s.dataPath && decide (g < 256) && decide (2 ≤ (usableWays s g).length) && decide ((s.group g).monAt + s.rf Reg.courMpCfg 7 0 * 1000000 * nsUnit ≤ s.up)) s
    (match monitorPick s g with
     | some (b, dst) => fresh (moveBucket g b dst false s)
     | none => fresh s)

/-- Every group takes a new seed (R446). -/
def reseedAll (s : State) : State := s.withCour fun c => { c with seedGen := c.seedGen + 1, reseedAt := s.up }

/-- RESEED (R446): every RESEED s. -/
def execReseed (dt : Nat) (s : State) : Host.Outcome State Fault Refusal :=
  let s := advance s dt
  occur (s.life.rails && s.rf Reg.courMpCfg 23 16 != 0 && decide (s.cour.reseedAt + s.rf Reg.courMpCfg 23 16 * secUnit ≤ s.up)) s (reseedAll s)

/-- RESEED_NOW (R446). -/
def execReseedNow (m : Nat) (val : Word) (s : State) : Host.Outcome State Fault Refusal :=
  occur (s.life.rails && bitOf val 31) s (s.command m Reg.courMpCfg val (fun _ => false) reseedAll)

/-! ### Route and group registers (R440, R441) -/

/-- ROUTE_WRITE (R440): WR writes the data register into an entry. -/
def execRouteWrite (m : Nat) (val : Word) (s : State) : Host.Outcome State Fault Refusal :=
  occur (s.life.rails && bitOf val 31) s
    (s.command m Reg.routeSel val (fun _ => false) fun s =>
      s.withCour fun c => { c with routes := mapSet 0 c.routes (fld val 9 0) (s.reg Reg.routeData) })

/-- ROUTE_READ (R440): RD loads an entry into the data register. -/
def execRouteRead (m : Nat) (val : Word) (s : State) : Host.Outcome State Fault Refusal :=
  occur (s.life.rails && bitOf val 30 && !bitOf val 31) s
    (s.command m Reg.routeSel val (fun _ => false) fun s => s.setReg Reg.routeData (routeOf s (fld val 9 0)))

/-- Way slots as two words, and from them. -/
def waysOf (a b : Word) : List Nat := ((List.range 4).map fun i => bits a.toNat (8 * i + 7) (8 * i)) ++ (List.range 4).map fun i => bits b.toNat (8 * i + 7) (8 * i)
def wayWord (l : List Nat) (n : Nat) : Word := BitVec.ofNat 32 (((List.range 4).map fun i => l.getD (n + i) 0 * 2 ^ (8 * i)).foldl (· + ·) 0)

/-- GROUP_WRITE (R441): WR writes a group's way slots; buckets of ways no longer valid move. -/
def execGroupWrite (m : Nat) (val : Word) (s : State) : Host.Outcome State Fault Refusal :=
  occur (s.life.rails && bitOf val 31) s
    (s.command m Reg.grpSel val (fun _ => false) fun s =>
      let g := fld val 7 0
      regroup (s.withGroup g fun x => { x with ways := (waysOf (s.reg Reg.grpWays0) (s.reg Reg.grpWays1)).map fun w => w % 32 + (if w.testBit 7 then 128 else 0) }) g)

/-- GROUP_READ (R441): RD loads a group's way slots. -/
def execGroupRead (m : Nat) (val : Word) (s : State) : Host.Outcome State Fault Refusal :=
  occur (s.life.rails && bitOf val 30 && !bitOf val 31) s
    (s.command m Reg.grpSel val (fun _ => false) fun s =>
      let l := (s.group (fld val 7 0)).ways
      (s.setReg Reg.grpWays0 (wayWord l 0)).setReg Reg.grpWays1 (wayWord l 4))

end Sys2Proof.Machine
end

