-- ==== Sys2Proof/Machine/Mailbox.lean ====
section
/-! DEFINITION. The Hall mailbox, its agent and the boot flash it serves, function-level reset (R535 to R542, R489), and the pin WITHDRAW_REQ_N (R560). -/

namespace Sys2Proof.Machine

/-! ### Requests (R538) -/

/-- A word of a function's mailbox page in Hall shared memory. -/
def mbxWord (s : State) (f ofs : Nat) : Word := (shmWord s 81 (0x1F0000 + f * 0x200 + ofs)).data
def setMbxWord (s : State) (f ofs : Nat) (v : Word) : State := s.setShmWord 81 (0x1F0000 + f * 0x200 + ofs) ⟨tagINT, v⟩

/-- Fields of a request header, and the request data. -/
def reqOp (s : State) (f : Nat) : Nat := fld (mbxWord s f 0) 31 24
def reqLen (s : State) (f : Nat) : Nat := min 128 (fld (mbxWord s f 0) 23 16)
def reqTag (s : State) (f : Nat) : Nat := fld (mbxWord s f 0) 15 8
def reqData (s : State) (f : Nat) : List Byte := shmBytes s 81 (0x1F0000 + f * 0x200 + 0x40) (reqLen s f)

/-- Whether a function's mailbox is BUSY. -/
def mbxBusy (s : State) (f : Nat) : Bool := s.rb (Reg.mbxStat f) 31

/-- HALL_MBX_STAT shows a completed request: BUSY clear, DONE set; vector 1 of the function is raised, which is never moderated (R538, R558). -/
def mbxDone (s : State) (f status rlen tag : Nat) : State :=
  let v := b2n (s.rb (Reg.mbxStat f) 29) * 2 ^ 29 + 2 ^ 30 + status % 256 * 2 ^ 16 + rlen % 256 * 2 ^ 8 + tag % 256
  ({ s with mbxQ := s.mbxQ.filter (· != f), mbxFw := mapErase s.mbxFw f, mbxRung := s.mbxRung.filter (· != f) }.setReg (Reg.mbxStat f) (BitVec.ofNat 32 v)).msixSend f 1

/-- A request completed by the agent or the module: the response data, RHDR with V = 1, and HALL_MBX_STAT. -/
def mbxAnswer (s : State) (f status : Nat) (data : List Byte) : State :=
  let tag := reqTag s f
  let s1 := writeShm s 81 (0x1F0000 + f * 0x200 + 0xC0) data false
  let s2 := setMbxWord s1 f 0xC (BitVec.ofNat 32 (2 ^ 31 + status % 256 * 2 ^ 16 + data.length * 2 ^ 8 + tag))
  mbxDone s2 f status data.length tag

/-- The Hall engine that runs the agent, and whether any is left. -/
def agentEngine (s : State) : Nat := 224 + s.rf Reg.mbxCfg 25 24
def hallGone (s : State) : Bool := [224, 225, 226, 227].all (engFailed s)

/-- Opcodes the agent serves (table of mailbox agent commands). -/
def agentOps : List Nat := [0x01, 0x02, 0x10, 0x11, 0x12, 0x13, 0x1F]

/-- A request handed to its server (R538, R539): the agent's queue, firmware, or neither. -/
def handRequest (s : State) (f : Nat) : State :=
  let op := reqOp s f
  if hallGone s then mbxAnswer s f 1 []
  else if agentOps.contains op then { s with mbxQ := s.mbxQ ++ [f] }
  else if 0x80 ≤ op ∧ s.rf Reg.mbxCfg 15 0 ≠ agentThread s then { s with mbxFw := mapInsert (mapErase s.mbxFw f) f s.up }
  else mbxAnswer s f 1 []

/-- GO (R538, R542): a write of 1 to HALL_MBX_CTL[31] of a function's page; while BUSY it only sets REJECT. -/
def execMbxGo (m f : Nat) (val : Word) (s : State) : Host.Outcome State Fault Refusal :=
  occur (s.life.rails && decide (f < 16) && bitOf val 31) s
    (s.command m (Reg.mbxCtl f) val (fun s => mbxBusy s f) fun s =>
      let s1 := setMbxWord s f 0xC (putFld (mbxWord s f 0xC) 31 31 0)
      handRequest ((s1.setRf (Reg.mbxStat f) 30 30 0).setRf (Reg.mbxStat f) 31 31 1) f)

/-! ### The agent's commands (R540) -/

/-- Whether the request at the head of the agent's queue is of an opcode, and the agent runs. -/
def serving (s : State) (op : Nat) : Option Nat :=
  match s.mbxQ with
  | f :: _ => if reqOp s f = op ∧ s.life.rails = true ∧ engFailed s (agentEngine s) = false then some f else none
  | [] => none

/-- A command of the agent: what it answers is a status and response data. -/
def agentCmd (s : State) (op : Nat) (act : Nat → State → State × Nat × List Byte) : Host.Outcome State Fault Refusal :=
  match serving s op with
  | some f =>
    let r := act f s
    .next (mbxAnswer r.1 f r.2.1 r.2.2)
  | none => .next s

/-- PING. -/
def execPing (dt : Nat) (s : State) : Host.Outcome State Fault Refusal :=
  agentCmd (advance s dt) 0x01 fun f s => (s, 0, reqData s f)

/-- SET_WINDOW (R535): a function above 0 may name only itself. -/
def execSetWindow (dt : Nat) (s : State) : Host.Outcome State Fault Refusal :=
  agentCmd (advance s dt) 0x02 fun f s =>
    let d := reqData s f
    let g := (d.getD 1 0).toNat
    if d.length < 2 ∨ 16 ≤ g then (s, 2, []) else if f ≠ 0 ∧ g ≠ f then (s, 3, []) else (s.setReg (Reg.pfWin g) ((d.getD 0 0).setWidth 32), 0, [])

/-- A byte of the boot flash: what has been written, or what the part was shipped with. -/
def flashByte (s : State) (a : Nat) : Byte := match s.flash.find? fun p => p.1 == a with | some p => p.2 | none => Config.flashAsShipped a
def flashBytes (s : State) (a n : Nat) : List Byte := (List.range n).map fun i => flashByte s (a + i)

/-- Bytes programmed into the flash, from an address on. -/
def flashPut (s : State) (a : Nat) (b : List Byte) : State :=
  { s with flash := s.flash.filter (fun p => decide (p.1 < a)) ++ b.mapIdx (fun i x => (a + i, x)) ++ s.flash.filter fun p => decide (a + b.length ≤ p.1) }

/-- The bank that booted, if one did. -/
def bootedBank (s : State) : Option Nat :=
  let r := s.reg Reg.bootStat
  if (if bitOf r 31 then fld r 23 20 else fld r 27 24) = 0 then some (b2n (bitOf r 31)) else none

/-- Whether an address lies in the bank that booted (R489). -/
def inBooted (s : State) (a : Nat) : Bool := bootedBank s == some (a / 0x8000000)

/-- FLASH_INFO: SEQ and SVN of bank A, of bank B, and HALL_BOOT_STAT. -/
def execFlashInfo (dt : Nat) (s : State) : Host.Outcome State Fault Refusal :=
  agentCmd (advance s dt) 0x10 fun f s =>
    if f ≠ 0 then (s, 3, [])
    else (s, 0, flashBytes s 0xC 4 ++ flashBytes s 8 4 ++ flashBytes s 0x800000C 4 ++ flashBytes s 0x8000008 4 ++ leBytes 4 (s.reg Reg.bootStat).toNat)

/-- FLASH_READ; `bad` says that the flash could not be read. -/
def execFlashRead (dt : Nat) (bad : Bool) (s : State) : Host.Outcome State Fault Refusal :=
  agentCmd (advance s dt) 0x11 fun f s =>
    let d := reqData s f
    let a := leNat (slice d 0 4)
    let n := (d.getD 4 0).toNat
    if f ≠ 0 then (s, 3, [])
    else if d.length < 5 ∨ n = 0 ∨ 128 < n ∨ 0x10000000 < a + n then (s, 2, [])
    else if bad then (s, 4, []) else (s, 0, flashBytes s a n)

/-- FLASH_ERASE (R489): a sector of the bank that did not boot. -/
def execFlashErase (dt : Nat) (bad : Bool) (s : State) : Host.Outcome State Fault Refusal :=
  agentCmd (advance s dt) 0x12 fun f s =>
    let d := reqData s f
    let a := leNat (slice d 0 4)
    if f ≠ 0 then (s, 3, [])
    else if d.length < 4 ∨ a % 0x10000 ≠ 0 ∨ 0x10000000 ≤ a then (s, 2, [])
    else if inBooted s a then (s, 3, [])
    else if bad then (s, 4, []) else (flashPut s a (List.replicate 0x10000 Config.erasedByte), 0, [])

/-- FLASH_WRITE (R489). -/
def execFlashWrite (dt : Nat) (bad : Bool) (s : State) : Host.Outcome State Fault Refusal :=
  agentCmd (advance s dt) 0x13 fun f s =>
    let d := reqData s f
    let a := leNat (slice d 0 4)
    let b := d.drop 4
    if f ≠ 0 then (s, 3, [])
    else if b.length < 16 ∨ 112 < b.length ∨ b.length % 16 ≠ 0 ∨ a % 16 ≠ 0 ∨ 0x10000000 < a + b.length then (s, 2, [])
    else if inBooted s a ∨ inBooted s (a + b.length - 1) then (s, 3, [])
    else if bad then (s, 4, []) else (flashPut s a b, 0, [])

/-- MBX_RESTART (R540): in SETUP, SERVICE and REDUCED as LIFE_CTL.RESTART, in ENTRY as SYS_RESET_N, and refused elsewhere. -/
def execMbxRestart (dt : Nat) (badSlots badKeys : List Nat) (s : State) : Host.Outcome State Fault Refusal :=
  let s := advance s dt
  match serving s 0x1F with
  | some f => .next
      (if s.mode = 0 then enterEntry s 2 badSlots badKeys
       else if 1 ≤ s.mode ∧ s.mode ≤ 3 then beginHoldup s 6
       else mbxAnswer s f 3 [])
  | none => .next s

/-! ### Firmware (R538, R541) -/

/-- MBX_FW_OPCODE (R538): doorbell 0 of the target thread is rung for a function's request, once. -/
def execMbxFwOpcode (f : Nat) (s : State) : Host.Outcome State Fault Refusal :=
  occur (s.life.rails && (s.mbxFw.any fun p => p.1 == f) && !s.mbxRung.contains f) s
    (ringBell { s with mbxRung := s.mbxRung ++ [f] } (s.rf Reg.mbxCfg 15 0) 0)

/-- MBX_RESPONSE (R538, R541): RHDR has been stored with V = 1: it completes the request, or comes too late and is counted. -/
def execMbxResponse (f : Nat) (s : State) : Host.Outcome State Fault Refusal :=
  let s1 := { s with mbxStored := s.mbxStored.erase f }
  let r := mbxWord s f 0xC
  occur (s.life.rails && s.mbxStored.contains f) s
    (if mbxBusy s f then mbxDone s1 f (fld r 23 16) (fld r 15 8) (fld r 7 0) else s1.count Reg.evtMbxLateCnt)

/-- MBX_FW_TIMEOUT (R541). -/
def execMbxFwTimeout (f dt : Nat) (s : State) : Host.Outcome State Fault Refusal :=
  let s := advance s dt
  let due := match s.mbxFw.find? fun p => p.1 == f with | some p => decide (p.2 + s.rf Reg.mbxCfg 23 16 * msUnit ≤ s.up) | none => false
  occur (s.life.rails && due) s ((mbxDone s f 5 0 (reqTag s f)).raise 0x0902 81 f (reqOp s f))

/-! ### The agent's engine (R539) -/

/-- MBX_AGENT_RESTART (R539): the agent's engine has failed: the request served is abandoned and the agent restarts on the next Hall engine, or every request completes
UNSUPPORTED when none is left. -/
def execMbxAgentRestart (dt : Nat) (s : State) : Host.Outcome State Fault Refusal :=
  let s := advance s dt
  let a := agentEngine s
  let s1 := match s.mbxQ with | f :: _ => mbxAnswer s f 6 [] | [] => s
  let s2 := match [224, 225, 226, 227].find? fun e => decide (a < e) && !engFailed s e with
    | some e =>
      let th := e * 16 + 15
      let t := (resetThr s1 th).setRf (thrCfgR th) 31 31 0
      (t.setThrState th 0).setRf Reg.mbxCfg 25 24 (e - 224)
    | none => s1.mbxQ.foldl (fun t f => mbxAnswer t f 1 []) s1
  occur (s.life.rails && engFailed s a && (!hallGone s || !s.mbxQ.isEmpty)) s s2

/-! ### Function-level reset (R537, R542) -/

/-- FLR (R537): the window, the mailbox request and the keys of a function. -/
def execFlr (f : Nat) (s : State) : Host.Outcome State Fault Refusal :=
  let s1 := s.setReg (Reg.pfWin f) 0
  let s2 := if mbxBusy s1 f then mbxDone s1 f 6 0 (reqTag s1 f) else s1
  occur (s.life.rails && decide (f < 16)) s (ownerReset s2 (0x0F00 + f))

/-! ### WITHDRAW_REQ_N (R560) -/

/-- WITHDRAW_REQ (R560, R500, R503): the line has held a new level for 1 ms. A falling edge acts once; the line must then be high for 1 ms before another can. -/
def execWithdrawReq (dt : Nat) (high : Bool) (s : State) : Host.Outcome State Fault Refusal :=
  let s := advance s dt
  let s1 := s.withLife fun l => { l with wdreqHigh := high, wdreqArmed := high && s.mode != 0, wdreqSince := s.up, wdreqStuck := false }
  occur (s.life.rails && high != s.life.wdreqHigh) s
    (if !high && s.life.wdreqArmed && decide (1 ≤ s.mode) && decide (s.mode ≤ 3) then s1.beginWithdraw else s1)

/-- WDREQ_STUCK (R560): the line has been held low for 60 s. -/
def execWdreqStuck (dt : Nat) (s : State) : Host.Outcome State Fault Refusal :=
  let s := advance s dt
  occur (s.life.rails && !s.life.wdreqHigh && !s.life.wdreqStuck && decide (s.life.wdreqSince + 60 * secUnit ≤ s.up)) s
    (((s.withLife fun l => { l with wdreqStuck := true }).setRf Reg.wdreqStat 30 30 1).raise 0x0905 81 0)

end Sys2Proof.Machine
end

