-- ==== Sys2Proof/Machine/Recorder.lean ====
section
/-! DEFINITION. The disturbance recorder's ring in DRAM (R393, R394). -/

namespace Sys2Proof.Machine

/-- Slots of the ring. -/
def recSlots (s : State) : Nat := s.rf Reg.recSize 12 0 * 16384

/-- The module address of a slot of the ring, in tenancy 0's region. -/
def recAddr (s : State) (slot : Nat) : Nat :=
  regionBase s 0 + (s.reg Reg.recBaseLo).toNat + 2 ^ 32 * s.rf Reg.recBaseHi 7 0 + slot * 64

/-- REC_WRITE (R393): the oldest queued record is written at the slot WPTR, which advances modulo the ring size. -/
def execRecWrite (dt : Nat) (s : State) : Host.Outcome State Fault Refusal :=
  let s := advance s dt
  match s.dram.recQ with
  | [] => .next s
  | t :: q =>
    let slot := s.rf Reg.recWptr 26 0 % recSlots s
    let l := ringWrites s 5 (recAddr s slot) (wordBytes t)
    let next := (slot + 1) % recSlots s
    let done := s.dram.recDone + 1
    let s1 := l.foldl receive (s.withDram fun d => { d with recQ := q, recDone := done })
    let s2 := s1.setRf Reg.recWptr 26 0 next
    occur (s.life.rails && s.dramReady && s.rb Reg.recCfg 31 && !s.rb Reg.recCfg 28 && l.all (hasRoom s)) s
      (if recSlots s ≤ done then s2.setRf Reg.recWptr 31 31 1 else s2)

/-- EN rises, or ARM: WRAPPED tells from here on whether the ring has been filled once. -/
def recFresh (s : State) : State := (s.setRf Reg.recWptr 31 31 0).withDram fun d => { d with recDone := 0 }

/-- ARM's effect: writing resumes at WPTR, and the first record written after it has GAP 0. -/
def recArmed (s : State) : State := (recFresh (s.setRf Reg.recCfg 28 28 0)).withDram fun d => { d with recGap := 0 }

/-- What a write of DRAM_REC_CFG does when EN rises. -/
def recEnabled (wasOn : Bool) (s : State) : State := if s.rb Reg.recCfg 31 && !wasOn then recFresh s else s

/-- A TRIG while a trigger is pending or frozen is refused. -/
def recCfgRefused (val : Word) (s : State) : Bool := bitOf val 30 && s.rf Reg.recCfg 28 27 != 0

/-- TRIG (R394): with EN 1 the postmark is captured and the post-trigger time starts. -/
def execRecTrig (m : Nat) (val : Word) (s : State) : Host.Outcome State Fault Refusal :=
  let on := s.rb Reg.recCfg 31
  occur (s.life.rails && bitOf val 30) s
    (s.command m Reg.recCfg val (recCfgRefused val) fun s =>
      let s1 := recEnabled on (if bitOf val 29 then recArmed s else s)
      if s1.rb Reg.recCfg 31 then
        (((s1.setReg Reg.recTrigLo (BitVec.ofNat 32 (pmNow s))).setReg Reg.recTrigHi (BitVec.ofNat 32 (pmNow s / 2 ^ 32))).setRf Reg.recCfg 27 27 1).withDram
          fun d => { d with trigAt := s.up }
      else s1)

/-- ARM (R394). -/
def execRecArm (m : Nat) (val : Word) (s : State) : Host.Outcome State Fault Refusal :=
  let on := s.rb Reg.recCfg 31
  occur (s.life.rails && bitOf val 29 && !bitOf val 30) s
    (s.command m Reg.recCfg val (recCfgRefused val) fun s => recEnabled on (recArmed s))

/-- POST_TRIGGER_EXPIRY (R394): POST_MS ms after the trigger the ring is frozen; records still queued are not written. -/
def execPostTriggerExpiry (dt : Nat) (s : State) : Host.Outcome State Fault Refusal :=
  let s := advance s dt
  occur (s.life.rails && s.rb Reg.recCfg 27 && decide (s.dram.trigAt + s.rf Reg.recCfg 15 0 * 1000000 * nsUnit ≤ s.up)) s
    ((s.setRf Reg.recCfg 28 27 2).withDram fun d => { d with recQ := [] })

end Sys2Proof.Machine
end

