-- ==== Sys2Proof/Machine/SideBus.lean ====
section
/-! DEFINITION. The side bus and the MDIO controllers (chapter 16, R561 to R564). -/

namespace Sys2Proof.Machine

/-- A change of the side bus. -/
def State.withSb (s : State) (f : SbSt → SbSt) : State := { s with sb := f s.sb }

/-- HALL_SB_CFG.STATE: 0 IDLE, 1 BUSY, 2 RECOVERING, 3 DEAD. -/
def sbState (s : State) : Nat := s.rf Reg.sbCfg 29 28

/-- A slot's transfer completes with a STATUS. -/
def sbComplete (s : State) (slot status : Nat) : State :=
  s.setReg (Reg.sbStat slot) (BitVec.ofNat 32 (2 ^ 30 + status))

/-- Whether a slot's transfer waits or runs. -/
def sbBusy (s : State) (slot : Nat) : Bool := s.rb (Reg.sbStat slot) 31

/-- The bus taken up by the next transfer that waits, the slots in turn. -/
def sbNext (s : State) : State :=
  let a := 1 - s.sb.last
  let pick := if sbBusy s a then some a else if sbBusy s (1 - a) then some (1 - a) else none
  match pick with
  | some k => (s.withSb fun b => { b with active := some k, last := k }).setRf Reg.sbCfg 29 28 1
  | none => (s.withSb fun b => { b with active := none }).setRf Reg.sbCfg 29 28 0

/-- A transfer asked for by GO (R561): DEAD completes it at once, an operation with no byte to move is BAD_PARAM, and otherwise it
waits its turn on the bus. -/
def sbGo (slot : Nat) (val : Word) (s : State) : State :=
  let op := fld val 30 29
  let none_ := (op != 1 && fld val 15 8 == 0) || (op != 0 && fld val 7 0 == 0)
  if sbState s = 3 then sbComplete s slot 5
  else if none_ then sbComplete s slot 6
  else
    let s1 := s.setReg (Reg.sbStat slot) 0x80000000
    if sbState s = 0 then sbNext s1 else s1

/-- A write of HALL_SB_CMD with GO of one of the operations; refused while BUSY, and with the controller off. -/
def sbCommand (op m slot : Nat) (val : Word) (s : State) : Host.Outcome State Fault Refusal :=
  occur (s.life.rails && decide (slot < 2) && bitOf val 31 && fld val 30 29 == op) s
    (s.command m (Reg.sbCmd slot) val (fun s => sbBusy s slot || !s.rb Reg.sbCfg 31) (sbGo slot val))

/-- SB_WRITE (R561). -/
def execSbWrite (m slot : Nat) (val : Word) (s : State) : Host.Outcome State Fault Refusal := sbCommand 0 m slot val s

/-- SB_READ (R561). -/
def execSbRead (m slot : Nat) (val : Word) (s : State) : Host.Outcome State Fault Refusal := sbCommand 1 m slot val s

/-- SB_WRITE_READ (R561): a write, a repeated start and a read. -/
def execSbWriteRead (m slot : Nat) (val : Word) (s : State) : Host.Outcome State Fault Refusal := sbCommand 2 m slot val s

/-- Bytes read put into DATA0 to DATA7 of a slot, the first at bits [7:0] of DATA0. -/
def sbTake (s : State) (slot : Nat) (data : List Byte) : State :=
  (List.range data.length).foldl (fun t i =>
    t.setRf (Reg.sbData slot (i / 4)) (8 * (i % 4) + 7) (8 * (i % 4)) (data.getD i 0).toNat) s

/-- SB_DONE (R561, R563): the running transfer ends: 0 OK, 1 NACK, 2 TIMEOUT, 3 ARB_LOST, and 4 PEC_ERR with PEC in use. A read
puts the bytes read into DATA. After a TIMEOUT the controller recovers the bus; otherwise the other slot has its turn. -/
def execSbDone (slot dt status : Nat) (data : List Byte) (s : State) : Host.Outcome State Fault Refusal :=
  let s := advance s dt
  let cmd := s.reg (Reg.sbCmd slot)
  let rlen := if fld cmd 30 29 = 0 then 0 else fld cmd 7 0
  let can := decide (status < 4) || (status == 4 && bitOf cmd 28)
  let whole := status != 0 || data.length == rlen
  let s1 := sbComplete (sbTake s slot (data.take rlen)) slot status
  occur (s.life.rails && sbState s == 1 && s.sb.active == some slot && can && whole) s
    (if status = 2 then (s1.withSb fun b => { b with active := none, tries := 0 }).setRf Reg.sbCfg 29 28 2 else sbNext s1)

/-- Every transfer that waits while the bus is DEAD completes DEAD. -/
def sbAllDead (s : State) : State :=
  [0, 1].foldl (fun t k => if sbBusy t k then sbComplete t k 5 else t) s

/-- SB_RECOVERY (R563): one attempt of 9 clocks and a STOP frees the bus (`ok`) or does not. It is made when a line has been
stuck for 35 ms or after a TIMEOUT, up to 3 times 1 ms apart; then the bus is DEAD, SB_DEAD is raised, and an attempt follows
every second. -/
def execSbRecovery (dt : Nat) (ok : Bool) (s : State) : Host.Outcome State Fault Refusal :=
  let s := advance s dt
  let st := sbState s
  let wait := if st = 3 then secUnit else if st = 2 ∧ 0 < s.sb.tries then 1000000 * nsUnit else 0
  let n := if st = 2 then s.sb.tries + 1 else if st = 3 then 3 else 1
  let s1 := (s.count Reg.evtSbRecoverCnt).withSb fun b => { b with tries := n, triedAt := s.up, active := none }
  occur (s.life.rails && s.rb Reg.sbCfg 31 && decide (s.sb.triedAt + wait ≤ s.up)) s
    (if ok then sbNext (s1.withSb fun b => { b with tries := 0 })
     else if st = 3 then s1
     else if 3 ≤ n then sbAllDead ((s1.setRf Reg.sbCfg 29 28 3).raise 0x0903 81 0)
     else s1.setRf Reg.sbCfg 29 28 2)

/-! ### MDIO (R564) -/

/-- A write of HALL_MDIO_CMD with GO of one of the frames: refused while BUSY, and with the controller off. -/
def mdioCommand (c45 : Bool) (op m n : Nat) (val : Word) (s : State) : Host.Outcome State Fault Refusal :=
  occur (s.life.rails && decide (n < 4) && bitOf val 31 && bitOf val 26 == c45 && fld val 25 24 == op) s
    (s.command m (Reg.mdioCmd n) val (fun s => s.rb (Reg.mdioCmd n) 30 || !s.rb (Reg.mdioCfg n) 31)
      fun s => s.setRf (Reg.mdioCmd n) 30 29 2)

/-- MDIO_C22_WRITE. -/
def execMdioC22Write (m n : Nat) (val : Word) (s : State) : Host.Outcome State Fault Refusal := mdioCommand false 1 m n val s

/-- MDIO_C22_READ. -/
def execMdioC22Read (m n : Nat) (val : Word) (s : State) : Host.Outcome State Fault Refusal := mdioCommand false 2 m n val s

/-- MDIO_C45_ADDRESS. -/
def execMdioC45Address (m n : Nat) (val : Word) (s : State) : Host.Outcome State Fault Refusal := mdioCommand true 0 m n val s

/-- MDIO_C45_WRITE. -/
def execMdioC45Write (m n : Nat) (val : Word) (s : State) : Host.Outcome State Fault Refusal := mdioCommand true 1 m n val s

/-- MDIO_C45_READ_INCREMENT. -/
def execMdioC45ReadIncrement (m n : Nat) (val : Word) (s : State) : Host.Outcome State Fault Refusal := mdioCommand true 2 m n val s

/-- MDIO_C45_READ. -/
def execMdioC45Read (m n : Nat) (val : Word) (s : State) : Host.Outcome State Fault Refusal := mdioCommand true 3 m n val s

/-- Whether an MDIO command reads. -/
def mdioReads (cmd : Word) : Bool := if bitOf cmd 26 then decide (2 ≤ fld cmd 25 24) else fld cmd 25 24 == 2

/-- MDIO_DONE (R564): the frame of controller n ends: 0 OK, 1 NO_PHY (a read whose device does not drive the turnaround: DATA reads
0xFFFF), 2 STUCK (no frame sent). A read takes the 16 bits read. -/
def execMdioDone (n dt res : Nat) (data : BitVec 16) (s : State) : Host.Outcome State Fault Refusal :=
  let s := advance s dt
  let cmd := s.reg (Reg.mdioCmd n)
  let rd := mdioReads cmd
  let s1 := if rd && res == 0 then s.setRf (Reg.mdioData n) 15 0 data.toNat
    else if rd && res == 1 then s.setRf (Reg.mdioData n) 15 0 0xFFFF else s
  occur (s.life.rails && decide (n < 4) && bitOf cmd 30 && (res == 0 || res == 2 || (res == 1 && rd))) s
    (s1.setRf (Reg.mdioCmd n) 30 27 (4 + res))

end Sys2Proof.Machine
end

