-- ==== Sys2Proof/Machine/Stats.lean ====
section
/-! DEFINITION. Snapshots of the statistics sets and clears of the event counters (chapter 16, R545 to R547; R579). -/

namespace Sys2Proof.Machine

/-- The statistics set whose SNAP register stands at an offset: how many counters it has. -/
def statSet (ofs : Nat) : Option Nat :=
  if regAt ⟨"", 0x80800, [(4096, 128), (256, 4)], 0, 0, 0, 0, 0, false, false, []⟩ ofs then some 25
  else if regAt ⟨"", 0x80C00, [(4096, 128)], 0, 0, 0, 0, 0, false, false, []⟩ ofs then some 6
  else if regAt ⟨"", 0x1D0800, [(64, 32)], 0, 0, 0, 0, 0, false, false, []⟩ ofs then some 6
  else if regAt ⟨"", 0x180E00, [(64, 16)], 0, 0, 0, 0, 0, false, false, []⟩ ofs then some 6
  else none

/-- Every counter of a set copied into its snapshot registers, and DONE set (R545). -/
def snapSet (s : State) (base n : Nat) : State :=
  let s1 := (List.range n).foldl (fun t i =>
    let v := mapGet 0 t.stats (base + i)
    (t.setReg (base + 16 + 8 * i) (BitVec.ofNat 32 v)).setReg (base + 20 + 8 * i) (BitVec.ofNat 32 (v / 2 ^ 32))) s
  s1.setRf base 29 29 1

/-- The counters of a set zeroed. -/
def zeroSet (s : State) (base n : Nat) : State := { s with stats := mapClear s.stats base n }

/-- A lane's statistics of its line (R581): invalid blocks, codewords corrected and not, and BIP errors of the first lane of 100G_4L. No row of the table brings one: what the line
has brought since the last snapshot is a free value, while the lane is enabled (log entry 79). -/
def lineCounted (s : State) (ofs : Nat) : State :=
  if ofs < 0x80000 ∨ 0x100000 ≤ ofs ∨ ofs % 0x1000 ≠ 0xC00 then s
  else
    let l := (ofs - 0x80000) / 0x1000
    let cfg := s.reg (Reg.laneCfg l)
    let kinds := if !bitOf cfg 16 then [] else [0] ++ (if fld cfg 6 4 = 0 then [] else [1, 2]) ++ if fld cfg 3 0 = 5 then [4] else []
    (kinds.foldl (fun t i => t.stat ofs i (Config.lineEvents l i t.draws)) s).drawn

/-- STATS_SNAP (R545): a write of SNAP without CLR to a set's snapshot word. -/
def execStatsSnap (m ofs : Nat) (val : Word) (s : State) : Host.Outcome State Fault Refusal :=
  match statSet ofs with
  | none => .next s
  | some n => occur (s.life.rails && bitOf val 31 && !bitOf val 30) s (s.issue m ofs true val fun s => s.access m ofs fun s => snapSet (lineCounted s ofs) ofs n)

/-- STATS_CLR (R545): a write of SNAP with CLR copies the counters and zeroes them in the same cycle. -/
def execStatsClr (m ofs : Nat) (val : Word) (s : State) : Host.Outcome State Fault Refusal :=
  match statSet ofs with
  | none => .next s
  | some n => occur (s.life.rails && bitOf val 31 && bitOf val 30) s (s.issue m ofs true val fun s => s.access m ofs fun s => zeroSet (snapSet (lineCounted s ofs) ofs n) ofs n)

/-- Whether a register is an event counter. -/
def isCounter (ofs : Nat) : Bool := match findReg ofs with | some d => d.cnt | none => false

/-- The event counters of an island, or all, cleared (R547). -/
def clearCounters (s : State) (all : Bool) (island : Nat) : State :=
  { s with
    regs := s.regs.filter fun p => !(isCounter p.1 && (all || islandOf p.1 == island))
    hatches := if all || island == 81 then s.hatches.map fun p => (p.1, { p.2 with waits := 0 }) else s.hatches }

/-- CNT_CLR (R547): a write of HALL_CNT_CLR with GO. -/
def execCntClr (m : Nat) (val : Word) (s : State) : Host.Outcome State Fault Refusal :=
  occur (s.life.rails && bitOf val 31) s
    (s.command m Reg.cntClr val (fun _ => false) fun s =>
      (clearCounters s (bitOf val 29) (fld val 6 0)).setRf Reg.cntClr 30 30 1)

end Sys2Proof.Machine
end

