-- ==== Sys2Proof/Machine/Windows.lean ====
section
/-! DEFINITION. The indirect windows (R582 to R591): what a write and a read through each does; and host access to DRAM through BAR2 (R477, R535). -/

namespace Sys2Proof.Machine

/-! ### The selected units (R583) -/

/-- The engine, slice and port the select registers name, and the island and first address of the shared memory page. -/
def iwEngine (s : State) : Nat := s.rf Reg.iwEng 7 0
def iwSl (s : State) : Nat := s.rf Reg.iwSlice 3 0
def iwP (s : State) : Nat := s.rf Reg.iwPort 8 0
def iwIsland (s : State) : Nat := let u := s.rf Reg.iwShm 13 8; if u < 48 then u else if u < 56 then 73 + (u - 48) else 81
def iwPage (s : State) : Nat := 0x100000 + s.rf Reg.iwShm 3 0 * 0x40000

/-- The tag given to words written, and RTAG set by a read; POISON reads 0 with RTAG 15 (R584). -/
def wTag (s : State) : Nat := s.rf Reg.iwTag 3 0
def readTagged (s : State) (m : Nat) (w : TWord) (bad : Bool) : State :=
  if w.poison || bad then (s.setRf Reg.iwTag 7 4 15).answer m 0 else (s.setRf Reg.iwTag 7 4 w.tag.toNat).answer m w.data

/-! ### ENGMEM (R584, R167) -/

/-- Instruction memory may be written while every thread of the engine is OFF or HALTED (R167). -/
def mayLoadCode (s : State) (e : Nat) : Bool := (List.range 16).all fun t => thrState s (e * 16 + t) == 0 || thrState s (e * 16 + t) == 3

/-- A write through ENGMEM: a dword of instruction memory, or a word of local data with the tag WTAG. -/
def engmemWrite (m ofs : Nat) (val : Word) (s : State) : State :=
  let e := iwEngine s
  if 0x30000 ≤ ofs then s.stray m (0x200000 + ofs) true
  else if engFailed s e ∨ (ofs < 0x10000 ∧ mayLoadCode s e = false) then s.setRf (engStatR e) 31 31 1
  else if ofs < 0x10000 then
    s.withEng e fun x => { x with imem := memWrite x.imem ofs (leBytes 4 val.toNat), imemBad := x.imemBad.filter (· != ofs) }
  else
    let w := (ofs - 0x10000) / 4
    s.withEng e fun x => { x with local_ := mapSet TWord.zero x.local_ w ⟨BitVec.ofNat 4 (wTag s), val⟩, localBad := x.localBad.filter (· != w) }

/-- A read through ENGMEM; a failed engine reads 0. -/
def engmemRead (m ofs : Nat) (s : State) : State :=
  let e := iwEngine s
  if 0x30000 ≤ ofs then (s.stray m (0x200000 + ofs) false).answer m 0
  else if engFailed s e then s.answer m 0
  else if ofs < 0x10000 then s.answer m (BitVec.ofNat 32 (imemWord (s.eng e) ofs))
  else
    let w := (ofs - 0x10000) / 4
    readTagged s m (mapGet TWord.zero (s.eng e).local_ w) ((s.eng e).localBad.contains w)

/-- ENGMEM_WRITE: `ofs` is the byte offset in the window. -/
def execEngmemWrite (m ofs : Nat) (val : Word) (s : State) : Host.Outcome State Fault Refusal :=
  occur (s.life.rails && decide (ofs < 0x40000) && ofs % 4 == 0) s (s.issue m (0x200000 + ofs) true val fun s => s.access m (0x200000 + ofs) (engmemWrite m ofs val))

/-- ENGMEM_READ. -/
def execEngmemRead (m ofs : Nat) (s : State) : Host.Outcome State Fault Refusal :=
  occur (s.life.rails && decide (ofs < 0x40000) && ofs % 4 == 0) s (s.issue m (0x200000 + ofs) false 0 fun s => (s.answer m 0).access m (0x200000 + ofs) (engmemRead m ofs))

/-! ### SHMEM (R585) -/

/-- SHMEM_WRITE: a word of the selected page, with the tag WTAG; a tap slot taps nothing. -/
def execShmemWrite (m ofs : Nat) (val : Word) (s : State) : Host.Outcome State Fault Refusal :=
  occur (s.life.rails && decide (ofs < 0x40000) && ofs % 4 == 0) s
    (s.issue m (0x240000 + ofs) true val fun s => s.access m (0x240000 + ofs) fun s => s.setShmWord (iwIsland s) (iwPage s + ofs) ⟨BitVec.ofNat 4 (wTag s), val⟩)

/-- SHMEM_READ. -/
def execShmemRead (m ofs : Nat) (s : State) : Host.Outcome State Fault Refusal :=
  occur (s.life.rails && decide (ofs < 0x40000) && ofs % 4 == 0) s
    (s.issue m (0x240000 + ofs) false 0 fun s => (s.answer m 0).access m (0x240000 + ofs) fun s => readTagged s m (shmWord s (iwIsland s) (iwPage s + ofs)) false)

/-! ### PARSE (R586, R119) -/

/-- Whether an entry of the parse tables has no reserved value: a state, or a transition. -/
def parseOk (w0 w1 : Word) : Bool := fld w0 23 22 != 3 && decide (fld w0 21 19 < 5) && decide (fld w0 18 16 < 5) && fld w0 10 8 == 0 && fld w1 5 0 == 0
def transOk (w0 : Word) : Bool := fld w0 30 24 == 0 && fld w0 15 8 == 0

/-- The hold of a master's W0, and of the entry it belongs to. -/
def parseHold (m : Nat) : Nat := holdKey m 0x280000
def parseHoldEntry (m : Nat) : Nat := holdKey m 0x280004

/-- An entry applied, if it has no reserved value. -/
def parseApply (ofs sl : Nat) (w0 w1 : Word) (s : State) : State :=
  let x := s.slice sl
  if ofs < 0x800 then
    (if parseOk w0 w1 then s.setSlice sl { x with parse := mapSet (defaultParse (ofs / 8)) x.parse (ofs / 8) (w0.toNat, w1.toNat) } else s.setRf (Reg.sortStat sl) 31 31 1)
  else
    let i := (ofs - 0x1000) / 8
    if transOk w0 then s.setSlice sl { x with trans := mapSet (defaultTrans i) x.trans i (w0.toNat, w1.toNat) } else s.setRf (Reg.sortStat sl) 31 31 1

/-- A write through PARSE: W0 is held, W1 applies both. -/
def parseWrite (m ofs : Nat) (val : Word) (s : State) : State :=
  let sl := iwSl s
  let entry := sl * 0x10000 + ofs / 8
  if (0x800 ≤ ofs ∧ ofs < 0x1000) ∨ 0x3000 ≤ ofs then s.stray m (0x280000 + ofs) true
  else if s.mode ≠ 1 ∨ (0x7F8 ≤ ofs ∧ ofs < 0x800) then s.setRf (Reg.sortStat sl) 31 31 1
  else if ofs % 8 = 0 then
    { s with holds := mapInsert (mapErase (mapInsert (mapErase s.holds (parseHold m)) (parseHold m) val) (parseHoldEntry m)) (parseHoldEntry m) (BitVec.ofNat 32 entry) }
  else
    let mine := s.held m 0x280004 == some (BitVec.ofNat 32 entry)
    let now := if ofs < 0x800 then parseState (s.slice sl) (ofs / 8) else transEntry (s.slice sl) ((ofs - 0x1000) / 8)
    let w0 := if mine then (s.held m 0x280000).getD 0 else BitVec.ofNat 32 now.1
    let s1 := if mine then { s with holds := mapErase (mapErase s.holds (parseHold m)) (parseHoldEntry m) } else s
    parseApply ofs sl w0 val s1

/-- PARSE_WRITE. -/
def execParseWrite (m ofs : Nat) (val : Word) (s : State) : Host.Outcome State Fault Refusal :=
  occur (s.life.rails && decide (ofs < 0x10000) && ofs % 4 == 0) s (s.issue m (0x280000 + ofs) true val fun s => s.access m (0x280000 + ofs) (parseWrite m ofs val))

/-! ### EDTPL (R587) -/

/-- Whether a port of a slice names a template while its R_EN is 1. -/
def tplUsed (s : State) (sl n : Nat) : Bool :=
  (List.range 32).any fun i => let c := s.reg (pReg Reg.portEditCfg (sl * 32 + i)); bitOf c 30 && fld c 29 26 == n

/-- A write through EDTPL. -/
def edtplWrite (m ofs : Nat) (val : Word) (s : State) : State :=
  let sl := iwSl s
  let n := ofs / 0x100
  let i := ofs % 0x100 / 4
  if 16 ≤ n ∨ 34 ≤ i then s.stray m (0x290000 + ofs) true
  else if tplUsed s sl n then s.setRf Reg.hallStat 31 31 1
  else s.setSlice sl { s.slice sl with edtpl := mapSet 0 (s.slice sl).edtpl (n * 64 + i) val }

/-- EDTPL_WRITE. -/
def execEdtplWrite (m ofs : Nat) (val : Word) (s : State) : Host.Outcome State Fault Refusal :=
  occur (s.life.rails && decide (ofs < 0x10000) && ofs % 4 == 0) s (s.issue m (0x290000 + ofs) true val fun s => s.access m (0x290000 + ofs) (edtplWrite m ofs val))

/-! ### GCL (R588) -/

/-- A write through GCL: an entry of the staging list; the active list is read-only. -/
def gclWrite (m ofs : Nat) (val : Word) (s : State) : State :=
  let p := iwP s
  if ofs < 0x80 then
    (if fld val 23 0 = 0 ∨ s.rb (Reg.portGateCtl p) 29 then s.setRf Reg.depotStat 31 31 1
     else s.setPort p { s.port p with gclStaging := mapSet 0 (s.port p).gclStaging (ofs / 4) val })
  else if 0x100 ≤ ofs ∧ ofs < 0x180 then s
  else s.stray m (0x2A0000 + ofs) true

/-- GCL_WRITE. -/
def execGclWrite (m ofs : Nat) (val : Word) (s : State) : Host.Outcome State Fault Refusal :=
  occur (s.life.rails && decide (ofs < 0x10000) && ofs % 4 == 0) s (s.issue m (0x2A0000 + ofs) true val fun s => s.access m (0x2A0000 + ofs) (gclWrite m ofs val))

/-! ### MACSEC (R589) -/

/-- The place among the holds of a word of an SA entry of a port. -/
def saHold (p n w : Nat) : Nat := 0xB00000 + (p * 10 + n) * 16 + w

/-- Whether a port has an SA window: it names a MAC and is not of a 100G_4L lane. -/
def saPort (s : State) (p : Nat) : Bool := portExists s p && laneMode s (p / 4) != 5

/-- Whether a W0 is refused: a reserved bit, a KSLOT that is no AES slot of the port's tenancy, or V cleared of the transmit entry in use. -/
def saRefused (s : State) (p n : Nat) (val : Word) : Bool :=
  let aes := match keyIn s (fld val 11 0) with | some k => (k.typ == 1 || k.typ == 2) && k.tenancy == portTenancy s p false | none => false
  let cfg := s.reg (pReg Reg.portMacsecCfg p)
  fld val 28 12 != 0 || !aes || (bitOf (saWord s p n 0) 31 && !bitOf val 31 && bitOf cfg 31 && n == b2n (bitOf cfg 22))

/-- A write through MACSEC: W1 to W8 are held, W0 applies the entry, and what any master held of it is over. -/
def macsecWrite (m ofs : Nat) (val : Word) (s : State) : State :=
  let p := iwP s
  let n := ofs / 0x40
  let w := ofs % 0x40 / 4
  let reject := s.setRf (Reg.laneStat (p / 4)) 31 31 1
  if 10 ≤ n then s.stray m (0x2B0000 + ofs) true
  else if saPort s p = false then reject
  else if w = 0 then
    if saRefused s p n val then reject
    else
      let s1 := (List.range 9).foldl (fun t i =>
        if i = 0 then setSaWord t p n 0 val
        else match t.held m (saHold p n i) with
          | some v => setSaWord t p n i v
          | none => t) s
      { s1 with holds := s1.holds.filter fun h => !(decide (saHold p n 1 ≤ h.1 % 2 ^ 24) && decide (h.1 % 2 ^ 24 ≤ saHold p n 8)) }
  else if w ≤ 8 then (if bitOf (saWord s p n 0) 31 then reject else s.holdLo m (saHold p n w) val)
  else if val = 0 then s else reject

/-- MACSEC_WRITE. -/
def execMacsecWrite (m ofs : Nat) (val : Word) (s : State) : Host.Outcome State Fault Refusal :=
  occur (s.life.rails && decide (ofs < 0x10000) && ofs % 4 == 0) s (s.issue m (0x2B0000 + ofs) true val fun s => s.access m (0x2B0000 + ofs) (macsecWrite m ofs val))

/-! ### SYSBLK (R590, R37) -/

/-- A write through SYSBLK: a dword of the staging copy; the active copy is read-only. -/
def sysblkWrite (m ofs : Nat) (val : Word) (s : State) : State :=
  if ofs < 0x1000 then { s with epoch := { s.epoch with sysS := mapSet 0 s.epoch.sysS (ofs / 4) val } } else if ofs < 0x2000 then s else s.stray m (0x2C0000 + ofs) true

/-- SYSBLK_WRITE. -/
def execSysblkWrite (m ofs : Nat) (val : Word) (s : State) : Host.Outcome State Fault Refusal :=
  occur (s.life.rails && decide (ofs < 0x10000) && ofs % 4 == 0) s (s.issue m (0x2C0000 + ofs) true val fun s => s.access m (0x2C0000 + ofs) (sysblkWrite m ofs val))

/-! ### STRONG (R591, R523, R525) -/

/-- STRONG_WRITE: four bytes of the selected page of the strongbox; a line that a checkpoint has not copied is copied first, so the checkpoint keeps what it held. -/
def execStrongWrite (m ofs : Nat) (val : Word) (s : State) : Host.Outcome State Fault Refusal :=
  occur (s.life.rails && decide (ofs < 0x100000) && ofs % 4 == 0) s
    (s.issue m (0x300000 + ofs) true val fun s => s.access m (0x300000 + ofs) fun s =>
      if s.mode = 5 then s.setRf Reg.hallStat 31 31 1
      else { s with cellar := { s.cellar with strong := memWrite s.cellar.strong (s.rf Reg.iwStrong 1 0 * 0x100000 + ofs) (leBytes 4 val.toNat) } })

/-! ### Reads through the windows -/

/-- What a read through a window does and returns, at an offset of BAR0 from 0x20_0000. -/
def windowRead (m ofs : Nat) (s : State) : State :=
  let stray := (s.stray m ofs false).answer m 0
  let w (o : Nat) : Nat := (ofs - o) / 4
  if ofs < 0x240000 then engmemRead m (ofs - 0x200000) s
  else if ofs < 0x280000 then readTagged s m (shmWord s (iwIsland s) (iwPage s + (ofs - 0x240000))) false
  else if ofs < 0x290000 then
    let o := ofs - 0x280000
    if (0x800 ≤ o ∧ o < 0x1000) ∨ 0x3000 ≤ o then stray
    else if 0x7F8 ≤ o ∧ o < 0x800 then s.answer m 0
    else
      let e := if o < 0x800 then parseState (s.slice (iwSl s)) (o / 8) else transEntry (s.slice (iwSl s)) ((o - 0x1000) / 8)
      s.answer m (BitVec.ofNat 32 (if o % 8 = 0 then e.1 else e.2))
  else if ofs < 0x2A0000 then
    let o := ofs - 0x290000
    if 0x1000 ≤ o ∨ 0x88 ≤ o % 0x100 then stray else s.answer m (tplWord s (iwSl s) (o / 0x100) (o % 0x100 / 4))
  else if ofs < 0x2B0000 then
    let o := ofs - 0x2A0000
    if o < 0x80 then s.answer m (mapGet 0 (s.port (iwP s)).gclStaging (o / 4))
    else if 0x100 ≤ o ∧ o < 0x180 then s.answer m ((s.port (iwP s)).gclActive.getD ((o - 0x100) / 4) 0)
    else stray
  else if ofs < 0x2C0000 then
    let o := ofs - 0x2B0000
    if 0x280 ≤ o then stray
    else if saPort s (iwP s) = false ∨ 0x24 ≤ o % 0x40 then s.answer m 0
    else s.answer m (saWord s (iwP s) (o / 0x40) (o % 0x40 / 4))
  else if ofs < 0x2D0000 then
    if ofs < 0x2C1000 then s.answer m (mapGet 0 s.epoch.sysS (w 0x2C0000))
    else if ofs < 0x2C2000 then s.answer m (mapGet 0 s.epoch.sysA (w 0x2C1000))
    else stray
  else if ofs < 0x2E0000 then s.answer m (if s.rb Reg.cellStat 31 then BitVec.ofNat 32 (leNat (memRead s.cellar.prevSnap (ofs - 0x2D0000) 4)) else 0)
  else if ofs < 0x300000 then stray
  else s.answer m (BitVec.ofNat 32 (leNat (memRead s.cellar.strong (s.rf Reg.iwStrong 1 0 * 0x100000 + (ofs - 0x300000)) 4)))

/-! ### BAR2 (R477, R535, R383) -/

/-- BAR2_ACCESS (R477, R535): a host function reads the dword, or writes bytes, at an offset of its window. Outside its region the access is an unsupported request and counted;
inside, it is passed to the DRAM controller through the HOST port. -/
def execBar2Access (f a : Nat) (wr : Bool) (data : List Byte) (s : State) : Host.Outcome State Fault Refusal :=
  let n := if wr then data.length else 4
  let o := s.rf (Reg.pfWin f) 7 0 * 0x10000000 + a
  let at_ := regionBase s f + o
  let reqs : List DramReq :=
    if wr then (splitLines (n + 1) at_ data).map fun p => ⟨7, 0xFE, f, 0xFFFF, 0, true, p.1, p.2.1, p.2.2, false⟩
    else [⟨7, 0xFE, f, 0xFFFF, 0, false, at_ / 64, at_ % 64, [], false⟩]
  occur (s.life.rails && decide (f < 16) && decide (a + n ≤ 0x10000000) && decide (0 < n) && (wr || a % 4 == 0) && reqs.all (hasRoom s)) s
    (if o + n ≤ regionSize s f then reqs.foldl receive s else s.count Reg.tenDenyCnt)

end Sys2Proof.Machine
end

