-- ==== Sys2Proof/Machine/Registers.lean ====
section
/-! DEFINITION. Writes and reads of BAR0: the conditions the chapters place on a write (R577), what a write does beyond its fields, the registers with a row of their own,
and reads with what they latch and clear (R536, R543, R544, R571 to R577). -/

namespace Sys2Proof.Machine

/-! ### Conditions on a write (R577), block by block -/

/-- HALL: a page the selected unit lacks, the agent's thread as TARGET, a clause 22 operation that is neither read nor write, and a mailbox word while its request is pending. -/
def hallRefused (s : State) (k : Nat) (v : Word) : Bool :=
  if k = Reg.iwShm then (decide (fld v 13 8 < 48) || fld v 13 8 == 56) && decide (3 < fld v 3 0)
  else if k = Reg.mbxCfg then fld v 15 0 == agentThread s
  else if 0x500 ≤ k ∧ k < 0x540 ∧ k % 16 = 4 then !bitOf v 26 && (fld v 25 24 == 0 || fld v 25 24 == 3)
  else mbxShared k && mbxBusy s ((k - 0x1000) / 0x200)

/-- EVT: a base or size changed while its ring is enabled, a base that is no multiple of the ring's size, and a read pointer beyond the ring (R554, R562). -/
def evtRefused (s : State) (k : Nat) (v : Word) : Bool :=
  if k = Reg.logCfg then s.rb k 31 && fld v 15 0 != s.rf k 15 0
  else if k = Reg.trcCfg then fld v 15 0 % 2 ^ fld v 19 16 != 0 || (s.rb k 31 && fld v 19 0 != s.rf k 19 0)
  else k == Reg.trcRptr && decide (trcSlots s ≤ fld v 25 0)

/-- LEDG: DOWN_OCC not below UP_OCC, FMAX below the island's floor, and BASE disabled (R408, R414). -/
def ledgRefused (s : State) (k : Nat) (v : Word) : Bool :=
  if k = Reg.ledgGov then decide (fld v 15 8 ≤ fld v 7 0)
  else if 0x4A0000 ≤ k then decide (fld v 4 0 < islandFloor s ((k - 0x4A0000) / 8))
  else k == Reg.acctCfg 19 && !bitOf v 31

/-- The ports of a tenancy, by the active map. -/
def ownedPorts (s : State) (t : Nat) : List Nat := (List.range 512).filter fun p => portTenancy s p false == t

/-- Whether MACsec is enabled on a port. -/
def macsecOn (s : State) (p : Nat) : Bool := s.rb (pReg Reg.portMacsecCfg p) 31

/-- TIME: the conditions of R102, one-step PTP with MACsec (R496), and an output offset beyond half a second. -/
def timeRefused (s : State) (k : Nat) (v : Word) : Bool :=
  if k = Reg.timeOutOfs then decide (500000000 < (signed 32 v.toNat).natAbs)
  else if 0x40400 ≤ k then
    let own := ownedPorts s ((k - 0x40400) / 0x40)
    ((fld v 30 28 == 2 || fld v 30 28 == 3) && fld v 26 25 != 0) || (bitOf v 31 && own.isEmpty) || (bitOf v 31 && bitOf v 27 && own.any (macsecOn s))
  else false

/-- Regions of DRAM, in MiB, that overlap or reach past 64 GiB (R477). -/
def regionsBad (s : State) : Bool :=
  let b (t : Nat) : Nat := s.rf (Reg.tenDramBase t) 15 0
  let n (t : Nat) : Nat := s.rf (Reg.tenDramCfg t) 31 15
  (List.range 16).any fun t => n t != 0 && (decide (65536 < b t + n t) ||
    (List.range t).any fun u => n u != 0 && decide (b t < b u + n u) && decide (b u < b t + n t))

/-- TEN: a DRAM region changed outside SETUP while its tenancy is not HELD, or against R477. -/
def tenRefused (s : State) (k : Nat) (v : Word) : Bool :=
  0x50200 ≤ k && k < 0x50280 &&
    ((s.mode != 1 && s.rf (Reg.tenStatus (k % 0x40 / 4)) 31 30 != 2) ||
      match findReg k with | some d => regionsBad (s.setReg k (writeFields d (s.reg k) v)) | none => false)

/-- The owner of a shared memory page may change in SETUP, or while the page's owner is HELD (R470). -/
def pageRefused (s : State) (k : Nat) (v : Word) : Bool :=
  s.mode != 1 && (List.range 8).any fun i =>
    let old := s.rf k (4 * i + 3) (4 * i)
    fld v (4 * i + 3) (4 * i) != old && s.rf (Reg.tenStatus old) 31 30 != 2

/-- Whether one-step PTP runs on a port: one-step correction, or a one-step instance of its tenancy (R496). -/
def oneStep (s : State) (p : Nat) : Bool :=
  s.rb (pReg Reg.portMacCfg p) 19 || (let c := s.reg (Reg.ptpCfg (portTenancy s p false)); bitOf c 31 && bitOf c 27)

/-- PORT: one-step correction with MACsec (R496), preemption of a 100G_4L port (R86), and the rules of PORT_MACSEC_CFG. -/
def portRefused (s : State) (k : Nat) (v : Word) : Bool :=
  let lane := (k - 0x80000) / 0x1000
  let r := k % 0x1000
  let p := lane * 4 + (r - 0x100) / 0x100
  if r < 0x100 ∨ 0x500 ≤ r then false
  else if r % 0x100 = 0 then bitOf v 19 && macsecOn s p
  else if r % 0x100 = 0x0C then bitOf v 0 && laneMode s lane == 5
  else if r % 0x100 = 0xA0 then
    (s.rb k 31 && (s.reg k ^^^ v) &&& 0xFF80FFFF != 0) || (bitOf v 31 && laneMode s lane == 5) || (bitOf v 31 && oneStep s p)
  else false

/-- Sum of the pools of the Depot as they stand beyond its cells (R337). -/
def poolsBad (s : State) : Bool := decide (cellCount < s.rf Reg.depotPoolCfg 18 0 + sumMin s + 16 * s.rf Reg.depotLandCfg 15 0)

/-- Whether a port is in an enabled redundancy instance other than r. -/
def inOtherRed (s : State) (r p : Nat) : Bool :=
  (List.range 16).any fun i => i != r && s.rb (Reg.redCfg0 i) 31 &&
    (let c := s.reg (Reg.redCfg0 i); fld c 26 18 == p || fld c 17 9 == p || (fld c 30 28 != 3 && fld c 8 0 == p))

/-- DEPOT: the pools of R337, WRED thresholds that do not rise, a quantum of 0, mirror targets of class 7 or outside the pigeonholes, redundancy instances that share a
port, and rings outside their unit (R326, R338, R340, R346, R351). -/
def depotRefused (s : State) (k : Nat) (v : Word) : Bool :=
  let after : State := match findReg k with | some d => s.setReg k (writeFields d (s.reg k) v) | none => s
  if k = Reg.depotPoolCfg ∨ k = Reg.depotLandCfg then poolsBad after
  else if 0x400000 ≤ k ∧ k < 0x480000 then
    if k % 0x40 = 0 then poolsBad after
    else decide (k % 0x40 ≤ 0x0C) && bitOf v 31 && decide (fld v 21 11 ≤ fld v 10 0)
  else if 0x480000 ≤ k ∧ k < 0x4A0000 then
    if k % 0x20 = 8 then (List.range 4).any fun i => fld v (8 * i + 7) (8 * i) == 0
    else if k % 0x20 = 0x0C then (List.range 3).any fun i => fld v (8 * i + 7) (8 * i) == 0
    else false
  else if 0x180400 ≤ k ∧ k < 0x180420 then decide (4416 ≤ fld v 21 9) || phX7 (fld v 21 9)
  else if 0x180A00 ≤ k ∧ k < 0x180B00 ∧ k % 16 = 0 then
    let r := (k - 0x180A00) / 16
    let mode := fld v 30 28
    let ports := [fld v 26 18, fld v 17 9] ++ (if mode = 3 then [] else [fld v 8 0])
    bitOf v 31 && (mode == 0 || decide (4 ≤ mode) || ports.any (inOtherRed s r))
  else if 0x180C00 ≤ k ∧ k < 0x180E00 then
    let isl := intIsland ((k - 0x180C00) / 8)
    if k % 8 = 0 then !((islandEngines isl).contains (fld v 15 0 / 16))
    else fld v 7 0 != 0 || decide (v.toNat < 0x100000) || decide ((if isl = 81 then 0x200000 else 0x500000) ≤ v.toNat)
  else false

/-- WSHOP, DRAM and COUR: a source that is no multiple of 64, the rank and recorder rules, and identities that change in SETUP only. -/
def restRefused (s : State) (k : Nat) (v : Word) : Bool :=
  if k = Reg.graphSrcLo then fld v 5 0 != 0
  else if k = Reg.rankCtl then rankCtlRefused v s
  else if k = Reg.recBaseLo then s.rb Reg.recCfg 31 || fld v 19 0 != 0
  else if k = Reg.recBaseHi ∨ k = Reg.recSize then s.rb Reg.recCfg 31
  else (k == Reg.courId || k == Reg.courSystem || k == Reg.courSealCfg) && s.mode != 1

/-- SLICE: a reserved operation or table code in DIR_CMD, and a page owner that may not change. -/
def sliceRefused (s : State) (k : Nat) (v : Word) : Bool :=
  let r := k % 0x8000
  if r = 0x2040 then fld v 3 0 == 0 || decide (7 < fld v 3 0) || fld v 11 8 == 0 || decide (7 < fld v 11 8)
  else decide (0x4000 ≤ r) && decide (r < 0x7000) && decide (0x140 ≤ r % 0x1000) && decide (r % 0x1000 < 0x148) && pageRefused s k v

/-- Whether a write breaks a condition that a chapter places on it. -/
def writeRefused (s : State) (k : Nat) (v : Word) : Bool :=
  if k < 0x10000 then hallRefused s k v
  else if k < 0x20000 then false
  else if k < 0x30000 then evtRefused s k v
  else if k < 0x40000 ∨ 0x4A0000 ≤ k then ledgRefused s k v
  else if k < 0x50000 then timeRefused s k v
  else if k < 0x60000 then tenRefused s k v
  else if k < 0x80000 then false
  else if k < 0x100000 then portRefused s k v
  else if k < 0x180000 then sliceRefused s k v
  else if k < 0x1A0000 ∨ 0x400000 ≤ k then depotRefused s k v
  else if 0x1A8000 ≤ k ∧ k < 0x1B0000 then (0x140 ≤ k % 0x1000 && k % 0x1000 < 0x160) && pageRefused s k v
  else restRefused s k v

/-! ### What a write does beyond its fields -/

/-- The LO register of a rw pair (R573), for its HI register. -/
def pairLo (k : Nat) : Option Nat :=
  if k = Reg.graphSrcHi then some Reg.graphSrcLo
  else if k = Reg.recBaseHi then some Reg.recBaseLo
  else if 0x480000 ≤ k ∧ k < 0x4A0000 ∧ k % 0x20 = 0x18 then some (k - 4)
  else none

/-- Whether a register is the LO word of a rw pair: its writes are held. -/
def isPairLo (k : Nat) : Bool :=
  k == Reg.epochAtLo || k == Reg.todLo || k == Reg.graphSrcLo || k == Reg.recBaseLo || (decide (0x480000 ≤ k) && decide (k < 0x4A0000) && k % 0x20 == 0x14)

/-- What follows from the new value of a register: a source chosen anew, rings that start, an unmasked vector, preemption, and the latch of an over-latency alarm. `t` is
the state with the register written, `s` the state before. -/
def writeEffect (s t : State) (k : Nat) (v : Word) : State :=
  if k = Reg.timeSrcCfg then reselect t (s.reg k)
  else if k = Reg.trcCfg then (if bitOf v 31 then ((t.setReg Reg.trcWptr 0).setReg Reg.trcRptr 0).traceGap else t)
  else if k = Reg.trcRptr then t.traceGap
  else if k = Reg.logCfg then (if bitOf v 31 && !s.rb k 31 then (t.setRf Reg.logWptr 31 31 0).withEvt fun e => { e with logDone := 0 } else t)
  else if k = Reg.recCfg then recEnabled (s.rb k 31) t
  else if k = Reg.spareCfg then migKeep s t
  else if k = Reg.courTimeCfg then courTimeCheck t
  else if 0x1000 ≤ k ∧ k < 0x3000 ∧ 0x180 ≤ k % 0x200 ∧ k % 0x200 < 0x1C0 then t.msixUnmask ((k - 0x1000) / 0x200) ((k % 0x200 - 0x180) / 16)
  else if 0x80000 ≤ k ∧ k < 0x100000 ∧ 0x100 ≤ k % 0x1000 ∧ k % 0x1000 < 0x500 then
    let p := (k - 0x80000) / 0x1000 * 4 + (k % 0x1000 - 0x100) / 0x100
    if k % 0x100 = 0x0C then preemptEval t p
    else if k % 0x100 = 0x90 then t.setPort p { t.port p with xlatOver := false }
    else t
  else t

/-- Whether a register takes no write although its table calls it rw: FMAX of an island the Ledger does not clock (R412). -/
def writeNoEffect (k : Nat) : Bool := decide (0x4A0000 ≤ k) && !ledgIslands.contains ((k - 0x4A0000) / 8)

/-- Whether a register has no field that a write can change: a write of it is ignored (R6). -/
def noWrites (d : RegDesc) : Bool := d.rw == 0 && d.w1c == 0 && d.wo == 0

/-- The fields of a register take a written word: a mailbox word goes to Hall shared memory, a LO word of a pair is held. -/
def fieldsTake (m k : Nat) (d : RegDesc) (v : Word) (s : State) : State :=
  if mbxShared k then
    (s.setShmWord 81 (mbxAddr k) ⟨tagINT, writeFields d (shmWord s 81 (mbxAddr k)).data v⟩)
  else if isPairLo k then s.holdLo m k v
  else
    let s1 := match pairLo k with | some lo => s.takeLo m lo | none => s
    writeEffect s1 (s1.setReg k (writeFields d (s1.reg k) v)) k v

/-- A write of a register that has no row of its own, or none for this word. -/
def plainWrite (m ofs : Nat) (v : Word) (s : State) : State :=
  s.issue m ofs true v fun s => s.access m ofs fun s =>
    let k := regKey s ofs
    match findReg k with
    | none => s.stray m ofs true
    | some d =>
      if writeNoEffect k || noWrites d then s
      else if inRanges d v && !writeRefused s k v then fieldsTake m k d v s
      else s.reject k

/-! ### Writes with a row of their own -/

/-- The Room of a station, bench or the Hall that an offset lies in: its first engine, and the place in the Room. -/
def roomAt (ofs : Nat) : Option (Nat × Nat) :=
  if 0x8200 ≤ ofs ∧ ofs < 0x8800 then some (224, ofs - 0x8000)
  else if 0x1A8000 ≤ ofs ∧ ofs < 0x1B0000 then some (192 + (ofs - 0x1A8000) / 0x1000 * 4, ofs % 0x1000)
  else if 0x100000 ≤ ofs ∧ ofs < 0x180000 ∧ 0x4000 ≤ ofs % 0x8000 ∧ ofs % 0x8000 < 0x7000 then
    some ((ofs - 0x100000) / 0x8000 * 12 + (ofs % 0x8000 - 0x4000) / 0x1000 * 4, ofs % 0x1000)
  else none

/-- A write of a register of a Room that has a row of its own. -/
def roomRow (m e0 q : Nat) (v : Word) : Option (State → Host.Outcome State Fault Refusal) :=
  if q = 0x120 ∧ e0 < 192 then some (execStandbyWrite m (e0 / 4) v)
  else if 0x200 ≤ q ∧ q < 0x300 ∧ q % 0x40 = 0x20 then
    let e := e0 + (q - 0x200) / 0x40
    if bitOf v 8 then some (execEngRetire m e v) else if bitOf v 0 then some (execSlotSwap m e v) else if bitOf v 1 then some (execSlotCopy m e v) else none
  else if 0x400 ≤ q ∧ q < 0x800 then
    let th := e0 * 16 + (q - 0x400) / 16
    if q % 16 = 0 then some (execThrCfgWrite m th v)
    else if q % 16 = 4 then
      (if bitOf v 2 then some (execThrReset m th v) else if bitOf v 0 then some (execThrHalt m th v) else if bitOf v 1 then some (execThrResume m th v)
       else if bitOf v 3 then some (execSoftInt m th v) else none)
    else none
  else none

/-- A write of a HALL, LIFE or EVT register that has a row of its own. -/
def hallRow (m ofs : Nat) (v : Word) : Option (State → Host.Outcome State Fault Refusal) :=
  if ofs = Reg.epochAtHi then some (execEpochAtWrite m v)
  else if ofs = Reg.epochCtl then (if bitOf v 0 then some (execEpochSchedule m v) else if bitOf v 1 then some (execEpochCancel m v) else none)
  else if ofs = Reg.hatchSel then (if bitOf v 16 then some (execHatchSnap m v) else none)
  else if ofs = Reg.bootCtl then (if bitOf v 31 then some (execCommitSvn m v) else if bitOf v 30 then some (execRevoke m v) else none)
  else if ofs = Reg.sbCmd 0 ∨ ofs = Reg.sbCmd 1 then
    let i := (ofs - 0x410) / 0x40
    if !bitOf v 31 then none
    else if fld v 30 29 = 0 then some (execSbWrite m i v) else if fld v 30 29 = 1 then some (execSbRead m i v)
    else if fld v 30 29 = 2 then some (execSbWriteRead m i v) else none
  else if 0x500 ≤ ofs ∧ ofs < 0x540 ∧ ofs % 16 = 4 then
    let n := (ofs - 0x500) / 16
    let op := fld v 25 24
    if !bitOf v 31 then none
    else if bitOf v 26 then
      (if op = 0 then some (execMdioC45Address m n v) else if op = 1 then some (execMdioC45Write m n v)
       else if op = 2 then some (execMdioC45ReadIncrement m n v) else some (execMdioC45Read m n v))
    else if op = 1 then some (execMdioC22Write m n v) else if op = 2 then some (execMdioC22Read m n v) else none
  else if ofs = Reg.cntClr then (if bitOf v 31 then some (execCntClr m v) else none)
  else if 0x1000 ≤ ofs ∧ ofs < 0x3000 ∧ ofs % 0x200 = 4 then (if bitOf v 31 then some (execMbxGo m ((ofs - 0x1000) / 0x200) v) else none)
  else if ofs = Reg.lifeCtl then
    (if bitOf v 31 then some (execSvcArm m v) else if bitOf v 30 then some (execSvcDisarm m v) else if bitOf v 29 then some (execLifeWithdraw m v)
     else if bitOf v 28 then some (execLifeRestart m v) else none)
  else if ofs = Reg.lifeHucCfg then (if bitOf v 31 then some (execTestNow m v) else none)
  else if ofs = Reg.trcMark then some (execTraceMark m v)
  else none

/-- A write of a LEDG, TIME, TEN or KEY register that has a row of its own. -/
def hallRow2 (m ofs : Nat) (v : Word) : Option (State → Host.Outcome State Fault Refusal) :=
  if ofs = Reg.ledgPark then
    (if !bitOf v 31 then none
     else if fld v 17 16 = 1 then some (execHostPark m v) else if fld v 17 16 = 2 then some (execHostUnpark m v)
     else if fld v 17 16 = 3 then some (execHostAuto m v) else none)
  else if ofs = Reg.timeStepR then some (execTimeStep m v)
  else if ofs = Reg.todHi then some (execTimeTodArm m v)
  else if ofs = Reg.tenCtl then (if bitOf v 31 then some (execTenReset m v) else if bitOf v 30 then some (execTenRelease m v) else none)
  else if ofs = Reg.kslotCfg then (if bitOf v 31 then some (execKslotWr m v) else if bitOf v 30 then some (execKslotErase m v) else none)
  else if 0x60000 ≤ ofs ∧ ofs < 0x60100 ∧ ofs % 4 = 0 then some (execKeyRingCfgWrite m ((ofs - 0x60000) / 4) v)
  else if ofs = Reg.keySel then (if bitOf v 31 then some (execKeySnap m v) else none)
  else if ofs = Reg.keyHostOp then
    (if !bitOf v 31 then none else if fld v 17 16 = 0 then some (execTryKey m v) else if fld v 17 16 = 1 then some (execReleaseKey m v) else none)
  else if ofs = Reg.keyRingHost then (if bitOf v 31 then some (execKeyRingHost m v) else none)
  else none

/-- A write of a PORT or DIR register, of a statistics set, or of a DEPOT, WSHOP, DRAM or COUR register that has a row of its own. -/
def blockRow (m ofs : Nat) (v : Word) : Option (State → Host.Outcome State Fault Refusal) :=
  if (statSet ofs).isSome then
    (if !bitOf v 31 then none else if bitOf v 30 then some (execStatsClr m ofs v) else some (execStatsSnap m ofs v))
  else if 0x80000 ≤ ofs ∧ ofs < 0x100000 then
    let lane := (ofs - 0x80000) / 0x1000
    let r := ofs % 0x1000
    if r = 0 then some (execLaneCfgWrite m lane v)
    else if 0x100 ≤ r ∧ r < 0x500 ∧ r % 0x100 = 0x88 then some (execXpolCfgWrite m (lane * 4 + (r - 0x100) / 0x100) v)
    else none
  else if 0x100000 ≤ ofs ∧ ofs < 0x180000 then
    let sl := (ofs - 0x100000) / 0x8000
    let r := ofs % 0x8000
    let op := fld v 3 0
    if r = 0x2040 then
      (if !bitOf v 31 then none
       else if op = 1 then some (execDirInsert m sl v) else if op = 2 then some (execDirDelete m sl v) else if op = 3 then some (execDirLookupCmd m sl v)
       else if op = 4 then some (execDirInvalidate m sl v) else if op = 5 then some (execDirWriteIdx m sl v) else if op = 6 then some (execDirReadIdx m sl v)
       else if op = 7 then some (execDirFlush m sl v) else none)
    else if (r = 0x211C ∨ r = 0x212C ∨ r = 0x216C) ∧ bitOf v 0 then some (execDirBuild m sl ((r - 0x2100) / 16) v)
    else none
  else if ofs = Reg.mcSel then (if bitOf v 31 then some (execMcWrite m v) else if bitOf v 30 then some (execMcRead m v) else none)
  else if ofs = 0x180210 then (if bitOf v 30 then some (execGclSwap m v) else none)
  else if ofs = Reg.graphCmd then
    (if !bitOf v 31 then none
     else if fld v 18 16 = 1 then some (execGraphLoad m v) else if fld v 18 16 = 2 then some (execGraphStart m v)
     else if fld v 18 16 = 3 then some (execGraphStop m v) else if fld v 18 16 = 4 then some (execGraphUnload m v) else none)
  else if ofs = Reg.rankCtl then (if bitOf v 31 then some (execDramRankRetire m v) else none)
  else if ofs = Reg.recCfg then (if bitOf v 30 then some (execRecTrig m v) else if bitOf v 29 then some (execRecArm m v) else none)
  else if ofs = Reg.courMpCfg then (if bitOf v 31 then some (execReseedNow m v) else none)
  else if ofs = Reg.routeSel then (if bitOf v 31 then some (execRouteWrite m v) else if bitOf v 30 then some (execRouteRead m v) else none)
  else if ofs = Reg.grpSel then (if bitOf v 31 then some (execGroupWrite m v) else if bitOf v 30 then some (execGroupRead m v) else none)
  else if ofs = Reg.peerSealSel then (if bitOf v 31 then some (execSealReq m v) else none)
  else none

/-- A write through a window (R582). -/
def windowRow (m ofs : Nat) (v : Word) : State → Host.Outcome State Fault Refusal :=
  if ofs < 0x240000 then execEngmemWrite m (ofs - 0x200000) v
  else if ofs < 0x280000 then execShmemWrite m (ofs - 0x240000) v
  else if ofs < 0x290000 then execParseWrite m (ofs - 0x280000) v
  else if ofs < 0x2A0000 then execEdtplWrite m (ofs - 0x290000) v
  else if ofs < 0x2B0000 then execGclWrite m (ofs - 0x2A0000) v
  else if ofs < 0x2C0000 then execMacsecWrite m (ofs - 0x2B0000) v
  else if ofs < 0x2D0000 then execSysblkWrite m (ofs - 0x2C0000) v
  else if ofs < 0x2E0000 then fun s => .next (s.issue m ofs true v fun s => s.access m ofs id)
  else if ofs < 0x300000 then fun s => .next (s.issue m ofs true v fun s => s.access m ofs fun t => t.stray m ofs true)
  else execStrongWrite m (ofs - 0x300000) v

/-- The row of its own that a write of a word to an offset is, if it has one. -/
def rowWrite (m ofs : Nat) (v : Word) : Option (State → Host.Outcome State Fault Refusal) :=
  if 0x200000 ≤ ofs then some (windowRow m ofs v)
  else match roomAt ofs with
    | some (e0, q) => roomRow m e0 q v
    | none => if ofs < 0x30000 then hallRow m ofs v else if ofs < 0x80000 then hallRow2 m ofs v else blockRow m ofs v

/-- The state an outcome leaves. -/
def settled (s : State) : Host.Outcome State Fault Refusal → State
  | .next t => t
  | _ => s

/-- A write of a whole dword to an offset of BAR0. -/
def barWrite (m ofs : Nat) (v : Word) (s : State) : State :=
  match rowWrite m ofs v with
  | some f => settled s (f s)
  | none => plainWrite m ofs v s

/-- REGISTER_WRITE (R536, R571 to R577): master m writes the bytes that `be` enables of the dword at an offset of BAR0; a write that does not enable all four is a stray access.
A write that is a row of its own has that row's effect. -/
def execRegisterWrite (m ofs : Nat) (val : Word) (be : Nat) (s : State) : Host.Outcome State Fault Refusal :=
  occur (s.life.rails && decide (ofs < 0x400000) && ofs % 4 == 0) s
    (if be = 15 then barWrite m ofs val s else s.access m ofs fun s => s.stray m ofs true)

/-! ### Reads (R543, R544) -/

/-- Whether an offset is a snapshot copy of a statistics set. -/
def statCopy (k : Nat) : Bool :=
  (decide (0x80000 ≤ k) && decide (k < 0x100000) && decide (0x800 ≤ k % 0x1000) && decide (k % 0x1000 < 0xD00) && decide (0x10 ≤ k % 0x100))
    || (decide (0x1D0800 ≤ k) && decide (k < 0x1D1000) && decide (0x10 ≤ k % 0x40)) || (decide (0x180E00 ≤ k) && decide (k < 0x181200) && decide (0x10 ≤ k % 0x40))

/-- The LO register of a 64-bit pair, for its HI register. -/
def readPairLo (k : Nat) : Option Nat :=
  if k = Reg.epochAtHi ∨ k = Reg.todHi ∨ k = Reg.graphSrcHi ∨ k = Reg.recBaseHi ∨ k = Reg.recTrigHi ∨ k = Reg.sealTagHi ∨ k = Reg.psealTagHi ∨ k = Reg.ledgHeadHi ∨
    k = Reg.prevSeqHi ∨ k = Reg.prevPmHi then some (k - 4)
  else if 0x480000 ≤ k ∧ k < 0x4A0000 ∧ k % 0x20 = 0x18 then some (k - 4)
  else if 0x30100 ≤ k ∧ k < 0x30300 ∧ k % 16 = 8 then some (k - 4)
  else if statCopy k && k % 8 == 4 then some (k - 4)
  else none
/-- Whether a register is the LO word of a 64-bit pair. -/
def readsLo (k : Nat) : Bool := readPairLo (k + 4) == some k

/-- The readable bits of a register as it stands. -/
def readable (s : State) (k : Nat) (d : RegDesc) : Word := shown s k &&& BitVec.ofNat 32 d.rd

/-- A read of LO latches HI for the reading master. -/
def latchHi (m k : Nat) (s : State) : State :=
  let v := match findReg (k + 4) with | some d => readable s (k + 4) d | none => 0
  { s with latches := mapInsert (mapErase s.latches (holdKey m (k + 4))) (holdKey m (k + 4)) v }

/-- What a master latched for a register. -/
def latched (s : State) (m k : Nat) : Option Word := (s.latches.find? fun p => p.1 == holdKey m k).map Prod.snd

/-- Whether a register is read from what the master's last read of the first word latched. -/
def fromLatch (k : Nat) : Bool := (readPairLo k).isSome || (decide (Reg.alqW 1 ≤ k) && decide (k ≤ Reg.alqW 7))

/-- Whether a register is cleared by its read. -/
def clearsOnRead (k : Nat) : Bool :=
  (decide (0x80000 ≤ k) && decide (k < 0x100000) && decide (0x100 ≤ k % 0x1000) && decide (k % 0x1000 < 0x500) && k % 0x100 == 0x94)
    || (decide (0x1C0104 ≤ k) && decide (k < 0x1C0184) && k % 16 == 4)

/-- A read of a register: its value, or what was latched; then what the read latches and clears. -/
def plainRead (m ofs : Nat) (s : State) : State :=
  let k := regKey s ofs
  match findReg k with
  | none => (s.stray m ofs false).answer m 0
  | some d =>
    let now := readable s k d
    let v := if fromLatch k then (latched s m k).getD now else now
    let s1 := if readsLo k then latchHi m k s else s
    let s2 := if clearsOnRead k then s1.setReg k 0 else s1
    s2.answer m v

/-- A read of a dword of BAR0 that has no row of its own: its way there, and what it returns. -/
def barRead (m ofs : Nat) (s : State) : State :=
  s.issue m ofs false 0 fun s => (s.answer m 0).access m ofs fun s => if 0x200000 ≤ ofs then windowRead m ofs s else plainRead m ofs s

/-- REGISTER_READ (R507, R536, R544): a master reads the dword at an offset of BAR0. A read that the module does not answer returns 0. -/
def execRegisterRead (m ofs : Nat) (s : State) : Host.Outcome State Fault Refusal :=
  if ofs = Reg.alqW 0 then execAlarmPop m s
  else if 0x80000 ≤ ofs ∧ ofs < 0x100000 ∧ 0x100 ≤ ofs % 0x1000 ∧ ofs % 0x1000 < 0x500 ∧ ofs % 0x100 = 0x20 then
    execTsqPop m ((ofs - 0x80000) / 0x1000 * 4 + (ofs % 0x1000 - 0x100) / 0x100) s
  else
    occur (s.life.rails && decide (ofs < 0x400000) && ofs % 4 == 0) s
      (barRead m ofs s)

end Sys2Proof.Machine
end

