-- ==== Sys2Proof/Machine/Boot.lean ====
section
/-! DEFINITION. Boot verification (R488), the load of the verified image, and the end of ENTRY (R505, R506). -/

namespace Sys2Proof.Machine

/-! ### The boot image -/

/-- A little-endian word of a bank's header (log entry 32). -/
def headWord (s : State) (bank ofs : Nat) : Nat := leNat (flashBytes s (bank * 0x8000000 + ofs) 4)

/-- The fields of a boot image header: SVN, SEQ, KEY_IDX and BODY_LEN. -/
def headSvn (s : State) (bank : Nat) : Nat := headWord s bank 8
def headSeq (s : State) (bank : Nat) : Nat := headWord s bank 12
def headKey (s : State) (bank : Nat) : Nat := headWord s bank 16
def bodyLen (s : State) (bank : Nat) : Nat := headWord s bank 20

/-- The body of a bank's image. -/
def bodyOf (s : State) (bank : Nat) : List Byte := flashBytes s (bank * 0x8000000 + 0x200) (bodyLen s bank)

/-- Whether a header is one: MAGIC, FORMAT, and fields within their ranges. -/
def headerOk (s : State) (bank : Nat) : Bool :=
  let n := bodyLen s bank
  headWord s bank 0 == 0x5A424F54 && headWord s bank 4 == 1 && decide (headSvn s bank ≤ 63) && decide (headKey s bank ≤ 3) &&
    n % 16 == 0 && decide (16 ≤ n) && decide (n ≤ 0x4000000)

/-- The hash an OTP key slot holds: slot 0 as the module was shipped with it, unless the state names another; 0 is blank. -/
def otpHash (s : State) (i : Nat) : Nat := mapGet (if i = 0 then Config.zaildenKeyHash else 0) s.otp.hashes i

/-- A section of the body: TYPE, DEST and data. -/
abbrev Section := Nat × Nat × List Byte

/-- The sections of a body, if they fill it exactly; `fuel` bounds their number. -/
def sectionsOf : Nat → List Byte → Option (List Section)
  | 0, b => if b.isEmpty then some [] else none
  | f + 1, b =>
    if b.isEmpty then some []
    else if b.length < 16 then none
    else
      let len := leNat (slice b 8 4)
      let rest := b.drop 16
      if rest.length < len then none
      else (sectionsOf f (rest.drop len)).map fun l => (leNat (slice b 0 4), leNat (slice b 4 4), rest.take len) :: l

/-- Whether a section can be loaded: instruction memory of a Hall engine, Hall shared memory, or pairs of an offset and a value. -/
def sectionOk (x : Section) : Bool :=
  let n := x.2.2.length
  if x.1 = 1 then decide (x.2.1 < 4) && decide (n ≤ 0x10000)
  else if x.1 = 2 then decide (x.2.1 + n ≤ 0x100000)
  else x.1 == 3 && n % 8 == 0

/-- The sections of a bank's body, when all of them can be loaded. -/
def imageOf (s : State) (bank : Nat) : Option (List Section) :=
  match sectionsOf (bodyLen s bank / 16 + 1) (bodyOf s bank) with
  | some l => if l.all sectionOk then some l else none
  | none => none

/-- The result of a bank (R488): the first check that fails, in the order of the codes of HALL_BOOT_STAT; 0 for none. `ecc` says that a read of the flash had an uncorrectable
error. -/
def bankResult (s : State) (bank : Nat) (ecc : Bool) : Nat :=
  let b := bank * 0x8000000
  let key := flashBytes s (b + 0x38) 97
  if !headerOk s bank then 2
  else if otpHash s (headKey s bank) = 0 ∨ beNat (sha256 key) ≠ otpHash s (headKey s bank) then 3
  else if s.otp.revoked.contains (headKey s bank) then 4
  else if headSvn s bank < s.otp.svn then 5
  else if !ecdsaOk key (flashBytes s b 0xA0) (flashBytes s (b + 0xA0) 96) then 6
  else if sha256 (bodyOf s bank) ≠ flashBytes s (b + 0x18) 32 then 7
  else if (imageOf s bank).isNone then 8
  else if ecc then 9
  else 0

/-- The bank tried first: that of the larger SEQ, or A. -/
def firstBank (s : State) : Nat := if headSeq s 0 < headSeq s 1 then 1 else 0

/-- The results of both banks, and the bank booted: the first, or the other when the first fails (R488). -/
structure BootRes where
  resA : Nat
  resB : Nat
  bank : Option Nat
deriving DecidableEq, Repr

/-- Boot verification. -/
def verify (s : State) (ecc : List Nat) : BootRes :=
  let one (b : Nat) : Nat := bankResult s b (ecc.contains b)
  let f := firstBank s
  let r := one f
  if r = 0 then ⟨if f = 0 then 0 else 1, if f = 1 then 0 else 1, some f⟩
  else
    let r2 := one (1 - f)
    ⟨if f = 0 then r else r2, if f = 0 then r2 else r, if r2 = 0 then some (1 - f) else none⟩

/-- HALL_BOOT_STAT after verification. -/
def putBoot (s : State) (r : BootRes) : State :=
  let bank := r.bank.getD 0
  let w := b2n (bank == 1) * 2 ^ 31 + b2n (r.bank.isSome && bank != firstBank s) * 2 ^ 30 + r.resA * 2 ^ 24 + r.resB * 2 ^ 20 + s.otp.svn * 2 ^ 14
  s.setReg Reg.bootStat (BitVec.ofNat 32 (if r.bank.isSome then w + headSvn s bank * 2 ^ 8 + headKey s bank else w))

/-! ### Loading -/

/-- The pairs of a TYPE 3 section, written in order by the boot ROM. -/
def bootWrites : Nat → List Byte → State → State
  | 0, _, s => s
  | f + 1, b, s =>
    if b.length < 8 then s
    else
      let ofs := leNat (slice b 0 4)
      let v : Word := BitVec.ofNat 32 (leNat (slice b 4 4))
      bootWrites f (b.drop 8) (if ofs < 0x400000 then barWrite 0x0E00 ofs v s else s.stray 0x0E00 ofs true)

/-- Bytes stored in Hall shared memory as INT words. -/
def loadShm (ofs : Nat) (b : List Byte) (s : State) : State :=
  (List.range ((b.length + 3) / 4)).foldl (fun t i => t.setShmWord 81 (0x100000 + ofs / 4 * 4 + 4 * i) ⟨tagINT, leWord b i⟩) s

/-- A section of TYPE 1 or 2 loaded. -/
def loadSection (s : State) (x : Section) : State :=
  if x.1 = 1 then s.withEng (224 + x.2.1) fun e => { e with imem := memWrite e.imem 0 x.2.2 }
  else if x.1 = 2 then loadShm x.2.1 x.2.2 s
  else s

/-- The sections of TYPE 1 and 2 loaded in order, and SETUP entered with the TYPE 3 writes applied. -/
def loadImage (s : State) (l : List Section) : State :=
  let s1 := (l.foldl loadSection s).setMode 1
  (l.filter fun x => x.1 == 3).foldl (fun t x => bootWrites (x.2.2.length / 8) x.2.2 t) s1

/-! ### The end of ENTRY -/

/-- What self-test finds (R505): failed engines, lanes and cells, and the agent on the lowest Hall engine that passed. -/
def selfTest (s : State) (badEngines badLanes badCells : List Nat) : State :=
  let s1 := (badEngines.filter fun e => decide (e < engineCount)).foldl (fun t e => failEngine t e 0) s
  let s2 := (badCells.filter fun c => decide (c < cellCount)).foldl leakCell (s1.failLanes badLanes)
  match [224, 225, 226, 227].find? fun e => !engFailed s2 e with
  | some e => s2.setRf Reg.mbxCfg 25 24 (e - 224)
  | none => s2

/-- Whether ENTRY is still under way. -/
def entering (s : State) : Bool := s.life.rails && s.mode == 0 && s.rf Reg.lifeMode 31 24 == 0

/-- Whether the first hold-up test has ended, or 1 s of ENTRY has passed (R505, R519). -/
def testOver (s : State) : Bool := s.rb Reg.lifeHucStat 31 || decide (s.life.entryAt + secUnit ≤ s.up)

/-- ENTRY_COMPLETE (R505, R488, R520): every step of ENTRY is done. The command says which engines, lanes and cells self-test found bad and which flash banks had an
uncorrectable error. The image that verified is loaded and SETUP begins; HOLDUP_LOW is active if no hold-up test has completed; a WITHDRAW_REQ_N that is low does not act. -/
def execEntryComplete (dt : Nat) (badEngines badLanes badCells eccBanks : List Nat) (s : State) : Host.Outcome State Fault Refusal :=
  let s := advance s dt
  let r := verify s eccBanks
  let tested := putBoot (selfTest s badEngines badLanes badCells) r
  let held := if tested.rb Reg.lifeHucStat 31 then tested else tested.causeUp 3
  let image := match r.bank with | some b => (imageOf s b).getD [] | none => []
  occur (entering s && s.dram.trained && testOver s && r.bank.isSome && !hallGone tested) s
    ((loadImage held image).withLife fun l => { l with wdreqArmed := l.wdreqHigh })

/-- ENTRY_STALL (R506): ENTRY does not end. Cause 1 when both banks fail verification, 2 when all four Hall engines fail BIST, 3 when the Save island, the strongbox or the
Cellar controller fails its self-test. -/
def execEntryStall (dt cause : Nat) (badEngines badLanes badCells eccBanks : List Nat) (s : State) : Host.Outcome State Fault Refusal :=
  let s := advance s dt
  let r := verify s eccBanks
  let tested := selfTest s badEngines badLanes badCells
  let ok := (cause == 1 && r.bank.isNone) || (cause == 2 && hallGone tested) || cause == 3
  occur (entering s && ok) s ((if cause = 1 then putBoot tested r else tested).setRf Reg.lifeMode 31 24 cause)

end Sys2Proof.Machine
end

