-- ==== Sys2Proof/Machine/CfgPath.lean ====
section
/-! DEFINITION. What arrives through a hatch and is taken out of it (R18, R19, R22, R25), the register accesses that waited in a CFG hatch (R11, R12, R37), and the end of a
refresh. -/

namespace Sys2Proof.Machine

/-! ### Accesses that waited -/

/-- Whether an offset is PORT_TSQ_W0 of a port. -/
def isTsqW0 (ofs : Nat) : Bool :=
  decide (0x80000 ≤ ofs) && decide (ofs < 0x100000) && decide (0x100 ≤ ofs % 0x1000) && decide (ofs % 0x1000 < 0x500) && ofs % 0x100 == 0x20

/-- An access made at its block. -/
def accessAt (m : Nat) (wr : Bool) (ofs : Nat) (v : Word) (s : State) : State :=
  if wr then barWrite m ofs v s
  else if isTsqW0 ofs then tsqRead m ((ofs - 0x80000) / 0x1000 * 4 + (ofs % 0x1000 - 0x100) / 0x100) s
  else barRead m ofs s

/-- An access that waited is made: a window access under the selection it travelled with; one hit by a double-bit error takes no effect, and its master is answered with an
error response, whose word the specification does not give (R25; log entry 25). -/
def perform (e : HEntry) (s : State) : State :=
  match e.pay with
  | .access m wr ofs v =>
    if ofs < 0x200000 then accessAt m wr ofs v s
    else
      let k := selectOf ofs
      (accessAt m wr ofs v (s.setReg k (BitVec.ofNat 32 e.flow))).setReg k (s.reg k)
  | .badAccess m => s.drawn.answer m (BitVec.ofNat 32 s.freeValue)
  | _ => s

/-- Whether an access that waits is a staging write that must wait on (R37). -/
def stillHeld (s : State) (e : HEntry) : Bool :=
  match e.pay with
  | .access _ wr ofs v => wr && stageHeld s && stageAccess ofs v
  | _ => false

/-- Accesses taken out of the CFG hatch of an island are made in order, with the rest of the hatch as it stands. -/
def performAll (i : Nat) (rest : Hatch) (l : List HEntry) (s : State) : State :=
  let t := l.foldl (fun t e => perform e t) ((s.setHatch (hatchNo 0x11 i) default).setHatch (hatchNo 0x12 i) default)
  (t.setHatch (hatchNo 0x12 i) (s.hatch (hatchNo 0x12 i))).setHatch (hatchNo 0x11 i) rest

/-- Every access that waits for an island is made, when the writes held for a refresh take effect (R37). -/
def drainCfg (s : State) (i : Nat) : State :=
  let x := s.hatch (hatchNo 0x11 i)
  let l := x.gFifo ++ x.gTransit ++ x.held
  if l.isEmpty then s
  else
    let t := performAll i { x with held := [], gTransit := [], gFifo := [], gSent := x.gSent + x.held.length, gRemoved := x.gRemoved + l.length,
                                   gUnseen := x.gUnseen + x.gFifo.length + x.gTransit.length } l s
    t.waitCounted (hatchNo 0x11 i)

/-- The accesses that wait in front of the TEN block are made. -/
def drainTen (s : State) : State :=
  s.epoch.heldAcc.foldl (fun t e => perform e t) { s with epoch := { s.epoch with heldAcc := [] } }

/-- STAGE_READY (R37): the staging copies are rebuilt, STATE returns to IDLE, and the accesses held meanwhile take effect in their order. -/
def execStageReady (dt : Nat) (s : State) : Host.Outcome State Fault Refusal :=
  let s := advance s dt
  let s1 := ((refreshCopies s).setRf Reg.epochStatus 18 16 0).setRf Reg.epochStatus 20 20 1
  occur (s.life.rails && epochState s == 3) s (((List.range 16).map (48 + ·) ++ [72]).foldl drainCfg (drainTen s1))

/-! ### Arrival and removal -/

/-- A frame in reception, named by its first cell, ends errored. -/
def hitRx (s : State) (p c : Nat) : State :=
  match (s.port p).rxAll.find? (fun r => r.cell == c) with
  | some r => endErroredOf (rxMeter (s.stat (portSet p) 6) p r) p r
  | none => s

/-- A flit or cell hit by a double-bit error ends its frame as errored (R25): toward the module the frame being received; toward a port the copy the Editor or the MAC
holds, which is closed with an inverted FCS, or not sent. -/
def hitData (s : State) (h c : Nat) : State :=
  if h / 128 ≤ 1 then (match rxPort s c with | some p => hitRx s p c | none => s)
  else if h / 128 = 7 ∨ h / 128 = 8 then abortWhole s (h % 128) c
  else s

/-- HATCH_ENTRY_ARRIVE (R19, R25): the next entry of a sub-channel becomes visible to the consumer, with what the ECC check found. -/
def execHatchEntryArrive (h : Nat) (xpr : Bool) (ecc : Nat) (s : State) : Host.Outcome State Fault Refusal :=
  let x := s.hatch h
  let t := s.setHatch h (x.arrive h xpr ecc)
  let hit := if ecc = 2 then t.raise 0x0101 (hatchConsumer h) 0 h else t
  let e := if xpr then x.xTransit.head? else x.gTransit.head?
  occur (s.life.rails && x.inTransit xpr) s
    (match ecc, e with
     | 2, some { pay := .data c _, flow := _, xpr := _ } => hitData hit h c
     | _, _ => hit)

/-- Whether the consumer of a hatch takes an entry in a command of its own: a distributor in DISTRIBUTE (R53), a helper block in HELP_CMD_TAKE (R255). -/
def takenElsewhere (h : Nat) : Bool := hatchOfStation h || h / 128 == 9

/-- Whether the consumer of a kind is done with an entry as it takes it: flits, cells and accesses. -/
def doneAtOnce (k : Nat) : Bool := ([0x00, 0x01, 0x07, 0x08, 0x0E, 0x11, 0x12, 0x18, 0x19, 0x1A, 0x1B] : List Nat).contains k

/-- What the consumer does with an entry of such a kind as it takes it: a flit joins its frame, an access is made. -/
def takenAtOnce (s : State) (h : Nat) (rest : Hatch) (e : HEntry) : State :=
  match h / 128, e.pay with
  | 0x11, _ => performAll (h % 128) rest [e] s
  | 0x18, _ => forwardAll (s.setHatch h rest) (h % 128)
  | 0x00, .data c b => (match rxPort s c with
    | some p => (s.setHatch h rest).setPort p ((s.port p).rxJoin c b)
    | none => s.setHatch h rest)
  | _, _ => s.setHatch h rest

/-- HATCH_CREDIT_RETURN (R18): the producer sees every removal so far, and the credits are free again; a link's receive buffer forwards what waited for them (R433). -/
def execHatchCreditReturn (h : Nat) (s : State) : Host.Outcome State Fault Refusal :=
  let x := s.hatch h
  let s1 := (s.setHatch h { x with gOut := x.gOut.drop x.gUnseen, xOut := x.xOut.drop x.xUnseen, gUnseen := 0, xUnseen := 0 }).waitEnds h
  occur s.life.rails s (if h / 128 = 0x18 then forwardAll s1 (h % 128) else s1)

/-- HATCH_REMOVE (R18, R22): the consumer takes the next entry, express first, and counts it as removed. -/
def execHatchRemove (h : Nat) (s : State) : Host.Outcome State Fault Refusal :=
  let x := s.hatch h
  match (match x.xFifo with | e :: _ => some e | [] => x.gFifo.head?) with
  | none => .next s
  | some e =>
    occur (s.life.rails && !takenElsewhere h && !stillHeld s e) s
      (if doneAtOnce (h / 128) then takenAtOnce s h x.pop e else s.setHatch h { x.pop with taken := x.taken ++ [e] })

end Sys2Proof.Machine
end

