-- ==== Sys2Proof/Machine/WaporA.lean ====
section
/-! DEFINITION. The operations of the A0 and A1 units (R206, R207, and R226 to R232 at the edges). -/

namespace Sys2Proof.Machine

/-- NOP: a no-operation syllable of any unit. -/
def execNop (i : Issue) (s : State) : Host.Outcome State Fault Refusal := sylCmd i (fun _ y => y.op == 0) (fun _ s => s) s

/-- ADD (R206). -/
def execAdd (i : Issue) (s : State) : Host.Outcome State Fault Refusal := aBin i 0x01 aluAdd s

/-- ADDS (R206). -/
def execAdds (i : Issue) (s : State) : Host.Outcome State Fault Refusal := aBin i 0x02 aluAdds s

/-- SUB (R206). -/
def execSub (i : Issue) (s : State) : Host.Outcome State Fault Refusal := aBin i 0x03 aluSub s

/-- SUBS (R206). -/
def execSubs (i : Issue) (s : State) : Host.Outcome State Fault Refusal := aBin i 0x04 aluSubs s

/-- MIN (R206). -/
def execMinOp (i : Issue) (s : State) : Host.Outcome State Fault Refusal := aBin i 0x09 aluMin s

/-- MAX (R206). -/
def execMaxOp (i : Issue) (s : State) : Host.Outcome State Fault Refusal := aBin i 0x0A aluMax s

/-- MINU (R206). -/
def execMinu (i : Issue) (s : State) : Host.Outcome State Fault Refusal := aBin i 0x0B aluMinu s

/-- MAXU (R206). -/
def execMaxu (i : Issue) (s : State) : Host.Outcome State Fault Refusal := aBin i 0x0C aluMaxu s

/-- AND (R206). -/
def execAndOp (i : Issue) (s : State) : Host.Outcome State Fault Refusal := aBin i 0x10 aluAnd s

/-- OR (R206). -/
def execOrOp (i : Issue) (s : State) : Host.Outcome State Fault Refusal := aBin i 0x11 aluOr s

/-- XOR (R206). -/
def execXorOp (i : Issue) (s : State) : Host.Outcome State Fault Refusal := aBin i 0x12 aluXor s

/-- ANDN (R206). -/
def execAndn (i : Issue) (s : State) : Host.Outcome State Fault Refusal := aBin i 0x13 aluAndn s

/-- SHL (R206). -/
def execShl (i : Issue) (s : State) : Host.Outcome State Fault Refusal := aBin i 0x18 aluShl s

/-- SHR (R206). -/
def execShr (i : Issue) (s : State) : Host.Outcome State Fault Refusal := aBin i 0x19 aluShr s

/-- SAR (R206). -/
def execSar (i : Issue) (s : State) : Host.Outcome State Fault Refusal := aBin i 0x1A aluSar s

/-- ROR (R206). -/
def execRor (i : Issue) (s : State) : Host.Outcome State Fault Refusal := aBin i 0x1B aluRor s

/-- CEQ (R206). -/
def execCeq (i : Issue) (s : State) : Host.Outcome State Fault Refusal := aBin i 0x20 aluCeq s

/-- CNE (R206). -/
def execCne (i : Issue) (s : State) : Host.Outcome State Fault Refusal := aBin i 0x21 aluCne s

/-- CLT (R206). -/
def execClt (i : Issue) (s : State) : Host.Outcome State Fault Refusal := aBin i 0x22 aluClt s

/-- CLE (R206). -/
def execCle (i : Issue) (s : State) : Host.Outcome State Fault Refusal := aBin i 0x23 aluCle s

/-- CLTU (R206). -/
def execCltu (i : Issue) (s : State) : Host.Outcome State Fault Refusal := aBin i 0x24 aluCltu s

/-- CLEU (R206). -/
def execCleu (i : Issue) (s : State) : Host.Outcome State Fault Refusal := aBin i 0x25 aluCleu s

/-- FADD (R206). -/
def execFadd (i : Issue) (s : State) : Host.Outcome State Fault Refusal := aBin i 0x28 aluFadd s

/-- FSUB (R206). -/
def execFsub (i : Issue) (s : State) : Host.Outcome State Fault Refusal := aBin i 0x29 aluFsub s

/-- FADD2 (R206). -/
def execFadd2 (i : Issue) (s : State) : Host.Outcome State Fault Refusal := aBin i 0x2C aluFadd2 s

/-- FSUB2 (R206). -/
def execFsub2 (i : Issue) (s : State) : Host.Outcome State Fault Refusal := aBin i 0x2D aluFsub2 s

/-- TADD (R206). -/
def execTadd (i : Issue) (s : State) : Host.Outcome State Fault Refusal := aBin i 0x30 aluTadd s

/-- TSUB (R206). -/
def execTsub (i : Issue) (s : State) : Host.Outcome State Fault Refusal := aBin i 0x31 aluTsub s

/-- NEG (R206). -/
def execNeg (i : Issue) (s : State) : Host.Outcome State Fault Refusal := aUn i 0x05 (fun _ => aluNeg) s

/-- NEGS (R206). -/
def execNegs (i : Issue) (s : State) : Host.Outcome State Fault Refusal := aUn i 0x06 (fun _ => aluNegs) s

/-- ABS (R206). -/
def execAbs (i : Issue) (s : State) : Host.Outcome State Fault Refusal := aUn i 0x07 (fun _ => aluAbs) s

/-- ABSS (R206). -/
def execAbss (i : Issue) (s : State) : Host.Outcome State Fault Refusal := aUn i 0x08 (fun _ => aluAbss) s

/-- CLZ (R206). -/
def execClz (i : Issue) (s : State) : Host.Outcome State Fault Refusal := aUn i 0x14 (fun _ => aluClz) s

/-- POPC (R206). -/
def execPopc (i : Issue) (s : State) : Host.Outcome State Fault Refusal := aUn i 0x15 (fun _ => aluPopc) s

/-- BSWAP (R206). -/
def execBswap (i : Issue) (s : State) : Host.Outcome State Fault Refusal := aUn i 0x16 (fun _ => aluBswap) s

/-- FNEG (R206). -/
def execFneg (i : Issue) (s : State) : Host.Outcome State Fault Refusal := aUn i 0x2A (fun _ => aluFneg) s

/-- FABS (R206). -/
def execFabs (i : Issue) (s : State) : Host.Outcome State Fault Refusal := aUn i 0x2B (fun _ => aluFabs) s

/-- MOV (R206). -/
def execMov (i : Issue) (s : State) : Host.Outcome State Fault Refusal := aUn i 0x38 (fun _ => aluMov) s

/-- TAG (R206). -/
def execTagOp (i : Issue) (s : State) : Host.Outcome State Fault Refusal := aUn i 0x3A (fun _ => aluTag) s

/-- MOVI: the value of the syllable and its IMM, with the syllable's tag (R206, R207). -/
def execMovi (i : Issue) (s : State) : Host.Outcome State Fault Refusal := aUn i 0x39 (fun y _ => plain (moviTag y) (moviValue y)) s

/-- SETTAG (R206). -/
def execSettag (i : Issue) (s : State) : Host.Outcome State Fault Refusal := aUn i 0x3B (fun y => aluSettag (settagTag y)) s

/-- MTBK: bits [15:0] of an INT, ADDR or BITS source to a bank register, seen two cycles after issue; another source leaves it and sets TF (R157, R206, R207). -/
def execMtbk (i : Issue) (s : State) : Host.Outcome State Fault Refusal :=
  sylCmd i (isA 0x3C) (fun y s =>
    let w := (s.thr i.th).gr y.s1
    if w.tag = tagINT ∨ w.tag = tagADDR ∨ w.tag = tagBITS then
      s.send i.th y.unit 2 { (default : Landing) with kind := 2, reg := y.dst, val := ⟨tagINT, w.data &&& 0xFFFF⟩ }
    else s.sendF i.th y.unit flagTF) s

/-- MFBK: a bank register, tag INT (R206). -/
def execMfbk (i : Issue) (s : State) : Host.Outcome State Fault Refusal :=
  sylCmd i (isA 0x3D) (fun y s => s.sendG i.th y.unit 1 y.dst (plain tagINT (BitVec.ofNat 32 ((s.thr i.th).bank y.s1)))) s

/-- RDF: the flag word, tag BITS (R203, R206). -/
def execRdf (i : Issue) (s : State) : Host.Outcome State Fault Refusal :=
  sylCmd i (isA 0x3E) (fun y s => s.sendG i.th y.unit 1 y.dst (plain tagBITS (BitVec.ofNat 32 (s.thr i.th).flags))) s

/-- CLRF: the flags of the mask cleared; a flag set in the same cycle stays set (R202, R206). -/
def execClrf (i : Issue) (s : State) : Host.Outcome State Fault Refusal :=
  sylCmd i (isA 0x3F) (fun y s => s.send i.th y.unit 1 { (default : Landing) with kind := 5, flags := y.mod % 16 }) s

end Sys2Proof.Machine
end

