-- ==== Sys2Proof/Machine/WaporLC.lean ====
section
/-! DEFINITION. The operations of the L unit (R212 to R216) and of the C unit (R219 to R225, R168, R172), and the landing of results and stores. -/

namespace Sys2Proof.Machine

/-! ### Loads and stores -/

/-- A load. -/
def loadCmd (i : Issue) (op : Nat) (s : State) : Host.Outcome State Fault Refusal :=
  sylCmd i (isU 3 op) (fun y s => doLoad s i.th y i.ecc) s

/-- A store. -/
def storeCmd (i : Issue) (op : Nat) (s : State) : Host.Outcome State Fault Refusal :=
  sylCmd i (isU 3 op) (fun y s => doStore s i.th y) s

/-- LD: a word with its tag (R215). -/
def execLd (i : Issue) (s : State) : Host.Outcome State Fault Refusal := loadCmd i 1 s

/-- LDH: a halfword, sign-extended. -/
def execLdh (i : Issue) (s : State) : Host.Outcome State Fault Refusal := loadCmd i 2 s

/-- LDHU: a halfword, zero-extended. -/
def execLdhu (i : Issue) (s : State) : Host.Outcome State Fault Refusal := loadCmd i 3 s

/-- LDB: a byte, sign-extended. -/
def execLdb (i : Issue) (s : State) : Host.Outcome State Fault Refusal := loadCmd i 4 s

/-- LDBU: a byte, zero-extended. -/
def execLdbu (i : Issue) (s : State) : Host.Outcome State Fault Refusal := loadCmd i 5 s

/-- ST: a word with its tag (R215). -/
def execSt (i : Issue) (s : State) : Host.Outcome State Fault Refusal := storeCmd i 9 s

/-- STH: a halfword. -/
def execSth (i : Issue) (s : State) : Host.Outcome State Fault Refusal := storeCmd i 0x0A s

/-- STB: a byte. -/
def execStb (i : Issue) (s : State) : Host.Outcome State Fault Refusal := storeCmd i 0x0C s

/-! ### Branches, calls and loops -/

/-- The thread goes to a target: `how` 1 a branch, 2 a call or return from interrupt, 3 a LOOP. -/
def jumpTo (s : State) (m target how : Nat) : State := s.withThr m fun t => { t with next := target, jump := how }

/-- BR: branch to the target (R219, R220). -/
def execBr (i : Issue) (s : State) : Host.Outcome State Fault Refusal :=
  sylCmd i (isU 5 1) (fun y s => jumpTo s i.th (branchTarget y (s.thr i.th).bundle) 1) s

/-- A conditional branch: not taken, with TF, when its register breaks the rule (R221). -/
def condBranch (i : Issue) (op : Nat) (rule : TWord → Bool) (cond : Word → Bool) (s : State) : Host.Outcome State Fault Refusal :=
  sylCmd i (isU 5 op) (fun y s =>
    let g := (s.thr i.th).gr y.s1
    if !rule g then s.sendF i.th 5 flagTF
    else if cond g.data then jumpTo s i.th (branchTarget y (s.thr i.th).bundle) 1 else s) s

/-- INT or FRAC. -/
def intFrac (g : TWord) : Bool := g.tag == tagINT || g.tag == tagFRAC

/-- BZ: branch if gc is 0. -/
def execBz (i : Issue) (s : State) : Host.Outcome State Fault Refusal := condBranch i 2 (fun g => !g.poison) (· == 0) s

/-- BNZ: branch if gc is not 0. -/
def execBnz (i : Issue) (s : State) : Host.Outcome State Fault Refusal := condBranch i 3 (fun g => !g.poison) (· != 0) s

/-- BLTZ: branch if gc[31] is 1. -/
def execBltz (i : Issue) (s : State) : Host.Outcome State Fault Refusal := condBranch i 4 intFrac (fun w => bitOf w 31) s

/-- BGEZ: branch if gc[31] is 0. -/
def execBgez (i : Issue) (s : State) : Host.Outcome State Fault Refusal := condBranch i 5 intFrac (fun w => !bitOf w 31) s

/-- JMP: branch to gt[15:0] (R220, R221). -/
def execJmp (i : Issue) (s : State) : Host.Outcome State Fault Refusal :=
  sylCmd i (isU 5 6) (fun y s => jumpTo s i.th (((s.thr i.th).gr y.s1).data.toNat % 65536) 1) s

/-- The link of a call: g31 takes the INT address of the next bundle, one cycle after issue (R220). -/
def link (s : State) (m : Nat) : State := s.sendG m 5 1 31 (plain tagINT (BitVec.ofNat 32 (s.thr m).seqNext))

/-- CALL. -/
def execCall (i : Issue) (s : State) : Host.Outcome State Fault Refusal :=
  sylCmd i (isU 5 7) (fun y s => jumpTo (link s i.th) i.th (branchTarget y (s.thr i.th).bundle) 2) s

/-- CALLR. -/
def execCallr (i : Issue) (s : State) : Host.Outcome State Fault Refusal :=
  sylCmd i (isU 5 8) (fun y s => jumpTo (link s i.th) i.th (((s.thr i.th).gr y.s1).data.toNat % 65536) 2) s

/-- RET: branch to g31[15:0]. -/
def execRet (i : Issue) (s : State) : Host.Outcome State Fault Refusal :=
  sylCmd i (isU 5 9) (fun _ s => jumpTo s i.th (((s.thr i.th).gr 31).data.toNat % 65536) 1) s

/-- Whether a loop body fits the alcove: at most 32 bundles and 96 syllables (R165). -/
def bodyFits (x : Engine) (start exit : Nat) : Bool :=
  let n := (exit - start) / 4
  decide (n ≤ 96) && decide (((List.range (min n 97)).filter fun i => imemWord x (start + 4 * i) / 2 ^ 31 % 2 == 1).length ≤ 32)

/-- LOOP (R223, R225): a context from the next bundle to the exit, run count times; with a count of 0, a register that is not INT or an exit not above the start the
thread goes to the exit, and a broken rule sets TF. A context that was active is replaced. -/
def execLoopOp (i : Issue) (s : State) : Host.Outcome State Fault Refusal :=
  sylCmd i (isU 5 0x0A) (fun y s =>
    let t := s.thr i.th
    let g := t.gr y.s1
    let exit := branchTarget y t.bundle
    let bad := g.tag ≠ tagINT ∨ exit ≤ t.seqNext
    if bad then jumpTo (s.sendF i.th 5 flagTF) i.th exit 1
    else if g.data = 0 then jumpTo s i.th exit 1
    else s.withThr i.th fun t =>
      { t with loopc := some ⟨t.seqNext, exit, g.data.toNat, bodyFits (s.eng (i.th / 16)) t.seqNext exit, false⟩, alcove := [], jump := 3 }) s

/-- WAIT (R168, R222, R258): with a doorbell of its mask set it completes at once and clears them; otherwise the thread waits, after the key
wait of its own bundle if there is one. A mask of 0 never waits. -/
def execWaitOp (i : Issue) (s : State) : Host.Outcome State Fault Refusal :=
  sylCmd i (isU 5 0x0B) (fun y s =>
    let t := s.thr i.th
    let mask := y.low % 256
    if mask = 0 then s
    else if t.keyWait.isSome then s.setThr i.th { t with keyMask := mask }
    else if t.bells &&& mask ≠ 0 then s.setThr i.th (t.endWait (engCycle s (i.th / 16)) mask)
    else (s.setThr i.th { t with waitMask := mask, waitPc := t.bundle }).setThrState i.th 2) s

/-- FENCE (R160, R163): it counts 12 slots, after which every earlier store of the thread is visible to every engine and helper. -/
def execFence (i : Issue) (s : State) : Host.Outcome State Fault Refusal := sylCmd i (isU 5 0x0C) (fun _ s => s) s

/-- RETI (R172): the flags restored from ESTAT[31:16], IE set, and on from EPC. -/
def execReti (i : Issue) (s : State) : Host.Outcome State Fault Refusal :=
  sylCmd i (isU 5 0x0D) (fun _ s =>
    let t := s.thr i.th
    jumpTo (s.setThr i.th { t with flags := t.estat / 65536 % 16, estat := t.estat / 2 * 2 + 1 }) i.th t.epc 2) s

/-- TRAP (R220, R222): the bundle that holds it faults, with no effect, so the command is that fault. -/
def execTrapOp (i : Issue) (s : State) : Host.Outcome State Fault Refusal :=
  let m := i.th
  let s1 := s.tick m i.dt
  match nextBundle s1 m with
  | (.ok l, _) =>
    let cause := bundleFault s1 m l
    occur ((s.thr m).todo.isEmpty && mayBegin s1 m && l.any (fun y => y.unit == 5 && y.op == 0x0E) && cause != 0) s
      (threadFault (s1.useSlot m 1) m cause (thrPc s1 m))
  | _ => .next s

/-! ### Landing and draining -/

/-- RESULT_LAND (R153): the results of a thread that are due land. -/
def execResultLand (m dt : Nat) (s : State) : Host.Outcome State Fault Refusal :=
  occur (s.life.rails && isThread m) s ((advance s dt).settleThr m)

/-- STORE_DRAIN (R161): the oldest entry of an engine's store buffer, when due, reaches memory and is freed. -/
def execStoreDrain (e dt : Nat) (s : State) : Host.Outcome State Fault Refusal :=
  let s1 := advance s dt
  match (s1.eng e).stores with
  | [] => .next s
  | x :: r => occur (s.life.rails && decide (x.due ≤ engCycle s1 e)) s ((s1.withEng e fun g => { g with stores := r }).drainOne e x)

end Sys2Proof.Machine
end

