-- ==== Sys2Proof/Machine/WaporM.lean ====
section
/-! DEFINITION. The operations of the M unit (R208 to R211, R226 to R231) and the divide-and-root unit (R156). -/

namespace Sys2Proof.Machine

/-- MUL (R209). -/
def execMul (i : Issue) (s : State) : Host.Outcome State Fault Refusal := mBin i 0x01 3 (fun _ => aluMul) s

/-- MULHI (R209). -/
def execMulhi (i : Issue) (s : State) : Host.Outcome State Fault Refusal := mBin i 0x02 3 (fun _ => aluMulhi) s

/-- MULHU (R209). -/
def execMulhu (i : Issue) (s : State) : Host.Outcome State Fault Refusal := mBin i 0x03 3 (fun _ => aluMulhu) s

/-- FMUL, rounded by RM (R208, R209). -/
def execFmul (i : Issue) (s : State) : Host.Outcome State Fault Refusal := mBin i 0x04 3 (fun y => aluFmul (y.mod % 4)) s

/-- FMUL2, rounded by RM (R208, R209). -/
def execFmul2 (i : Issue) (s : State) : Host.Outcome State Fault Refusal := mBin i 0x05 3 (fun y => aluFmul2 (y.mod % 4)) s

/-- MAC (R209 to R211). -/
def execMac (i : Issue) (s : State) : Host.Outcome State Fault Refusal := mAcc i 0x08 3 (fun _ => accMac) s

/-- MSU (R209 to R211). -/
def execMsu (i : Issue) (s : State) : Host.Outcome State Fault Refusal := mAcc i 0x09 3 (fun _ => accMsu) s

/-- FMAC (R209 to R211). -/
def execFmac (i : Issue) (s : State) : Host.Outcome State Fault Refusal := mAcc i 0x0A 3 (fun _ => accFmac) s

/-- FMSU (R209 to R211). -/
def execFmsu (i : Issue) (s : State) : Host.Outcome State Fault Refusal := mAcc i 0x0B 3 (fun _ => accFmsu) s

/-- FMAC2 (R209 to R211). -/
def execFmac2 (i : Issue) (s : State) : Host.Outcome State Fault Refusal := mAcc i 0x0C 3 (fun _ => accFmac2) s

/-- CLRA (R209, R211). -/
def execClra (i : Issue) (s : State) : Host.Outcome State Fault Refusal := mAcc i 0x10 3 (fun _ _ _ _ => accClra) s

/-- MOVA (R209, R230). -/
def execMova (i : Issue) (s : State) : Host.Outcome State Fault Refusal := mAcc i 0x11 3 (fun _ x a _ => accMova x a) s

/-- ASL (R209, R229). -/
def execAsl (i : Issue) (s : State) : Host.Outcome State Fault Refusal := mAcc i 0x14 2 (fun y x a _ => accAsl x a y.mod) s

/-- ASR (R209, R229). -/
def execAsr (i : Issue) (s : State) : Host.Outcome State Fault Refusal := mAcc i 0x15 2 (fun y x a _ => accAsr x a y.mod) s

/-- ALSR (R209, R229). -/
def execAlsr (i : Issue) (s : State) : Host.Outcome State Fault Refusal := mAcc i 0x16 2 (fun y x a _ => accAlsr x a y.mod) s

/-- ACCI: the accumulator shifted, rounded and clamped, tag INT (R209, R211). -/
def execAcci (i : Issue) (s : State) : Host.Outcome State Fault Refusal :=
  sylCmd i (isU 2 0x18) (fun y s => s.sendG i.th 2 3 y.dst (accOut tagINT ((s.thr i.th).ac y.s1) y.s2 (y.mod % 4))) s

/-- ACCF: the accumulator shifted by 32, rounded and clamped, tag FRAC (R209, R211). -/
def execAccf (i : Issue) (s : State) : Host.Outcome State Fault Refusal :=
  sylCmd i (isU 2 0x19) (fun y s => s.sendG i.th 2 3 y.dst (accOut tagFRAC ((s.thr i.th).ac y.s1) 32 (y.mod % 4))) s

/-! ### The divide-and-root unit (R156) -/

/-- The results of a thread's operation in the divide-and-root unit taken from those in flight. -/
def dropDiv (t : Thread) : Thread := { t with land := t.land.filter fun x => !x.div }

/-- The same results set to land at a cycle. -/
def retimeDiv (t : Thread) (c : Nat) : Thread :=
  let l := t.land.filter (·.div)
  { t with land := (l.map fun x => { x with land := c }).foldl fly (t.land.filter fun x => !x.div), heldTo := c }

/-- An operation enters the unit for `n` cycles. One of a T-thread that finds another T-thread's there abandons that one, which is counted and marked; an
S-thread's it finds there is restarted once the unit is free, and its thread is held until then. -/
def divEnter (s : State) (m n : Nat) : State :=
  let e := m / 16
  let x := s.eng e
  let c := (s.thr m).issueAt
  let stays := match x.div with | some (v, till) => if c < till then some v else none | none => none
  let waiting := match x.divWait with
    | some (v, d) => (match x.div with | some (_, till) => if c < till + d then some (v, d) else none | none => none)
    | none => none
  let s1 :=
    match stays with
    | some v =>
      if thrIsT s v then ((s.withThr v dropDiv).count (npDiscR e)).setRf (thrStatR v) 28 28 1 else s
    | none => s
  let wait : Option (Nat × Nat) :=
    match stays with
    | some v => if thrIsT s v then waiting else some (v, (s.thr v).count)
    | none => waiting
  let s2 := s1.withEng e fun x => { x with div := some (m, c + n), divWait := wait }
  match wait with
  | some (v, d) => s2.withThr v fun t => retimeDiv t (c + n + d)
  | none => s2

/-- DIV: the quotient to an even register and the remainder to the next; with DST 0 the remainder alone (R209, R227). -/
def execDiv (i : Issue) (s : State) : Host.Outcome State Fault Refusal :=
  sylCmd i (isU 2 0x20) (fun y s =>
    let r := aluDiv ((s.thr i.th).gr y.s1) ((s.thr i.th).gr y.s2)
    ((divEnter s i.th 18).sendG i.th 2 18 y.dst r.1 true).sendG i.th 2 18 (y.dst + 1) r.2 true) s

/-- DIVU (R209, R227). -/
def execDivu (i : Issue) (s : State) : Host.Outcome State Fault Refusal :=
  sylCmd i (isU 2 0x21) (fun y s =>
    (divEnter s i.th 18).sendG i.th 2 18 y.dst (aluDivu ((s.thr i.th).gr y.s1) ((s.thr i.th).gr y.s2)) true) s

/-- FDIV (R209, R227). -/
def execFdiv (i : Issue) (s : State) : Host.Outcome State Fault Refusal :=
  sylCmd i (isU 2 0x22) (fun y s =>
    (divEnter s i.th 18).sendG i.th 2 18 y.dst (aluFdiv ((s.thr i.th).gr y.s1) ((s.thr i.th).gr y.s2)) true) s

/-- SQRT (R209, R228). -/
def execSqrt (i : Issue) (s : State) : Host.Outcome State Fault Refusal :=
  sylCmd i (isU 2 0x24) (fun y s => (divEnter s i.th 20).sendG i.th 2 20 y.dst (aluSqrt ((s.thr i.th).gr y.s1)) true) s

end Sys2Proof.Machine
end

