-- ==== Sys2Proof/Machine/Families.lean ====
section
/-! DEFINITION. Gathers the files of meanings, for the dispatch of the commands. -/
end

