-- ==== Sys2Proof/Machine/Dispatch.lean ====
section
/-! DEFINITION. exec: one arm for each command, each one direct call of the command's meaning. -/

namespace Sys2Proof.Machine

open Host

/-- The effect of one command on everything but the queue of waiting commands. -/
def exec (i : Instr) (s : State) : Host.Outcome State Fault Refusal :=
  match i with
  | .hatchSend h ix offer => Sys2Proof.Machine.execHatchSend h ix offer s
  | .hatchEntryArrive h xpr ecc => Sys2Proof.Machine.execHatchEntryArrive h xpr ecc s
  | .hatchRemove h => Sys2Proof.Machine.execHatchRemove h s
  | .hatchCreditReturn h => Sys2Proof.Machine.execHatchCreditReturn h s
  | .hatchSnap m val => Sys2Proof.Machine.execHatchSnap m val s
  | .hatchSnapshotDone dt => Sys2Proof.Machine.execHatchSnapshotDone dt s
  | .registerWrite m ofs val be => Sys2Proof.Machine.execRegisterWrite m ofs val be s
  | .epochAtWrite m val => Sys2Proof.Machine.execEpochAtWrite m val s
  | .epochSchedule m val => Sys2Proof.Machine.execEpochSchedule m val s
  | .epochCancel m val => Sys2Proof.Machine.execEpochCancel m val s
  | .epochArm dt late => Sys2Proof.Machine.execEpochArm dt late s
  | .epochCommit dt => Sys2Proof.Machine.execEpochCommit dt s
  | .epochRelease dt => Sys2Proof.Machine.execEpochRelease dt s
  | .stageReady dt => Sys2Proof.Machine.execStageReady dt s
  | .frameStart port dt first cell skipped => Sys2Proof.Machine.execFrameStart port dt first cell skipped s
  | .envelopeFormCt port dt more => Sys2Proof.Machine.execEnvelopeFormCt port dt more s
  | .frameRxEnd port dt rest how frags => Sys2Proof.Machine.execFrameRxEnd port dt rest how frags s
  | .envelopeEnterEnvA sl ix => Sys2Proof.Machine.execEnvelopeEnterEnvA sl ix s
  | .stallLimit port dt stalled => Sys2Proof.Machine.execStallLimit port dt stalled s
  | .egressUnderrun port dt => Sys2Proof.Machine.execEgressUnderrun port dt s
  | .linkDown port dt cause => Sys2Proof.Machine.execLinkDown port dt cause s
  | .linkUp port dt => Sys2Proof.Machine.execLinkUp port dt s
  | .preemptVerify port dt => Sys2Proof.Machine.execPreemptVerify port dt s
  | .refclkLoss g => Sys2Proof.Machine.execRefclkLoss g s
  | .laneCfgWrite m lane val => Sys2Proof.Machine.execLaneCfgWrite m lane val s
  | .xpolCfgWrite m port val => Sys2Proof.Machine.execXpolCfgWrite m port val s
  | .distribute stn dt => Sys2Proof.Machine.execDistribute stn dt s
  | .gateSend stn ix dt => Sys2Proof.Machine.execGateSend stn ix dt s
  | .gateTimeout stn ix dt => Sys2Proof.Machine.execGateTimeout stn ix dt s
  | .cellWrite frame cell more => Sys2Proof.Machine.execCellWrite frame cell more s
  | .depotEnvArrive sl => Sys2Proof.Machine.execDepotEnvArrive sl s
  | .matching dt => Sys2Proof.Machine.execMatching dt s
  | .phRelease port dt => Sys2Proof.Machine.execPhRelease port dt s
  | .intPhDeliver ix dt => Sys2Proof.Machine.execIntPhDeliver ix dt s
  | .gateIntervalEnd port dt => Sys2Proof.Machine.execGateIntervalEnd port dt s
  | .gclSwap m val => Sys2Proof.Machine.execGclSwap m val s
  | .gclSwapApply port dt => Sys2Proof.Machine.execGclSwapApply port dt s
  | .mcWrite m val => Sys2Proof.Machine.execMcWrite m val s
  | .mcRead m val => Sys2Proof.Machine.execMcRead m val s
  | .editorSend sl ecc pos => Sys2Proof.Machine.execEditorSend sl ecc pos s
  | .macTx port dt frags => Sys2Proof.Machine.execMacTx port dt frags s
  | .tsqPop m port => Sys2Proof.Machine.execTsqPop m port s
  | .timeCorrection dt => Sys2Proof.Machine.execTimeCorrection dt s
  | .timeSourceLock sec dt off => Sys2Proof.Machine.execTimeSourceLock sec dt off s
  | .timeSourceLoss sec dt => Sys2Proof.Machine.execTimeSourceLoss sec dt s
  | .timeStep m val => Sys2Proof.Machine.execTimeStep m val s
  | .timeTodArm m val => Sys2Proof.Machine.execTimeTodArm m val s
  | .timeInEdge dt width => Sys2Proof.Machine.execTimeInEdge dt width s
  | .timeInLoss dt => Sys2Proof.Machine.execTimeInLoss dt s
  | .timeOutEdge dt => Sys2Proof.Machine.execTimeOutEdge dt s
  | .dirInsert m sl val => Sys2Proof.Machine.execDirInsert m sl val s
  | .dirDelete m sl val => Sys2Proof.Machine.execDirDelete m sl val s
  | .dirLookupCmd m sl val => Sys2Proof.Machine.execDirLookupCmd m sl val s
  | .dirInvalidate m sl val => Sys2Proof.Machine.execDirInvalidate m sl val s
  | .dirWriteIdx m sl val => Sys2Proof.Machine.execDirWriteIdx m sl val s
  | .dirReadIdx m sl val => Sys2Proof.Machine.execDirReadIdx m sl val s
  | .dirFlush m sl val => Sys2Proof.Machine.execDirFlush m sl val s
  | .dirCmdDone sl dt => Sys2Proof.Machine.execDirCmdDone sl dt s
  | .learnInsert sl => Sys2Proof.Machine.execLearnInsert sl s
  | .dirBuild m sl code val => Sys2Proof.Machine.execDirBuild m sl code val s
  | .buildDone sl code dt => Sys2Proof.Machine.execBuildDone sl code dt s
  | .ageSweep sl dt => Sys2Proof.Machine.execAgeSweep sl dt s
  | .extFill sl no dt bad => Sys2Proof.Machine.execExtFill sl no dt bad s
  | .extFillTimeout sl no dt => Sys2Proof.Machine.execExtFillTimeout sl no dt s
  | .hotcacheSweep sl dt => Sys2Proof.Machine.execHotcacheSweep sl dt s
  | .resultLand m dt => Sys2Proof.Machine.execResultLand m dt s
  | .storeDrain e dt => Sys2Proof.Machine.execStoreDrain e dt s
  | .nop ix => Sys2Proof.Machine.execNop ix s
  | .add ix => Sys2Proof.Machine.execAdd ix s
  | .adds ix => Sys2Proof.Machine.execAdds ix s
  | .sub ix => Sys2Proof.Machine.execSub ix s
  | .subs ix => Sys2Proof.Machine.execSubs ix s
  | .neg ix => Sys2Proof.Machine.execNeg ix s
  | .negs ix => Sys2Proof.Machine.execNegs ix s
  | .abs ix => Sys2Proof.Machine.execAbs ix s
  | .abss ix => Sys2Proof.Machine.execAbss ix s
  | .minOp ix => Sys2Proof.Machine.execMinOp ix s
  | .maxOp ix => Sys2Proof.Machine.execMaxOp ix s
  | .minu ix => Sys2Proof.Machine.execMinu ix s
  | .maxu ix => Sys2Proof.Machine.execMaxu ix s
  | .andOp ix => Sys2Proof.Machine.execAndOp ix s
  | .orOp ix => Sys2Proof.Machine.execOrOp ix s
  | .xorOp ix => Sys2Proof.Machine.execXorOp ix s
  | .andn ix => Sys2Proof.Machine.execAndn ix s
  | .clz ix => Sys2Proof.Machine.execClz ix s
  | .popc ix => Sys2Proof.Machine.execPopc ix s
  | .bswap ix => Sys2Proof.Machine.execBswap ix s
  | .shl ix => Sys2Proof.Machine.execShl ix s
  | .shr ix => Sys2Proof.Machine.execShr ix s
  | .sar ix => Sys2Proof.Machine.execSar ix s
  | .ror ix => Sys2Proof.Machine.execRor ix s
  | .ceq ix => Sys2Proof.Machine.execCeq ix s
  | .cne ix => Sys2Proof.Machine.execCne ix s
  | .clt ix => Sys2Proof.Machine.execClt ix s
  | .cle ix => Sys2Proof.Machine.execCle ix s
  | .cltu ix => Sys2Proof.Machine.execCltu ix s
  | .cleu ix => Sys2Proof.Machine.execCleu ix s
  | .fadd ix => Sys2Proof.Machine.execFadd ix s
  | .fsub ix => Sys2Proof.Machine.execFsub ix s
  | .fneg ix => Sys2Proof.Machine.execFneg ix s
  | .fabs ix => Sys2Proof.Machine.execFabs ix s
  | .fadd2 ix => Sys2Proof.Machine.execFadd2 ix s
  | .fsub2 ix => Sys2Proof.Machine.execFsub2 ix s
  | .tadd ix => Sys2Proof.Machine.execTadd ix s
  | .tsub ix => Sys2Proof.Machine.execTsub ix s
  | .mov ix => Sys2Proof.Machine.execMov ix s
  | .movi ix => Sys2Proof.Machine.execMovi ix s
  | .tagOp ix => Sys2Proof.Machine.execTagOp ix s
  | .settag ix => Sys2Proof.Machine.execSettag ix s
  | .mtbk ix => Sys2Proof.Machine.execMtbk ix s
  | .mfbk ix => Sys2Proof.Machine.execMfbk ix s
  | .rdf ix => Sys2Proof.Machine.execRdf ix s
  | .clrf ix => Sys2Proof.Machine.execClrf ix s
  | .mul ix => Sys2Proof.Machine.execMul ix s
  | .mulhi ix => Sys2Proof.Machine.execMulhi ix s
  | .mulhu ix => Sys2Proof.Machine.execMulhu ix s
  | .fmul ix => Sys2Proof.Machine.execFmul ix s
  | .fmul2 ix => Sys2Proof.Machine.execFmul2 ix s
  | .mac ix => Sys2Proof.Machine.execMac ix s
  | .msu ix => Sys2Proof.Machine.execMsu ix s
  | .fmac ix => Sys2Proof.Machine.execFmac ix s
  | .fmsu ix => Sys2Proof.Machine.execFmsu ix s
  | .fmac2 ix => Sys2Proof.Machine.execFmac2 ix s
  | .clra ix => Sys2Proof.Machine.execClra ix s
  | .mova ix => Sys2Proof.Machine.execMova ix s
  | .asl ix => Sys2Proof.Machine.execAsl ix s
  | .asr ix => Sys2Proof.Machine.execAsr ix s
  | .alsr ix => Sys2Proof.Machine.execAlsr ix s
  | .acci ix => Sys2Proof.Machine.execAcci ix s
  | .accf ix => Sys2Proof.Machine.execAccf ix s
  | .div ix => Sys2Proof.Machine.execDiv ix s
  | .divu ix => Sys2Proof.Machine.execDivu ix s
  | .fdiv ix => Sys2Proof.Machine.execFdiv ix s
  | .sqrt ix => Sys2Proof.Machine.execSqrt ix s
  | .ld ix => Sys2Proof.Machine.execLd ix s
  | .ldh ix => Sys2Proof.Machine.execLdh ix s
  | .ldhu ix => Sys2Proof.Machine.execLdhu ix s
  | .ldb ix => Sys2Proof.Machine.execLdb ix s
  | .ldbu ix => Sys2Proof.Machine.execLdbu ix s
  | .st ix => Sys2Proof.Machine.execSt ix s
  | .sth ix => Sys2Proof.Machine.execSth ix s
  | .stb ix => Sys2Proof.Machine.execStb ix s
  | .rel ix => Sys2Proof.Machine.execRel ix s
  | .hcmd ix => Sys2Proof.Machine.execHcmd ix s
  | .kacq ix => Sys2Proof.Machine.execKacq ix s
  | .ktry ix => Sys2Proof.Machine.execKtry ix s
  | .krel ix => Sys2Proof.Machine.execKrel ix s
  | .ring ix => Sys2Proof.Machine.execRing ix s
  | .doorbellRingArrive target b dt => Sys2Proof.Machine.execDoorbellRingArrive target b dt s
  | .br ix => Sys2Proof.Machine.execBr ix s
  | .bz ix => Sys2Proof.Machine.execBz ix s
  | .bnz ix => Sys2Proof.Machine.execBnz ix s
  | .bltz ix => Sys2Proof.Machine.execBltz ix s
  | .bgez ix => Sys2Proof.Machine.execBgez ix s
  | .jmp ix => Sys2Proof.Machine.execJmp ix s
  | .call ix => Sys2Proof.Machine.execCall ix s
  | .callr ix => Sys2Proof.Machine.execCallr ix s
  | .ret ix => Sys2Proof.Machine.execRet ix s
  | .loopOp ix => Sys2Proof.Machine.execLoopOp ix s
  | .waitOp ix => Sys2Proof.Machine.execWaitOp ix s
  | .fence ix => Sys2Proof.Machine.execFence ix s
  | .reti ix => Sys2Proof.Machine.execReti ix s
  | .trapOp ix => Sys2Proof.Machine.execTrapOp ix s
  | .interruptEntry m dt => Sys2Proof.Machine.execInterruptEntry m dt s
  | .timerDue m dt => Sys2Proof.Machine.execTimerDue m dt s
  | .slotSwap m e val => Sys2Proof.Machine.execSlotSwap m e val s
  | .slotSwapApply e dt => Sys2Proof.Machine.execSlotSwapApply e dt s
  | .slotCopy m e val => Sys2Proof.Machine.execSlotCopy m e val s
  | .engRetire m e val => Sys2Proof.Machine.execEngRetire m e val s
  | .engineFail e dt cause => Sys2Proof.Machine.execEngineFail e dt cause s
  | .takeoverResume stn dt => Sys2Proof.Machine.execTakeoverResume stn dt s
  | .thrHalt m th val => Sys2Proof.Machine.execThrHalt m th val s
  | .thrResume m th val => Sys2Proof.Machine.execThrResume m th val s
  | .thrReset m th val => Sys2Proof.Machine.execThrReset m th val s
  | .softInt m th val => Sys2Proof.Machine.execSoftInt m th val s
  | .thrCfgWrite m th val => Sys2Proof.Machine.execThrCfgWrite m th val s
  | .standbyWrite m stn val => Sys2Proof.Machine.execStandbyWrite m stn val s
  | .helpCmdTake h dt => Sys2Proof.Machine.execHelpCmdTake h dt s
  | .setring ix => Sys2Proof.Machine.execSetring ix s
  | .helperNop h dt => Sys2Proof.Machine.execHelperNop h dt s
  | .gcmEnc h dt => Sys2Proof.Machine.execGcmEnc h dt s
  | .gcmDec h dt => Sys2Proof.Machine.execGcmDec h dt s
  | .gmac h dt => Sys2Proof.Machine.execGmac h dt s
  | .gmacChk h dt => Sys2Proof.Machine.execGmacChk h dt s
  | .hmac h dt => Sys2Proof.Machine.execHmac h dt s
  | .hmacChk h dt => Sys2Proof.Machine.execHmacChk h dt s
  | .sha256 h dt => Sys2Proof.Machine.execSha256 h dt s
  | .crc32 h dt => Sys2Proof.Machine.execCrc32 h dt s
  | .crc32c h dt => Sys2Proof.Machine.execCrc32c h dt s
  | .csum16 h dt => Sys2Proof.Machine.execCsum16 h dt s
  | .toDram h dt => Sys2Proof.Machine.execToDram h dt s
  | .fromDram h dt => Sys2Proof.Machine.execFromDram h dt s
  | .cellRd h dt => Sys2Proof.Machine.execCellRd h dt s
  | .helperSend h dt => Sys2Proof.Machine.execHelperSend h dt s
  | .dirLookup h dt => Sys2Proof.Machine.execDirLookup h dt s
  | .dirLearn h dt => Sys2Proof.Machine.execDirLearn h dt s
  | .helperCtResume h u dt => Sys2Proof.Machine.execHelperCtResume h u dt s
  | .helperComplete h u dt => Sys2Proof.Machine.execHelperComplete h u dt s
  | .helperLateError dt => Sys2Proof.Machine.execHelperLateError dt s
  | .keyRequestArrive island => Sys2Proof.Machine.execKeyRequestArrive island s
  | .keyStatusLand m dt => Sys2Proof.Machine.execKeyStatusLand m dt s
  | .keyRingCfgWrite m ring val => Sys2Proof.Machine.execKeyRingCfgWrite m ring val s
  | .keySnap m val => Sys2Proof.Machine.execKeySnap m val s
  | .tryKey m val => Sys2Proof.Machine.execTryKey m val s
  | .releaseKey m val => Sys2Proof.Machine.execReleaseKey m val s
  | .keyRingHost m val => Sys2Proof.Machine.execKeyRingHost m val s
  | .tapSend stn dt => Sys2Proof.Machine.execTapSend stn dt s
  | .tapinAccept dt => Sys2Proof.Machine.execTapinAccept dt s
  | .alignHoldExpiry g n smp dt => Sys2Proof.Machine.execAlignHoldExpiry g n smp dt s
  | .alignRelease g n dt => Sys2Proof.Machine.execAlignRelease g n dt s
  | .windowNode g n dt => Sys2Proof.Machine.execWindowNode g n dt s
  | .emitNode g n dt => Sys2Proof.Machine.execEmitNode g n dt s
  | .nodeDispatch bench dt => Sys2Proof.Machine.execNodeDispatch bench dt s
  | .pinnedDispatch g dt => Sys2Proof.Machine.execPinnedDispatch g dt s
  | .nodeDone bench dt => Sys2Proof.Machine.execNodeDone bench dt s
  | .nodeTimeout g n dt => Sys2Proof.Machine.execNodeTimeout g n dt s
  | .graphLoad m val => Sys2Proof.Machine.execGraphLoad m val s
  | .loadComplete dt => Sys2Proof.Machine.execLoadComplete dt s
  | .graphStart m val => Sys2Proof.Machine.execGraphStart m val s
  | .graphStop m val => Sys2Proof.Machine.execGraphStop m val s
  | .stoppingEnd g dt => Sys2Proof.Machine.execStoppingEnd g dt s
  | .graphUnload m val => Sys2Proof.Machine.execGraphUnload m val s
  | .recWrite dt => Sys2Proof.Machine.execRecWrite dt s
  | .recTrig m val => Sys2Proof.Machine.execRecTrig m val s
  | .recArm m val => Sys2Proof.Machine.execRecArm m val s
  | .postTriggerExpiry dt => Sys2Proof.Machine.execPostTriggerExpiry dt s
  | .dramRequest src dt => Sys2Proof.Machine.execDramRequest src dt s
  | .dramCommand ch dt ecc => Sys2Proof.Machine.execDramCommand ch dt ecc s
  | .refresh ch phys dt bank postpone => Sys2Proof.Machine.execRefresh ch phys dt bank postpone s
  | .tempRead ch phys dt temp => Sys2Proof.Machine.execTempRead ch phys dt temp s
  | .zqCalibration ch phys dt => Sys2Proof.Machine.execZqCalibration ch phys dt s
  | .readTimingRetune ch phys dt => Sys2Proof.Machine.execReadTimingRetune ch phys dt s
  | .patrolScrub ch rank dt ecc => Sys2Proof.Machine.execPatrolScrub ch rank dt ecc s
  | .trainingDone dt bad => Sys2Proof.Machine.execTrainingDone dt bad s
  | .fillDone dt => Sys2Proof.Machine.execFillDone dt s
  | .dramRankRetire m val => Sys2Proof.Machine.execDramRankRetire m val s
  | .migrationDone ch dt bad => Sys2Proof.Machine.execMigrationDone ch dt bad s
  | .meterReport island dt => Sys2Proof.Machine.execMeterReport island dt s
  | .ledgerTick dt sensors vin hall => Sys2Proof.Machine.execLedgerTick dt sensors vin hall s
  | .freqApply island dt => Sys2Proof.Machine.execFreqApply island dt s
  | .parkDone e dt => Sys2Proof.Machine.execParkDone e dt s
  | .parkAbort e dt => Sys2Proof.Machine.execParkAbort e dt s
  | .unparkDone e dt => Sys2Proof.Machine.execUnparkDone e dt s
  | .hostPark m val => Sys2Proof.Machine.execHostPark m val s
  | .hostUnpark m val => Sys2Proof.Machine.execHostUnpark m val s
  | .hostAuto m val => Sys2Proof.Machine.execHostAuto m val s
  | .linkLocked k dt => Sys2Proof.Machine.execLinkLocked k dt s
  | .helloSend k dt => Sys2Proof.Machine.execHelloSend k dt s
  | .helloRx k dt b => Sys2Proof.Machine.execHelloRx k dt b s
  | .dataRx k dt pm b => Sys2Proof.Machine.execDataRx k dt pm b s
  | .ackRx k dt b => Sys2Proof.Machine.execAckRx k dt b s
  | .nakRx k dt b => Sys2Proof.Machine.execNakRx k dt b s
  | .heartbeatRx k dt b => Sys2Proof.Machine.execHeartbeatRx k dt b s
  | .sealReqRx k dt b => Sys2Proof.Machine.execSealReqRx k dt b s
  | .sealRespRx k dt b => Sys2Proof.Machine.execSealRespRx k dt b s
  | .timeRx k dt pm b => Sys2Proof.Machine.execTimeRx k dt pm b s
  | .alarmRx k dt b => Sys2Proof.Machine.execAlarmRx k dt b s
  | .parcelSend k c dt => Sys2Proof.Machine.execParcelSend k c dt s
  | .ackSend k dt => Sys2Proof.Machine.execAckSend k dt s
  | .replayTimeout k dt => Sys2Proof.Machine.execReplayTimeout k dt s
  | .heartbeatSend k dt => Sys2Proof.Machine.execHeartbeatSend k dt s
  | .timeSend k dt => Sys2Proof.Machine.execTimeSend k dt s
  | .alarmParcelSend k dt => Sys2Proof.Machine.execAlarmParcelSend k dt s
  | .lockLoss k dt => Sys2Proof.Machine.execLockLoss k dt s
  | .heartbeatTimeout k dt => Sys2Proof.Machine.execHeartbeatTimeout k dt s
  | .linkRetry k dt => Sys2Proof.Machine.execLinkRetry k dt s
  | .bucketMoveDrain g b dt => Sys2Proof.Machine.execBucketMoveDrain g b dt s
  | .bucketMoveTimeout g b dt => Sys2Proof.Machine.execBucketMoveTimeout g b dt s
  | .bucketMonitor g dt => Sys2Proof.Machine.execBucketMonitor g dt s
  | .reseed dt => Sys2Proof.Machine.execReseed dt s
  | .reseedNow m val => Sys2Proof.Machine.execReseedNow m val s
  | .routeWrite m val => Sys2Proof.Machine.execRouteWrite m val s
  | .routeRead m val => Sys2Proof.Machine.execRouteRead m val s
  | .groupWrite m val => Sys2Proof.Machine.execGroupWrite m val s
  | .groupRead m val => Sys2Proof.Machine.execGroupRead m val s
  | .sealReady dt => Sys2Proof.Machine.execSealReady dt s
  | .sealReq m val => Sys2Proof.Machine.execSealReq m val s
  | .tenReset m val => Sys2Proof.Machine.execTenReset m val s
  | .tenRelease m val => Sys2Proof.Machine.execTenRelease m val s
  | .kslotWr m val => Sys2Proof.Machine.execKslotWr m val s
  | .kslotErase m val => Sys2Proof.Machine.execKslotErase m val s
  | .commitSvn m val => Sys2Proof.Machine.execCommitSvn m val s
  | .revoke m val => Sys2Proof.Machine.execRevoke m val s
  | .powerUp dt vin cycled badSlots badKeys => Sys2Proof.Machine.execPowerUp dt vin cycled badSlots badKeys s
  | .entryComplete dt badEngines badLanes badCells eccBanks => Sys2Proof.Machine.execEntryComplete dt badEngines badLanes badCells eccBanks s
  | .sag dt vin dur => Sys2Proof.Machine.execSag dt vin dur s
  | .removal dt => Sys2Proof.Machine.execRemoval dt s
  | .enableLow dt => Sys2Proof.Machine.execEnableLow dt s
  | .sysReset dt width badSlots badKeys => Sys2Proof.Machine.execSysReset dt width badSlots badKeys s
  | .perst => Sys2Proof.Machine.execPerst s
  | .withdrawReq dt high => Sys2Proof.Machine.execWithdrawReq dt high s
  | .wdreqStuck dt => Sys2Proof.Machine.execWdreqStuck dt s
  | .svcArm m val => Sys2Proof.Machine.execSvcArm m val s
  | .svcDisarm m val => Sys2Proof.Machine.execSvcDisarm m val s
  | .lifeWithdraw m val => Sys2Proof.Machine.execLifeWithdraw m val s
  | .lifeRestart m val => Sys2Proof.Machine.execLifeRestart m val s
  | .withdrawAdmissionStop dt => Sys2Proof.Machine.execWithdrawAdmissionStop dt s
  | .withdrawDrainEnd dt => Sys2Proof.Machine.execWithdrawDrainEnd dt s
  | .saveComplete dt badSlots badKeys => Sys2Proof.Machine.execSaveComplete dt badSlots badKeys s
  | .thermalShutdown dt => Sys2Proof.Machine.execThermalShutdown dt s
  | .powerReturn dt vin held cycled badSlots badKeys => Sys2Proof.Machine.execPowerReturn dt vin held cycled badSlots badKeys s
  | .capDepleted dt => Sys2Proof.Machine.execCapDepleted dt s
  | .checkpoint dt => Sys2Proof.Machine.execCheckpoint dt s
  | .checkpointReadback dt bad failed => Sys2Proof.Machine.execCheckpointReadback dt bad failed s
  | .holdupTest dt vhuc => Sys2Proof.Machine.execHoldupTest dt vhuc s
  | .testNow m val => Sys2Proof.Machine.execTestNow m val s
  | .holdupTestDone dt fall step => Sys2Proof.Machine.execHoldupTestDone dt fall step s
  | .sensorClear dt => Sys2Proof.Machine.execSensorClear dt s
  | .mbxGo m f val => Sys2Proof.Machine.execMbxGo m f val s
  | .ping dt => Sys2Proof.Machine.execPing dt s
  | .setWindow dt => Sys2Proof.Machine.execSetWindow dt s
  | .flashInfo dt => Sys2Proof.Machine.execFlashInfo dt s
  | .flashRead dt bad => Sys2Proof.Machine.execFlashRead dt bad s
  | .flashErase dt bad => Sys2Proof.Machine.execFlashErase dt bad s
  | .flashWrite dt bad => Sys2Proof.Machine.execFlashWrite dt bad s
  | .mbxRestart dt badSlots badKeys => Sys2Proof.Machine.execMbxRestart dt badSlots badKeys s
  | .mbxFwOpcode f => Sys2Proof.Machine.execMbxFwOpcode f s
  | .mbxResponse f => Sys2Proof.Machine.execMbxResponse f s
  | .mbxFwTimeout f dt => Sys2Proof.Machine.execMbxFwTimeout f dt s
  | .mbxAgentRestart dt => Sys2Proof.Machine.execMbxAgentRestart dt s
  | .flr f => Sys2Proof.Machine.execFlr f s
  | .statsSnap m ofs val => Sys2Proof.Machine.execStatsSnap m ofs val s
  | .statsClr m ofs val => Sys2Proof.Machine.execStatsClr m ofs val s
  | .cntClr m val => Sys2Proof.Machine.execCntClr m val s
  | .alarmRecord island => Sys2Proof.Machine.execAlarmRecord island s
  | .alarmPop m => Sys2Proof.Machine.execAlarmPop m s
  | .traceRecord => Sys2Proof.Machine.execTraceRecord s
  | .traceMark m val => Sys2Proof.Machine.execTraceMark m val s
  | .msixHoldoff v dt => Sys2Proof.Machine.execMsixHoldoff v dt s
  | .attnSample dt high => Sys2Proof.Machine.execAttnSample dt high s
  | .sbWrite m slot val => Sys2Proof.Machine.execSbWrite m slot val s
  | .sbRead m slot val => Sys2Proof.Machine.execSbRead m slot val s
  | .sbWriteRead m slot val => Sys2Proof.Machine.execSbWriteRead m slot val s
  | .sbDone slot dt status data => Sys2Proof.Machine.execSbDone slot dt status data s
  | .sbRecovery dt ok => Sys2Proof.Machine.execSbRecovery dt ok s
  | .mdioC22Write m n val => Sys2Proof.Machine.execMdioC22Write m n val s
  | .mdioC22Read m n val => Sys2Proof.Machine.execMdioC22Read m n val s
  | .mdioC45Address m n val => Sys2Proof.Machine.execMdioC45Address m n val s
  | .mdioC45Write m n val => Sys2Proof.Machine.execMdioC45Write m n val s
  | .mdioC45ReadIncrement m n val => Sys2Proof.Machine.execMdioC45ReadIncrement m n val s
  | .mdioC45Read m n val => Sys2Proof.Machine.execMdioC45Read m n val s
  | .mdioDone n dt res data => Sys2Proof.Machine.execMdioDone n dt res data s
  | .engmemWrite m ofs val => Sys2Proof.Machine.execEngmemWrite m ofs val s
  | .engmemRead m ofs => Sys2Proof.Machine.execEngmemRead m ofs s
  | .shmemWrite m ofs val => Sys2Proof.Machine.execShmemWrite m ofs val s
  | .shmemRead m ofs => Sys2Proof.Machine.execShmemRead m ofs s
  | .parseWrite m ofs val => Sys2Proof.Machine.execParseWrite m ofs val s
  | .edtplWrite m ofs val => Sys2Proof.Machine.execEdtplWrite m ofs val s
  | .gclWrite m ofs val => Sys2Proof.Machine.execGclWrite m ofs val s
  | .macsecWrite m ofs val => Sys2Proof.Machine.execMacsecWrite m ofs val s
  | .sysblkWrite m ofs val => Sys2Proof.Machine.execSysblkWrite m ofs val s
  | .strongWrite m ofs val => Sys2Proof.Machine.execStrongWrite m ofs val s
  | .decodeFault ix bad => Sys2Proof.Machine.execDecodeFault ix bad s
  | .verifyResponse port => Sys2Proof.Machine.execVerifyResponse port s
  | .refclkReturn g => Sys2Proof.Machine.execRefclkReturn g s
  | .txPllLockLoss dt lane => Sys2Proof.Machine.execTxPllLockLoss dt lane s
  | .entryStall dt cause badEngines badLanes badCells eccBanks => Sys2Proof.Machine.execEntryStall dt cause badEngines badLanes badCells eccBanks s
  | .vinDipEnd dt vin dur => Sys2Proof.Machine.execVinDipEnd dt vin dur s
  | .bar2Access f a wr data => Sys2Proof.Machine.execBar2Access f a wr data s
  | .registerRead m ofs => Sys2Proof.Machine.execRegisterRead m ofs s

end Sys2Proof.Machine
end

