-- ==== Sys2Proof/Safety.lean ====
section
/-! DEFINITION. What the statements say of states: the conditions under which a command has its own effect, and the whole-machine properties that every step keeps. -/

namespace Sys2Proof.Machine

/-! ### Conditions -/

/-- A master's access to an offset is let through, and at once: R479 bars functions above 0 from most offsets, R507 lets few offsets respond during ENTRY, and nothing stands
in the way of the access (R11, R12). -/
def reaches (s : State) (m ofs : Nat) : Bool := funcMay (funcOf m) ofs && (s.mode != 0 || entryMay ofs) && s.pathFree ofs

/-- A write is let through at once: it is also no staging write between arming and STAGE_READY (R37). -/
def delivers (s : State) (m ofs : Nat) (v : Word) : Bool := reaches s m ofs && !s.mustWait ofs true v

/-- A register stands at the offset and every ranged field of the word is in its range (R571, R577). -/
def inRange (ofs : Nat) (v : Word) : Bool :=
  match findReg ofs with
  | some d => inRanges d v
  | none => false

/-- A write that a register takes, or would take were it not refused by a rule of its own. -/
def takes (s : State) (m ofs : Nat) (v : Word) : Bool := delivers s m ofs v && inRange ofs v

/-! ### Syllables -/

/-- The syllable that an issue carries out and the state its meaning acts on (R192, R195): the one that stands next in its thread's bundle in progress, or the first of a bundle
that may begin and meets no fault. -/
def issuing (s : State) (i : Issue) : Option (Syl × State) :=
  let take (t : State) : State := (eccFixed t i).withThr i.th fun x => { x with todo := x.todo.drop 1 }
  match (s.thr i.th).todo with
  | y :: _ => if s.life.rails && i.dt == 0 then some (y, take s) else none
  | [] =>
    let s1 := s.tick i.th i.dt
    match nextBundle s1 i.th with
    | (.ok (y :: l), after) => if mayBegin s1 i.th && bundleFault s1 i.th (y :: l) == 0 then some (y, take (beginBundle s1 i.th (y :: l) after)) else none
    | _ => none

/-- What no syllable of the A and M units and no branch changes beside its thread's results in flight and its place in the program: the thread's registers and flags, every other
thread, every register but the thread's PC and status, data memory and store buffers, shared memory, frames, stations, the Depot, hatches, keys and time. -/
def Still (m : Nat) (a b : State) : Prop :=
  (b.thr m).g = (a.thr m).g ∧ (b.thr m).acc = (a.thr m).acc ∧ (b.thr m).bk = (a.thr m).bk ∧ (b.thr m).flags = (a.thr m).flags ∧ (∀ k, k ≠ m → b.thr k = a.thr k) ∧
    (∀ k, k ≠ thrPcR m → k ≠ thrStatR m → b.reg k = a.reg k) ∧ (∀ e, (b.eng e).local_ = (a.eng e).local_ ∧ (b.eng e).stores = (a.eng e).stores) ∧
    b.shared = a.shared ∧ b.frames = a.frames ∧ b.stations = a.stations ∧ b.depot = a.depot ∧ b.hatches = a.hatches ∧ b.keys = a.keys ∧ b.now = a.now

/-- What a result of a syllable looks like in flight (R153): kind and register, value, flags, distance in cycles, the unit whose priority it has, an S-thread's load delay, and whether it
comes from the divide-and-root unit. -/
def inFlight (t : Thread) (kind reg : Nat) (val : TWord) (flags dist unit delay : Nat) (div : Bool) : Landing :=
  ⟨kind, reg, val, default, flags, t.issueAt + dist, if kind = 5 then 0 else prioOf unit, t.seq, if delay = 0 then 0 else t.seq + delay - 1, div⟩

/-! ### Helper commands -/

/-- The block as a helper command p finds it when its unit starts it (R244, R255): time advanced, its waiting place free, the command marked begun, and its island's stores that are due
in memory. -/
def begunAt (s : State) (h dt : Nat) (p : HelpCmd × Nat) : State :=
  let a := advance s dt
  let u := helpUnitOf (cwFunc p.1.word)
  let x := a.hunit h u
  ((a.setHunit h u (if p.1.timed then { x with waitT := none } else { x with waitS := none })).withThr p.1.thread fun t => { t with begun := t.begun ++ [p.1.tag] }).drainIsland
    (engIsland (p.1.thread / 16))

/-- That command with the eight words of its block. -/
def blockAt (s : State) (h dt : Nat) (p : HelpCmd × Nat) : HelpIn :=
  { h := h, c := p.1, w := (List.range 8).map fun k => shmWord (begunAt s h dt p) (engIsland (p.1.thread / 16)) (p.1.ptr + 4 * k) }

/-- The next command of function f of its unit of helper h is p, its thread is not being reset, and its block breaks none of the rules that every block obeys. -/
def starts (s : State) (h dt f : Nat) (p : HelpCmd × Nat) : Bool :=
  (advance s dt).life.rails && decide (h < helperCount) && (chosen (advance s dt) h (helpUnitOf f) == some p) && cwFunc p.1.word == f &&
    !((begunAt s h dt p).thr p.1.thread).voiding && (blockBad (blockAt s h dt p)).isEmpty

/-- What the unit of function f runs in t: the command with its arrival number, the status it will end with, its two result words and the bytes it will write. -/
def running (t : State) (h f : Nat) : Option (HelpCmd × Nat × Nat × Nat × Nat × List (Nat × List Byte × Bool)) :=
  (t.hunit h (helpUnitOf f)).run.map fun j => (j.cmd, j.arr, j.status, j.res0, j.res1, j.writes)

/-! ### Parcels -/

/-- A link as it judges a received parcel: time advanced, and the parcel's ACK and RFREE used (R428, R437). -/
def acked (s : State) (k dt : Nat) (b : List Byte) : State := takeAck (advance s dt) k (pAck b) (pf b 3 10 4)

/-- A link that has accepted a sequenced parcel and not yet acted on it: EXP goes on and an acknowledgement is due (R434, R435). -/
def accepted (s : State) (k dt : Nat) (b : List Byte) : State :=
  (parcelStats (acked s k dt b) k 2 b.length b).withLink k fun l =>
    { l with exp := (l.exp + 1) % 4096, nakSent := false, ackDue := match l.ackDue with | some t => some t | none => some (acked s k dt b).up }

/-- A good parcel of a type arrives on a link in CHECK, UP or LEAVING that MACsec does not protect. -/
def receives (s : State) (k : Nat) (b : List Byte) (typ : Nat) : Bool :=
  !linkSecured s k && s.dataPath && decide (k < 32) && openStates.contains (linkState s k) && pGood b && !pReserved b && pType b == typ

/-- A parcel's SEQ is EXP. -/
def inOrder (s : State) (k : Nat) (b : List Byte) : Bool := (pSeq b + 4096 - (s.link k).exp) % 4096 == 0

/-! ### The mailbox -/

/-- A function's request as it stands completed in t (R538): BUSY clear, DONE set, the status, the length and the request's tag in HALL_MBX_STAT, the response data in the page, and the
request no longer in the agent's queue. -/
def answered (s t : State) (f status : Nat) (data : List Byte) : Bool :=
  !mbxBusy t f && t.rb (Reg.mbxStat f) 30 && t.rf (Reg.mbxStat f) 23 16 == status && t.rf (Reg.mbxStat f) 15 8 == data.length && t.rf (Reg.mbxStat f) 7 0 == reqTag s f &&
    shmBytes t 81 (0x1F0000 + f * 0x200 + 0xC0) data.length == data && !t.mbxQ.contains f

/-! ### Whole-machine properties -/

/-- What one-time-programmable fuses can become: the version never falls, a revoked slot stays revoked, and the key hashes stand (R484, R513). -/
def Grows (a b : OtpSt) : Prop := a.svn ≤ b.svn ∧ (∀ k ∈ a.revoked, k ∈ b.revoked) ∧ a.hashes = b.hashes

end Sys2Proof.Machine
end

