-- ==== Sys2Proof/Certificates/Slice0/Obligations.lean ====
section
/-! DEFINITION. The statements for the provers: for every command of the table where it has its own effect and what it leaves, the whole-machine properties, and what reset leaves. The rules a statement follows are named in
its docstring. -/

open Sys2Proof Sys2Proof.Machine

/-! ### The whole block -/

/-- The queue: a step takes the command at the front and carries it out on the state with the rest of the queue; with an empty queue the block idles (the model's choice, log entry 1). -/
def Obligations.StepTakesTheFront : Prop :=
  (∀ (s : State) (c : Instr) (r : List Instr), s.pending = c :: r → step s = exec c { s with pending := r }) ∧
  (∀ s : State, s.pending = [] → step s = .next s)

/-- Every command of the table answers a next state in every state, and leaves the queue of the others as it is: none is refused, none faults. That a command whose event the state does not admit leaves the state but for time is the model's choice (log entry 2). -/
def Obligations.EveryCommandCompletes : Prop := ∀ (c : Instr) (s : State), ∃ t, exec c s = .next t ∧ t.pending = s.pending

/-- R490: one-time-programmable contents only grow. For any contents that the fuses have grown from, every step keeps it so: in no step does the security version fall, a revoked key hash slot return, or a key
hash change. -/
def Obligations.FusesOnlyGrow : Prop := ∀ (o : OtpSt) (s t : State), Grows o s.otp → step s = .next t → Grows o t.otp

/-- Reset: the block is in ENTRY, every hatch has all its credits, no frame stands in the cell memory, module time is not locked, every thread is OFF, every tenancy ACTIVE, and no fuse is blown. The start in ENTRY with the fuses as shipped and the state that no table lists empty are the model's choices (log entries 4 and 7). -/
def Obligations.ResetLeavesTheBlockEmpty : Prop :=
  State.reset.pending = [] ∧ State.reset.mode = 0 ∧ (∀ h, (State.reset.hatch h).credits h = hatchDepth h ∧ (State.reset.hatch h).xcredits h = hatchXdepth h) ∧
    State.reset.frames = [] ∧ State.reset.rb Reg.timeStatus 0 = false ∧ (∀ m < 64, thrState State.reset m = 0) ∧ (∀ x < 8, tenActive State.reset x = true) ∧
    State.reset.otp.svn = 0 ∧ State.reset.otp.revoked = [] ∧ Memory.wf State.reset.dram.mem = true ∧ State.reset.evt.queue = [] ∧ State.reset.rf Reg.epochStatus 18 16 = 0

/-! ### Hatches (chapter 1) -/

/-- R17 to R21, R23, R25: HATCH_SEND of a held entry that has a credit, of a new entry, and of an alarm summary: the entry is in transit and uses a credit of its sub-channel, and the other hatches stay as they
are. An entry in transit becomes visible at the end of its sub-channel; the consumer takes the oldest express entry, or with none the oldest general one, and its producer's credits come back only with the
removed count. A double-bit error voids an envelope on its way with cause HATCH_ECC, empties any other payload, raises HATCH_ECC_DBL,
and ends the frame of a flit errored. A flit, a cell and an access are done with as they are taken. -/
def Obligations.HatchesCarryEntries : Prop :=
  (∀ (s : State) (h i : Nat) (e : HEntry) (xp : Bool), s.life.rails = true → hatchExists h = true → h / 128 ≠ 0x14 → (s.hatch h).held[i]? = some e →
    heldBack h ((s.hatch h).held.take i) e = false → s.replyRoom h e = true → (s.hatch h).channel h e = some xp →
    ∃ t, exec (.hatchSend h i none) s = .next t ∧ (t.hatch h).held = dropAt (s.hatch h).held i ∧
      (if xp then (t.hatch h).xTransit = (s.hatch h).xTransit ++ [e] ∧ (t.hatch h).xcredits h + 1 = (s.hatch h).xcredits h
       else (t.hatch h).gTransit = (s.hatch h).gTransit ++ [e] ∧ (t.hatch h).credits h + 1 = (s.hatch h).credits h) ∧
      (∀ k, h / 128 ≠ 0x10 → k ≠ h → t.hatch k = s.hatch k) ∧ (h / 128 ≠ 0x10 → t.regs = s.regs)) ∧
  (∀ (s : State) (h i f : Nat) (l : List Byte), s.life.rails = true → hatchExists h = true → hatchOffers (h / 128) (.data f l) = true → (s.hatch h).held = [] →
    (s.hatch h).channel h ⟨.data f l, 0, false⟩ = some false →
    ∃ t, exec (.hatchSend h i (some ⟨.data f l, 0, false⟩)) s = .next t ∧
      (t.hatch h).gTransit = (s.hatch h).gTransit ++ [⟨.data f l, 0, false⟩] ∧ (t.hatch h).credits h + 1 = (s.hatch h).credits h ∧
      (∀ k, k ≠ h → t.hatch k = s.hatch k) ∧ t.regs = s.regs) ∧
  (∀ (s : State) (h i : Nat), s.life.rails = true → hatchExists h = true → h / 128 = 0x14 → 0 < (s.hatch h).carry → 0 < (s.hatch h).credits h →
    ∃ t, exec (.hatchSend h i none) s = .next t ∧ (t.hatch h).carry = 0 ∧
      (t.hatch h).gTransit = (s.hatch h).gTransit ++ [⟨.alarm (carriedAlarm s h), 0, false⟩] ∧ (t.hatch h).credits h + 1 = (s.hatch h).credits h ∧
      (∀ k, k ≠ h → t.hatch k = s.hatch k) ∧ t.regs = s.regs) ∧
  (∀ (s : State) (h : Nat) (e : HEntry) (r : List HEntry), s.life.rails = true → (s.hatch h).gTransit = e :: r →
    ∃ t, exec (.hatchEntryArrive h false 0) s = .next t ∧ (t.hatch h).gTransit = r ∧ (t.hatch h).gFifo = (s.hatch h).gFifo ++ [e] ∧
      (t.hatch h).credits h = (s.hatch h).credits h ∧ (∀ k, k ≠ h → t.hatch k = s.hatch k)) ∧
  (∀ (s : State) (h : Nat) (e : HEntry) (r : List HEntry), s.life.rails = true → (s.hatch h).xTransit = e :: r →
    ∃ t, exec (.hatchEntryArrive h true 0) s = .next t ∧ (t.hatch h).xTransit = r ∧ (t.hatch h).xFifo = (s.hatch h).xFifo ++ [e] ∧
      (t.hatch h).xcredits h = (s.hatch h).xcredits h ∧ (∀ k, k ≠ h → t.hatch k = s.hatch k)) ∧
  (∀ (s : State) (h : Nat) (e : HEntry) (r : List HEntry), s.life.rails = true → takenElsewhere h = false → doneAtOnce (h / 128) = false → (s.hatch h).xFifo = e :: r →
    ∃ t, exec (.hatchRemove h) s = .next t ∧ (t.hatch h).xFifo = r ∧ (t.hatch h).gFifo = (s.hatch h).gFifo ∧
      (t.hatch h).xRemoved = (s.hatch h).xRemoved + 1 ∧ (t.hatch h).taken = (s.hatch h).taken ++ [e] ∧
      (t.hatch h).xcredits h = (s.hatch h).xcredits h ∧ (∀ k, k ≠ h → t.hatch k = s.hatch k)) ∧
  (∀ (s : State) (h : Nat) (e : HEntry) (r : List HEntry), s.life.rails = true → takenElsewhere h = false → doneAtOnce (h / 128) = false → (s.hatch h).xFifo = [] → (s.hatch h).gFifo = e :: r →
    ∃ t, exec (.hatchRemove h) s = .next t ∧ (t.hatch h).gFifo = r ∧ (t.hatch h).gRemoved = (s.hatch h).gRemoved + 1 ∧
      (t.hatch h).taken = (s.hatch h).taken ++ [e] ∧ (t.hatch h).credits h = (s.hatch h).credits h ∧ (∀ k, k ≠ h → t.hatch k = s.hatch k)) ∧
  (∀ (s : State) (h : Nat) (e : HEntry) (r : List HEntry), s.life.rails = true → takenElsewhere h = false → doneAtOnce (h / 128) = true → h / 128 ≠ 0x18 → stillHeld s e = false →
    (s.hatch h).xFifo = [] → (s.hatch h).gFifo = e :: r →
    ∃ t, exec (.hatchRemove h) s = .next t ∧ (t.hatch h).gFifo = r ∧ (t.hatch h).gRemoved = (s.hatch h).gRemoved + 1 ∧ (t.hatch h).taken = (s.hatch h).taken ∧
      (t.hatch h).credits h = (s.hatch h).credits h) ∧
  (∀ (s : State) (h : Nat), s.life.rails = true → (s.hatch h).gUnseen ≤ (s.hatch h).gOut.length → (s.hatch h).gOut.length ≤ hatchDepth h → (h / 128 = 0x18 → (s.link (h % 128)).rxBuf = []) →
    ∃ t, exec (.hatchCreditReturn h) s = .next t ∧ (t.hatch h).credits h = (s.hatch h).credits h + (s.hatch h).gUnseen ∧ (t.hatch h).gUnseen = 0 ∧
      (t.hatch h).gFifo = (s.hatch h).gFifo ∧ (∀ k, k ≠ h → t.hatch k = s.hatch k)) ∧
  (∀ (s : State) (h : Nat) (e : HEntry) (r : List HEntry), s.life.rails = true → (∀ c l, e.pay ≠ .data c l) → (s.hatch h).gTransit = e :: r →
    (∃ t : State, exec (.hatchEntryArrive h false 2) s = .next (t.raise 0x0101 (hatchConsumer h) 0 h) ∧ (t.hatch h).gTransit = r ∧
      (t.hatch h).gFifo = (s.hatch h).gFifo ++ [hitEntry h e] ∧ t.evt = s.evt ∧ (∀ k, k ≠ h → t.hatch k = s.hatch k))) ∧
  (∀ (s : State) (h : Nat) (e : HEntry) (r : List HEntry), s.life.rails = true → (∀ c l, e.pay ≠ .data c l) → (s.hatch h).xTransit = e :: r →
    (∃ t : State, exec (.hatchEntryArrive h true 2) s = .next (t.raise 0x0101 (hatchConsumer h) 0 h) ∧ (t.hatch h).xTransit = r ∧
      (t.hatch h).xFifo = (s.hatch h).xFifo ++ [hitEntry h e] ∧ t.evt = s.evt ∧ (∀ k, k ≠ h → t.hatch k = s.hatch k))) ∧
  (∀ (s : State) (h p c : Nat) (l : List Byte) (r : List HEntry) (x : RxFrame), s.life.rails = true → h / 128 = 0 → rxPort s c = some p → (s.port p).rx = some x → x.cell = c →
    (s.port p).rxPre = none → (s.hatch h).gTransit = ⟨.data c l, 0, false⟩ :: r →
    (∃ t : State, exec (.hatchEntryArrive h false 2) s = .next (hitRx (t.raise 0x0101 (hatchConsumer h) 0 h) p c) ∧ (t.hatch h).gTransit = r ∧
      (t.hatch h).gFifo = (s.hatch h).gFifo ++ [⟨.errored, 0, false⟩] ∧ (∀ k, k ≠ h → t.hatch k = s.hatch k)))

/-- R27: SNAP names a hatch and clears DONE; the snapshot done, DONE is set, NOHATCH tells whether the hatch exists, the four registers hold its depth,
occupancy, credits, peaks and wait cycles, and the peaks restart at the present occupancy. -/
def Obligations.HatchSnapshotCaptures : Prop :=
  (∀ (s : State) (m : Nat) (v : Word), takes s m Reg.hatchSel v = true → bitOf v 16 = true →
    ∃ t, exec (.hatchSnap m v) s = .next t ∧ t.snapReq = some (fld v 11 0) ∧ t.rb Reg.hatchSel 24 = false ∧ t.hatches = s.hatches) ∧
  (∀ (s : State) (dt h : Nat), s.life.rails = true → s.snapReq = some h → hatchExists h = true →
    ∃ t, exec (.hatchSnapshotDone dt) s = .next t ∧ t.snapReq = none ∧ t.rb Reg.hatchSel 24 = true ∧ t.rb Reg.hatchSel 25 = false ∧
      t.reg Reg.hatchWait = BitVec.ofNat 32 (s.hatch h).waits ∧ t.reg Reg.hatchPeak = BitVec.ofNat 32 ((s.hatch h).xpeak * 2 ^ 16 + (s.hatch h).peak) ∧
      t.reg Reg.hatchStat = BitVec.ofNat 32 (hatchDepth h * 2 ^ 16 + (s.hatch h).gFifo.length * 2 ^ 8 + (s.hatch h).credits h) ∧
      t.reg Reg.hatchXstat = BitVec.ofNat 32 (hatchXdepth h * 2 ^ 16 + (s.hatch h).xFifo.length * 2 ^ 8 + (s.hatch h).xcredits h) ∧
      (t.hatch h).peak = (s.hatch h).gFifo.length ∧ (t.hatch h).xpeak = (s.hatch h).xFifo.length) ∧
  (∀ (s : State) (dt h : Nat), s.life.rails = true → s.snapReq = some h → hatchExists h = false →
    ∃ t, exec (.hatchSnapshotDone dt) s = .next t ∧ t.rb Reg.hatchSel 24 = true ∧ t.rb Reg.hatchSel 25 = true ∧ t.reg Reg.hatchStat = 0 ∧ t.hatches = s.hatches)

/-! ### The epoch (chapter 1) -/

/-- R34, R36, R38: the write of HALL_EPOCH_AT_HI latches the postmark with the low word held for the same master; SCHEDULE makes a commit PENDING at it, with XMOD for the
seal of the next epoch; CANCEL ends a PENDING commit that the Hall need not arm yet; and a SCHEDULE or CANCEL that the rules bar is refused. -/
def Obligations.EpochScheduleAndCancel : Prop :=
  (∀ (s : State) (m : Nat) (v lo : Word), s.life.rails = true → takes s m Reg.epochAtHi v = true → s.held m Reg.epochAtLo = some lo →
    ∃ t, exec (.epochAtWrite m v) s = .next t ∧ t.epoch.atLatched = v.toNat * 2 ^ 32 + lo.toNat ∧ t.held m Reg.epochAtLo = none ∧ t.now = s.now) ∧
  (∀ (s : State) (m : Nat) (v : Word), s.life.rails = true → takes s m Reg.epochCtl v = true → bitOf v 0 = true → bitOf v 1 = false → bitOf v 16 = false →
    epochState s = 0 ∨ epochState s = 4 → s.rb Reg.epochStatus 20 = true → s.epoch.atLatched % 2 ^ 30 < 1000000000 →
    s.now + 1000000 * nsUnit ≤ timeOfPm s.epoch.atLatched → timeOfPm s.epoch.atLatched ≤ s.now + 60 * secUnit →
    ∃ t, exec (.epochSchedule m v) s = .next t ∧ epochState t = 1 ∧ t.epoch.atSched = timeOfPm s.epoch.atLatched ∧ t.epoch.xmod = false ∧
      t.rf Reg.epochStatus 15 0 = s.rf Reg.epochStatus 15 0) ∧
  (∀ (s : State) (m : Nat) (v : Word), s.life.rails = true → takes s m Reg.epochCtl v = true → bitOf v 0 = true → bitOf v 16 = true →
    scheduleRefused v s = false →
    ∃ t, exec (.epochSchedule m v) s = .next t ∧ epochState t = 1 ∧ t.epoch.atSched = timeOfPm s.epoch.atLatched ∧ t.epoch.xmod = true ∧
      t.rf Reg.courSealStat 15 8 = (s.epoch.sealEpoch + 1) % 256 ∧ t.rb Reg.courSealStat 30 = false) ∧
  (∀ (s : State) (m : Nat) (v : Word), s.life.rails = true → takes s m Reg.epochCtl v = true → bitOf v 0 = true →
    bitOf v 1 = true ∨ epochState s = 1 ∨ epochState s = 2 ∨ epochState s = 3 ∨ s.rb Reg.epochStatus 20 = false ∨ 1000000000 ≤ s.epoch.atLatched % 2 ^ 30 ∨
      timeOfPm s.epoch.atLatched < s.now + 1000000 * nsUnit ∨ s.now + 60 * secUnit < timeOfPm s.epoch.atLatched →
    exec (.epochSchedule m v) s = .next (s.reject Reg.epochCtl)) ∧
  (∀ (s : State) (m : Nat) (v : Word), s.life.rails = true → takes s m Reg.epochCtl v = true → bitOf v 1 = true → bitOf v 0 = false → epochState s = 1 →
    s.now + 100000 * nsUnit < s.epoch.atSched →
    ∃ t, exec (.epochCancel m v) s = .next t ∧ epochState t = 0 ∧ t.epoch.xmod = false ∧ t.rf Reg.epochStatus 15 0 = s.rf Reg.epochStatus 15 0) ∧
  (∀ (s : State) (m : Nat) (v : Word), s.life.rails = true → takes s m Reg.epochCtl v = true → bitOf v 1 = true →
    bitOf v 0 = true ∨ epochState s ≠ 1 ∨ s.epoch.atSched ≤ s.now + 100000 * nsUnit →
    exec (.epochCancel m v) s = .next (s.reject Reg.epochCtl))

/-- R31, R32, R35, R37: arming 100 µs before the postmark, with every island ready, or the abort that names the lowest island that is not; the commit at it, in which the
active and staging copies exchange and NOW_NUM advances; the release of the old copy; and the staging copies ready again. The accesses held meanwhile are made then, in front of the TEN block first, in the order of log entry 24. -/
def Obligations.EpochCommitExchangesCopies : Prop :=
  (∀ (s : State) (dt : Nat) (late : List Nat), s.life.rails = true → epochState (advance s dt) = 1 →
    (advance s dt).epoch.atSched ≤ (advance s dt).now + 100000 * nsUnit → notReady (advance s dt) (late.filter fun j => decide (j ≤ 83)) = [] →
    ∃ t, exec (.epochArm dt late) s = .next t ∧ epochState t = 2 ∧ t.epoch = s.epoch ∧ t.dirs = s.dirs) ∧
  (∀ (s : State) (dt i : Nat) (late r : List Nat), s.life.rails = true → epochState (advance s dt) = 1 →
    (advance s dt).epoch.atSched ≤ (advance s dt).now + 100000 * nsUnit → notReady (advance s dt) (late.filter fun j => decide (j ≤ 83)) = i :: r →
    ∃ t, exec (.epochArm dt late) s = .next t ∧ epochState t = 4 ∧ t.rf Reg.epochStatus 31 24 = r.foldl min i % 256 ∧ t.dirs = s.dirs) ∧
  (∀ (s : State) (dt : Nat), s.life.rails = true → epochState (advance s dt) = 2 → s.epoch.oldReadable = false → s.epoch.xmod = false →
    s.epoch.atSched ≤ (advance s dt).now →
    ∃ t, exec (.epochCommit dt) s = .next t ∧ t.rf Reg.epochStatus 7 0 = (s.rf Reg.epochStatus 7 0 + 1) % 256 ∧
      t.rf Reg.epochStatus 15 8 = (s.rf Reg.epochStatus 7 0 + 2) % 256 ∧ t.dirs.vlanA = s.dirs.vlanS ∧ t.dirs.vlanS = s.dirs.vlanA ∧
      t.dirs.lpmA = s.dirs.lpmS ∧ t.dirs.lpmS = s.dirs.lpmA ∧ t.dirs.rootA = s.dirs.rootS ∧ t.dirs.rootS = s.dirs.rootA ∧
      t.epoch.sysA = s.epoch.sysS ∧ t.epoch.sysS = s.epoch.sysA ∧ t.epoch.oldReadable = true ∧ t.epoch.lastAt = s.epoch.atSched ∧
      (∀ i < 16, rehashBuilt s i 1 = false → (t.slice i).statA = (s.slice i).statS ∧ (t.slice i).statS = (s.slice i).statA) ∧
      (∀ i < 64, t.reg (Reg.tenPortAct i) = s.reg (Reg.tenPortMap i) ∧ t.reg (Reg.tenPortMap i) = s.reg (Reg.tenPortAct i))) ∧
  (∀ (s : State) (dt : Nat), s.life.rails = true → s.epoch.oldReadable = true → s.epoch.lastAt + 5000 * nsUnit ≤ (advance s dt).now →
    earlyFrame (advance s dt) = false ∨ s.epoch.lastAt + 1004000 * nsUnit ≤ (advance s dt).now →
    ∃ t, exec (.epochRelease dt) s = .next t ∧ epochState t = 3 ∧ t.rb Reg.epochStatus 20 = false ∧ t.epoch.oldReadable = false ∧
      t.dirs.vlanA = s.dirs.vlanA ∧ t.epoch.sysA = s.epoch.sysA) ∧
  (∀ (s : State) (dt : Nat), s.life.rails = true → epochState (advance s dt) = 3 →
    (∃ u : State, exec (.stageReady dt) s = .next (((List.range 16).map (48 + ·) ++ [72]).foldl drainCfg (drainTen u)) ∧ epochState u = 0 ∧ u.rb Reg.epochStatus 20 = true ∧
      u.dirs.vlanS = s.dirs.vlanA ∧ u.dirs.lpmS = s.dirs.lpmA ∧ u.dirs.rootS = s.dirs.rootA ∧ u.epoch.sysS = s.epoch.sysA ∧ u.epoch.heldAcc = s.epoch.heldAcc ∧
      (∀ i < 16, (u.slice i).statS = (s.slice i).statA)))

/-! ### Time (chapter 3) -/

/-- R103, R104, R109 to R112: a source that locks is in use at once where it is the primary, or the primary is not locked; before the first lock module time steps to it, after that it slews. A
source lost leaves the other, or holdover. A pulse of TIME_IN below 50 ns is counted and ignored; the third edge in a row spaced 1 s apart within 10 µs locks TIME_IN; once it is locked, an edge in phase is taken and an
edge more than 1 µs out of phase is counted; with no edge for 1 s + 10 µs the lock is lost; TIME_OUT takes its level; a write of TIME_TOD_SEC_HI arms the second of the next edge. When a slew ends and what counts as an edge in sequence rest on log entry 26. -/
def Obligations.TimeFollowsItsSources : Prop :=
  (∀ (s : State) (dt : Nat) (off : Int), s.life.rails = true → srcOf s false ≠ 0 → srcOf s false ≠ 1 ∨ s.time.inLocked = true →
    srcOf s false ≠ 3 ∨ courTimeOk (advance s dt) = true → s.rb Reg.timeStatus 0 = false →
    ∃ t, exec (.timeSourceLock false dt off) s = .next t ∧ t.time.priLocked = true ∧ t.now = (((advance s dt).now : Int) + off).toNat ∧
      t.rb Reg.timeStatus 0 = true ∧ t.rf Reg.timeStatus 10 8 = 2) ∧
  (∀ (s : State) (dt : Nat) (off : Int), s.life.rails = true → srcOf s false ≠ 0 → srcOf s false ≠ 1 ∨ s.time.inLocked = true →
    srcOf s false ≠ 3 ∨ courTimeOk (advance s dt) = true → s.rb Reg.timeStatus 0 = true →
    ∃ t, exec (.timeSourceLock false dt off) s = .next t ∧ t.time.priLocked = true ∧ t.now = (advance s dt).now ∧ t.time.slew = off ∧
      t.rf Reg.timeStatus 10 8 = 2) ∧
  (∀ (s : State) (dt : Nat) (off : Int), s.life.rails = true → srcOf s true ≠ 0 → srcOf s true ≠ 1 ∨ s.time.inLocked = true →
    srcOf s true ≠ 3 ∨ courTimeOk (advance s dt) = true →
    ∃ t, exec (.timeSourceLock true dt off) s = .next t ∧ t.time.secLocked = true ∧ t.time.priLocked = s.time.priLocked ∧
      t.rf Reg.timeStatus 10 8 = if s.time.priLocked then 2 else 3) ∧
  (∀ (s : State) (dt : Nat), s.life.rails = true → s.time.priLocked = true →
    ∃ t, exec (.timeSourceLoss false dt) s = .next t ∧ t.time.priLocked = false ∧ t.now = (advance s dt).now ∧
      t.rf Reg.timeStatus 10 8 = if s.time.secLocked then 3 else if s.rb Reg.timeStatus 0 then 4 else 0) ∧
  (∀ (s : State) (dt : Nat), s.life.rails = true → s.time.secLocked = true →
    ∃ t, exec (.timeSourceLoss true dt) s = .next t ∧ t.time.secLocked = false ∧ t.now = (advance s dt).now ∧
      t.rf Reg.timeStatus 10 8 = if s.time.priLocked then 2 else if s.rb Reg.timeStatus 0 then 4 else 0) ∧
  (∀ (s : State) (dt w : Nat), s.life.rails = true → w < 50 * nsUnit → exec (.timeInEdge dt w) s = .next ((advance s dt).count Reg.timeInGlitchCnt)) ∧
  (∀ (s : State) (dt w l : Nat), s.life.rails = true → 50 * nsUnit ≤ w → s.time.inLocked = false → s.time.goodEdges = 2 → s.time.lastEdge = some l →
    (((advance s dt).up : Int) - l - secUnit).natAbs ≤ 10000 * nsUnit →
    ∃ t, exec (.timeInEdge dt w) s = .next t ∧ t.time.inLocked = true ∧ t.time.goodUp = (advance s dt).up ∧ t.time.lastEdge = some (advance s dt).up ∧ t.time.tod = none) ∧
  (∀ (s : State) (dt w : Nat), s.life.rails = true → 50 * nsUnit ≤ w → s.time.inLocked = false → s.time.goodEdges < 2 →
    ∃ t, exec (.timeInEdge dt w) s = .next t ∧ t.time.inLocked = false ∧ t.time.goodUp = (advance s dt).up ∧ t.time.lastEdge = some (advance s dt).up ∧ t.time.tod = none ∧
      t.now = (advance s dt).now) ∧
  (∀ (s : State) (dt w : Nat), s.life.rails = true → 50 * nsUnit ≤ w → s.time.inLocked = true → (edgePhase (advance s dt) (advance s dt).up).natAbs ≤ 1000 * nsUnit →
    ∃ t, exec (.timeInEdge dt w) s = .next t ∧ t.time.inLocked = true ∧ t.time.goodUp = (advance s dt).up ∧ t.time.lastEdge = some (advance s dt).up ∧ t.time.tod = none) ∧
  (∀ (s : State) (dt w : Nat), s.life.rails = true → 50 * nsUnit ≤ w → s.time.inLocked = true → s.time.offEdges = [] →
    1000 * nsUnit < (edgePhase (advance s dt) (advance s dt).up).natAbs → s.reg Reg.timeInOffCnt = 0 →
    ∃ t, exec (.timeInEdge dt w) s = .next t ∧ t.reg Reg.timeInOffCnt = 1 ∧ t.time.goodUp = s.time.goodUp ∧ t.now = (advance s dt).now) ∧
  (∀ (s : State) (dt l : Nat), s.life.rails = true → s.time.lastEdge = some l → l + secUnit + 10000 * nsUnit < (advance s dt).up →
    ∃ t, exec (.timeInLoss dt) s = .next t ∧ t.time.inLocked = false ∧ t.time.lastEdge = none ∧ t.now = (advance s dt).now ∧
      (srcOf s false = 1 → t.time.priLocked = false) ∧ (srcOf s true = 1 → t.time.secLocked = false)) ∧
  (∀ (s : State) (dt : Nat), s.life.rails = true → timeOutLevel (advance s dt) ≠ s.time.outHigh →
    ∃ t, exec (.timeOutEdge dt) s = .next t ∧ t.time.outHigh = !s.time.outHigh ∧ t.regs = s.regs) ∧
  (∀ (s : State) (dt : Nat), s.life.rails = true → s.time.wordAt + 1024 * nsUnit ≤ (advance s dt).up →
    ∃ t, exec (.timeCorrection dt) s = .next t ∧ t.time.wordAt = (advance s dt).up ∧
      (∀ i ∈ timedIslands, (t.hatch (hatchNo 0x15 i)).held = [] ∧
          (t.hatch (hatchNo 0x15 i)).gTransit.getLast? = some ⟨.time (advance s dt).now (islandStep (advance s dt) i) (cycleOf (advance s dt) i), 0, false⟩ ∨
        (t.hatch (hatchNo 0x15 i)).credits (hatchNo 0x15 i) = 0 ∧
          (t.hatch (hatchNo 0x15 i)).held = [⟨.time (advance s dt).now (islandStep (advance s dt) i) (cycleOf (advance s dt) i), 0, false⟩])) ∧
  (∀ (s : State) (m : Nat) (v lo : Word), s.life.rails = true → takes s m Reg.todHi v = true → s.held m Reg.todLo = some lo →
    ∃ t, exec (.timeTodArm m v) s = .next t ∧ t.time.tod = some (v.toNat % 4 * 2 ^ 32 + lo.toNat) ∧ t.now = s.now)

/-- R105: a write of TIME_STEP adds a signed number of ns to module time and touches no register but its own; while an epoch is PENDING or ARMED it is refused, TIME_STATUS.REJECT is set, and time does not step, so that no
step moves time across a scheduled epoch postmark. -/
def Obligations.TimeSteps : Prop :=
  (∀ (s : State) (m : Nat) (v : Word), s.life.rails = true → takes s m Reg.timeStepR v = true → s.rf Reg.epochStatus 18 16 ≠ 1 → s.rf Reg.epochStatus 18 16 ≠ 2 →
    ∃ t, exec (.timeStep m v) s = .next t ∧ t.now = ((s.now : Int) + v.toInt * nsUnit).toNat ∧ t.up = s.up ∧ t.time = s.time ∧ (∀ k, k ≠ Reg.timeStepR → t.reg k = s.reg k)) ∧
  (∀ (s : State) (m : Nat) (v : Word), s.life.rails = true → takes s m Reg.timeStepR v = true → s.rf Reg.epochStatus 18 16 = 1 ∨ s.rf Reg.epochStatus 18 16 = 2 →
    ∃ t, exec (.timeStep m v) s = .next t ∧ t = s.setRf Reg.timeStatus 30 30 1 ∧ t.rb Reg.timeStatus 30 = true ∧ t.now = s.now)

/-! ### Reception (chapters 2 and 3) -/

/-- R113, R46, R47, R52: the first flit of a frame decides its class and whether the store admits it; an envelope is formed when the head length is reached or the frame has ended;
and a formed envelope whose lookups are complete leaves the store for ENV_A with the next SEQ of its domain. -/
def Obligations.FrameBecomesEnvelope : Prop :=
  (∀ (s : State) (port dt cell cls pm : Nat) (first : List Byte), (advance s dt).dataPath = true → portReceives (advance s dt) port = true → groupTimed s port = true →
    s.clear (laneIn port) = true → (s.port port).rx = none → (s.port port).discarding = false → first.take 64 ≠ [] → cellFree s cell = true → rxSecured s port = false → beNat (slice (first.take 64) 12 2) ≠ 0x8808 →
    cls = frameClass (advance s dt) port (first.take 64) (decide ((first.take 64).length < 64)) →
    pm = (((advance s dt).now : Int) - byteTime s port (first.take 64).length + psUnits (s.rf (pReg Reg.portTsAdj port) 15 0)).toNat →
    portAdmits (advance s dt) port cls pm = true →
    (∃ t, exec (.frameStart port dt first cell 0) s = .next t ∧
      ((t.port port).rx.map fun r => (r.cell, r.cls, r.pm, r.bytes, r.admitted, r.formed)) = some (cell, cls, pm, first.take 64, true, false) ∧ (t.slice (port / 32)).store.length = (s.slice (port / 32)).store.length + 1 ∧ hasFrame t cell = true)) ∧
  (∀ (s : State) (port dt cell cls pm : Nat) (first : List Byte), (advance s dt).dataPath = true → portReceives (advance s dt) port = true → groupTimed s port = true →
    s.clear (laneIn port) = true → (s.port port).rx = none → (s.port port).discarding = false → first.take 64 ≠ [] → cellFree s cell = true → rxSecured s port = false → beNat (slice (first.take 64) 12 2) ≠ 0x8808 →
    cls = frameClass (advance s dt) port (first.take 64) (decide ((first.take 64).length < 64)) →
    pm = (((advance s dt).now : Int) - byteTime s port (first.take 64).length + psUnits (s.rf (pReg Reg.portTsAdj port) 15 0)).toNat →
    portAdmits (advance s dt) port cls pm = false →
    (∃ t, exec (.frameStart port dt first cell 0) s = .next t ∧ ((t.port port).rx.map fun r => (r.cls, r.admitted)) = some (cls, false) ∧
      (t.slice (port / 32)).store = (s.slice (port / 32)).store ∧ t.frames = s.frames)) ∧
  (∀ (s : State) (port dt : Nat) (r : RxFrame) (more : List Byte), (advance s dt).dataPath = true → s.clear (laneIn port) = true → (s.port port).rx = some r → r.admitted = true → r.ct = true →
    r.formed = false → headLength s port r.cls ≤ (r.bytes ++ more).length → (r.bytes ++ more).length ≤ maxLen s port →
    ∃ t, exec (.envelopeFormCt port dt more) s = .next t ∧ (t.frame r.cell).bytes = r.bytes ++ more ∧ (t.frame r.cell).refs = 1 ∧
      ((t.port port).rx.map fun q => (q.formed, q.bytes)) = some (true, r.bytes ++ more)) ∧
  (∀ (s : State) (sl i : Nat) (it : StoreItem) (e : Env) (xp : Bool), s.dataPath = true → sl < 16 → (s.slice sl).store[i]? = some it → it.env = some e →
    it.waiting = [] → ((s.slice sl).store.take i).any (fun o => o.port == it.port && o.cls == it.cls) = false → (s.hatch (hatchNo 2 sl)).held = [] →
    (s.hatch (hatchNo 2 sl)).channel (hatchNo 2 sl)
      ⟨.env (setEf e 2 31 16 (mapGet 0 (s.slice sl).nextSeq (eDomain e))) it.head, eDomain e, it.cls == 7⟩ = some xp →
    ∃ t, exec (.envelopeEnterEnvA sl i) s = .next t ∧ (t.slice sl).store = dropAt (s.slice sl).store i ∧
      mapGet 0 (t.slice sl).nextSeq (eDomain e) = (mapGet 0 (s.slice sl).nextSeq (eDomain e) + 1) % 65536 ∧
      (if xp then (t.hatch (hatchNo 2 sl)).xTransit.length = (s.hatch (hatchNo 2 sl)).xTransit.length + 1
       else (t.hatch (hatchNo 2 sl)).gTransit.length = (s.hatch (hatchNo 2 sl)).gTransit.length + 1))

/-- R46, R49, R81, R83: a frame's end, however it ends, frees its port; a good frame's end completes it, and forms the envelope of a store-and-forward one; a runt or an error character
ends it errored and discards it where its envelope is not formed; and a stall that reaches its limit ends every frame in progress so and discards what follows. What one command brings of a frame rests on log entry 27. -/
def Obligations.FrameReceptionEnds : Prop :=
  (∀ (s : State) (port dt frags : Nat) (r : RxFrame) (rest : List Byte) (how : RxEnd), (advance s dt).dataPath = true → s.clear (laneIn port) = true → (s.port port).rx = some r →
    (s.port port).rxPre = none → (frags < 2 ∧ how ≠ .badFragments) ∨ preemptEn s port = true →
    ∃ t, exec (.frameRxEnd port dt rest how frags) s = .next t ∧ (t.port port).rx = none ∧ t.now = (advance s dt).now) ∧
  (∀ (s : State) (port dt : Nat) (r : RxFrame) (rest : List Byte), (advance s dt).dataPath = true → s.clear (laneIn port) = true → (s.port port).rx = some r → (s.port port).rxPre = none →
    r.admitted = true → r.formed = false → r.ct = false ∨ (r.bytes ++ rest).length ≤ headLength s port r.cls →
    64 ≤ (r.bytes ++ rest).length → (r.bytes ++ rest).length ≤ maxLen s port → beNat (slice (r.bytes ++ rest) 12 2) ≠ 0x8808 →
    (r.bytes ++ rest).drop ((r.bytes ++ rest).length - 4) = fcsOf ((r.bytes ++ rest).take ((r.bytes ++ rest).length - 4)) →
    ∃ t, exec (.frameRxEnd port dt rest .last 0) s = .next t ∧ (t.port port).rx = none ∧ (t.frame r.cell).bytes = r.bytes ++ rest ∧ (t.frame r.cell).ended = 1 ∧
      (t.frame r.cell).refs = 1) ∧
  (∀ (s : State) (port dt : Nat) (r : RxFrame) (rest : List Byte), (advance s dt).dataPath = true → s.clear (laneIn port) = true → (s.port port).rx = some r → (s.port port).rxPre = none →
    r.admitted = false → (r.bytes ++ rest).length < 64 → 64 ≤ maxLen s port → (s.reg (pReg Reg.portRuntCnt port)).toNat < 0xFFFFFFFE →
    ∃ t, exec (.frameRxEnd port dt rest .last 0) s = .next t ∧ (t.port port).rx = none ∧
      (t.reg (pReg Reg.portRuntCnt port)).toNat = (s.reg (pReg Reg.portRuntCnt port)).toNat + 1 ∧ t.frames = s.frames) ∧
  (∀ (s : State) (port dt : Nat) (r : RxFrame) (rest : List Byte), (advance s dt).dataPath = true → s.clear (laneIn port) = true → (s.port port).rx = some r → (s.port port).rxPre = none →
    r.admitted = true → r.formed = false → r.ct = false →
    ∃ t, exec (.frameRxEnd port dt rest .errorChar 0) s = .next t ∧ (t.port port).rx = none ∧ hasFrame t r.cell = false) ∧
  (∀ (s : State) (port dt n : Nat), (advance s dt).dataPath = true → (s.port port).rx ≠ none → stallLimit s port ≤ n →
    ∃ t, exec (.stallLimit port dt n) s = .next t ∧ (t.port port).rx = none ∧ (t.port port).rxPre = none ∧ (t.port port).discarding = true ∧ t.now = (advance s dt).now) ∧
  (∀ (s : State) (port dt n : Nat) (r : RxFrame), (advance s dt).dataPath = true → (s.port port).rx = some r → (s.port port).rxPre = none → r.admitted = false → stallLimit s port ≤ n →
    ∃ t, exec (.stallLimit port dt n) s = .next t ∧ (t.port port).rx = none ∧ (t.port port).discarding = true ∧ t.frames = s.frames)

/-- R72, R73, R74, R77, R88, R363, R610: links come up and go down, preemption is verified, REFCLK is lost and returns, and the lane and meter configurations take their values. -/
def Obligations.PortLinksAndLanes : Prop :=
  (∀ (s : State) (port dt c : Nat), s.life.rails = true → (s.port port).linkUp = true →
    ∃ t, exec (.linkDown port dt c) s = .next t ∧ (t.port port).linkUp = false ∧ t.up = s.up + dt) ∧
  (∀ (s : State) (port dt : Nat), (advance s dt).dataPath = true → portExists s port = true → s.rb (Reg.laneCfg (port / 4)) 16 = true →
    s.rb (Reg.laneStat (port / 4)) 7 = true → (s.port port).linkUp = false →
    ∃ t, exec (.linkUp port dt) s = .next t ∧ (t.port port).linkUp = true ∧ t.rf (Reg.laneStat (port / 4)) 6 4 = 7) ∧
  (∀ (s : State) (port dt : Nat), (advance s dt).dataPath = true → port < 512 → preemptEn s port = true →
    s.rb (pReg Reg.portPreemptCfg port) 1 = false → (s.port port).linkUp = true →
    s.rf (pReg Reg.portPreemptStat port) 2 0 = 1 ∨ (s.rf (pReg Reg.portPreemptStat port) 2 0 = 2 ∧ (s.port port).verifyAt ≤ (advance s dt).up) →
    ∃ t, exec (.preemptVerify port dt) s = .next t ∧ t.rf (pReg Reg.portPreemptStat port) 2 0 = if (s.port port).attempts < 3 then 2 else 4) ∧
  (∀ (s : State) (port : Nat), s.dataPath = true → port < 512 → s.rf (pReg Reg.portPreemptStat port) 2 0 = 2 → (s.port port).linkUp = true →
    ∃ t, exec (.verifyResponse port) s = .next t ∧ t.rf (pReg Reg.portPreemptStat port) 2 0 = 3 ∧ t.rb (pReg Reg.portPreemptStat port) 4 = true ∧ t.ports = s.ports) ∧
  (∀ (s : State) (g : Nat), s.life.rails = true → g < 8 → s.rb (Reg.laneStat (g * 16)) 7 = true →
    ∃ t, exec (.refclkLoss g) s = .next t ∧ (∀ i < 16, t.rb (Reg.laneStat (g * 16 + i)) 7 = false ∧ t.rb (Reg.laneStat (g * 16 + i)) 5 = false) ∧
      (∀ i < 64, (t.port (g * 64 + i)).linkUp = false)) ∧
  (∀ (s : State) (g : Nat), s.life.rails = true → g < 8 → s.rb (Reg.laneStat (g * 16)) 7 = false →
    ∃ t, exec (.refclkReturn g) s = .next t ∧ (∀ i < 16, t.rb (Reg.laneStat (g * 16 + i)) 7 = true) ∧ t.ports = s.ports) ∧
  (∀ (s : State) (m lane : Nat) (v : Word), s.life.rails = true → lane < 128 → takes s m (Reg.laneCfg lane) v = true → laneRefused lane v s = false →
    ∃ t, exec (.laneCfgWrite m lane v) s = .next t ∧ t.reg (Reg.laneCfg lane) = (s.takeFields (Reg.laneCfg lane) v).reg (Reg.laneCfg lane) ∧
      (s.rb (Reg.laneCfg lane) 16 = true → bitOf v 16 = false → (∀ i < 4, (t.port (lane * 4 + i)).linkUp = false ∧ (t.port (lane * 4 + i)).rx = none))) ∧
  (∀ (s : State) (m lane : Nat) (v : Word), s.life.rails = true → lane < 128 → takes s m (Reg.laneCfg lane) v = true → laneRefused lane v s = true →
    exec (.laneCfgWrite m lane v) s = .next (s.reject (Reg.laneCfg lane))) ∧
  (∀ (s : State) (m port : Nat) (v : Word), s.life.rails = true → port < 512 → takes s m (pReg Reg.portXpolCfg port) v = true → 1 ≤ fld v 6 0 → fld v 6 0 ≤ 100 →
    1 ≤ fld v 11 8 → fld v 11 8 ≤ 8 → bitOf v 31 = false ∨ 1 ≤ fld v 27 12 →
    ∃ t, exec (.xpolCfgWrite m port v) s = .next t ∧ (bitOf v 31 = true → (t.port port).byteMissing = 0 ∧ (t.port port).frameMissing = 0 ∧ (t.port port).breach = false) ∧
      t.regs = (s.takeFields (pReg Reg.portXpolCfg port) v).regs)

/-- R98: a read of PORT_TSQ_W0 takes the oldest egress postmark into W0 to W3, answers its low word and clears W0; with none waiting VALID reads 0. -/
def Obligations.TsqPopTakesTheOldest : Prop :=
  (∀ (s : State) (m port : Nat) (q : Tsq) (r : List Tsq), s.life.rails = true → port < 512 → reaches s m (pReg Reg.tsqW0 port) = true → (s.port port).tsq = q :: r →
    ∃ t, exec (.tsqPop m port) s = .next t ∧ (t.port port).tsq = r ∧ t.reg (pReg Reg.tsqW0 port) = 0 ∧ mapGet 0 t.resp m = BitVec.ofNat 32 (q.pm % 2 ^ 32) ∧
      t.reg (pReg Reg.tsqW1 port) = BitVec.ofNat 32 (q.pm / 2 ^ 32) ∧ t.reg (pReg Reg.tsqW2 port) = BitVec.ofNat 32 (q.frac * 65536 + q.seqId) ∧
      t.rb (pReg Reg.tsqW3 port) 31 = true) ∧
  (∀ (s : State) (m port : Nat), s.life.rails = true → port < 512 → reaches s m (pReg Reg.tsqW0 port) = true → (s.port port).tsq = [] →
    ∃ t, exec (.tsqPop m port) s = .next t ∧ t.reg (pReg Reg.tsqW0 port) = 0 ∧ mapGet 0 t.resp m = 0 ∧ t.rb (pReg Reg.tsqW3 port) 31 = false ∧ t.ports = s.ports)

/-! ### Stations and the Depot (chapters 2 and 9) -/

/-- R53, R54, R55, R57, R58, R63: the distributor hands the express head, or with none the general head, to a free thread and rings its doorbell 0, and passes a void to the
gate released; with no free thread it waits. The gate sends an envelope on only when it is released and none of its flow stands before it, and voids one held too long. -/
def Obligations.StationsHandOutAndGatesKeepOrder : Prop :=
  (∀ (s : State) (stn dt f m : Nat) (e : Env) (head : List Byte) (p : Bool) (r : List HEntry), (advance s dt).dataPath = true → stn < 48 → gateInflight s stn < 64 →
    (s.hatch (inHatch stn)).xFifo = [] → (s.hatch (inHatch stn)).gFifo = ⟨.env e head, f, p⟩ :: r → eVoid e = false → stationThread (advance s dt) stn e = some m →
    ∃ t, exec (.distribute stn dt) s = .next t ∧ (t.hatch (inHatch stn)).gFifo = r ∧ (t.hatch (inHatch stn)).gRemoved = (s.hatch (inHatch stn)).gRemoved + 1 ∧
      (t.station stn).gate = (s.station stn).gate ++ [⟨e, head, f, p, some m, false, false, s.up + dt, gateLimit s stn, []⟩] ∧ thrState t m = 1) ∧
  (∀ (s : State) (stn dt f m : Nat) (e : Env) (head : List Byte) (p : Bool) (r : List HEntry), (advance s dt).dataPath = true → stn < 48 → gateInflight s stn < 64 →
    (s.hatch (inHatch stn)).xFifo = ⟨.env e head, f, p⟩ :: r → eVoid e = false → stationThread (advance s dt) stn e = some m →
    ∃ t, exec (.distribute stn dt) s = .next t ∧ (t.hatch (inHatch stn)).xFifo = r ∧ (t.hatch (inHatch stn)).gFifo = (s.hatch (inHatch stn)).gFifo ∧
      (t.station stn).gate = (s.station stn).gate ++ [⟨e, head, f, p, some m, false, false, s.up + dt, gateLimit s stn, []⟩] ∧ thrState t m = 1) ∧
  (∀ (s : State) (stn dt f : Nat) (e : Env) (head : List Byte) (p : Bool) (r : List HEntry), (advance s dt).dataPath = true → stn < 48 → gateInflight s stn < 64 →
    (s.hatch (inHatch stn)).xFifo = ⟨.env e head, f, p⟩ :: r → eVoid e = true →
    ∃ t, exec (.distribute stn dt) s = .next t ∧ (t.hatch (inHatch stn)).xFifo = r ∧ t.engines = s.engines ∧ t.regs = s.regs ∧
      (t.station stn).gate = (s.station stn).gate ++ [⟨e, head, f, p, none, true, true, s.up + dt, 0, []⟩]) ∧
  (∀ (s : State) (stn dt f : Nat) (e : Env) (head : List Byte) (p : Bool) (r : List HEntry),
    (s.hatch (inHatch stn)).xFifo = [] → (s.hatch (inHatch stn)).gFifo = ⟨.env e head, f, p⟩ :: r → eVoid e = false → stationThread (advance s dt) stn e = none →
    exec (.distribute stn dt) s = .next (advance s dt)) ∧
  (∀ (s : State) (stn ix dt : Nat) (x : GateItem), (advance s dt).dataPath = true → stn < 48 → (s.station stn).gate[ix]? = some x → gateMay (s.station stn).gate ix = true →
    ∃ t, exec (.gateSend stn ix dt) s = .next t ∧ (t.station stn).gate = dropAt (s.station stn).gate ix ∧
      t.hatch (outHatch stn) = (s.hatch (outHatch stn)).offer (outHatch stn) ⟨.env (envClean x.env) (if stn % 3 = 1 then [] else x.head), x.flow, x.xpr⟩) ∧
  (∀ (s : State) (stn ix dt : Nat) (x : GateItem), (s.station stn).gate[ix]? = some x → gateMay (s.station stn).gate ix = false →
    exec (.gateSend stn ix dt) s = .next (advance s dt)) ∧
  (∀ (s : State) (stn ix dt m : Nat) (x : GateItem), (advance s dt).dataPath = true → stn < 48 → (s.station stn).gate[ix]? = some x → x.released = false →
    envOk x.env = true → x.thread = some m → x.since + x.limit < s.up + dt →
    ∃ t, exec (.gateTimeout stn ix dt) s = .next t ∧ ((t.station stn).gate[ix]?.map fun y => (y.released, y.thread.isNone, eVoid y.env, y.flow)) = some (true, true, true, x.flow) ∧
      (t.thr m).late = true ∧ (t.station stn).gate.length = (s.station stn).gate.length)

/-- R326: the head of an internal pigeonhole whose frame has ended goes into the next slot of its ring, word 0 with FULL written last, unless that slot is still FULL; an errored
cut-through frame is voided and freed instead. -/
def Obligations.InternalPigeonholeDelivers : Prop :=
  (∀ (s : State) (ix dt pos : Nat) (e : Env) (rest : List Env), (advance s dt).dataPath = true → ix < 64 → s.rb (Reg.intCfg0 ix) 31 = true → mapGet [] s.depot.ph (4352 + ix) = e :: rest →
    eCut e = false ∨ (s.frame (eCell e)).ended ≠ 2 → (s.frame (eCell e)).ended ≠ 0 → pos = mapGet 0 s.depot.ringPos ix % 2 ^ s.rf (Reg.intCfg0 ix) 30 27 →
    bitOf (shmWord s (intIsland ix) ((s.reg (Reg.intCfg1 ix)).toNat + pos * 256)).data 31 = false → intIsland ix = 81 ∨ dispatchRoom s (intIsland ix - 73) = true →
    ∃ t, exec (.intPhDeliver ix dt) s = .next t ∧ mapGet [] t.depot.ph (4352 + ix) = rest ∧ mapGet 0 t.depot.ringPos ix = (pos + 1) % 2 ^ s.rf (Reg.intCfg0 ix) 30 27 ∧
      (shmWord t (intIsland ix) ((s.reg (Reg.intCfg1 ix)).toNat + pos * 256)).data = ew e 0 ||| 0x80000000) ∧
  (∀ (s : State) (ix dt : Nat) (e : Env) (rest : List Env), (advance s dt).dataPath = true → ix < 64 → mapGet [] s.depot.ph (4352 + ix) = e :: rest →
    eCut e = true → (s.frame (eCell e)).ended = 2 →
    ∃ t, exec (.intPhDeliver ix dt) s = .next t ∧ mapGet [] t.depot.ph (4352 + ix) = rest ∧ t.depot.ringPos = s.depot.ringPos ∧ t.shared = s.shared)

/-- R45, R60, R61, R322, R323, R347: the Depot takes the next envelope of ENV_D. A void's hold on its frame goes; one that names no pigeonhole is voided; a class 7 unicast envelope
for a port outside redundancy is charged and joins the queue of its position, egress slice and class; each moves the expected SEQ of its domain on, and one that passes the checks is admitted in the order of R347. The shared pool's formula is log entry 11. -/
def Obligations.DepotAdmitsAndVoids : Prop :=
  (∀ (s : State) (sl f : Nat) (e : Env) (hd : List Byte) (xp : Bool), s.dataPath = true → sl < 16 → (s.hatch (hatchNo 4 sl)).front = some ⟨.env e hd, f, xp⟩ →
    ∃ t, exec (.depotEnvArrive sl) s = .next t ∧ mapGet 0 t.depot.expSeq (eDomain e) = (eSeq e + 1) % 65536 ∧ t.now = s.now) ∧
  (∀ (s : State) (sl f : Nat) (e : Env) (hd : List Byte) (xp : Bool), s.dataPath = true → sl < 16 → (s.hatch (hatchNo 4 sl)).front = some ⟨.env e hd, f, xp⟩ → eVoid e = false →
    eColour e ≠ 3 → eMc e = true ∨ entryCheck e = none → eCut e = false ∨ (s.frame (eCell e)).ended ≠ 2 →
    (∃ u : State, exec (.depotEnvArrive sl) s = .next (admission u e) ∧ u.hatch (hatchNo 4 sl) = (s.hatch (hatchNo 4 sl)).consume ∧ (u.frame (eCell e)).bytes = (s.frame (eCell e)).bytes ∧
      (hasFrame s (eCell e) = true → (u.frame (eCell e)).landing = none) ∧ u.depot.voq = s.depot.voq ∧ u.depot.ph = s.depot.ph ∧ u.depot.mc = s.depot.mc)) ∧
  (∀ (s : State) (sl f : Nat) (e : Env) (hd : List Byte) (xp : Bool), s.dataPath = true → sl < 16 → (s.hatch (hatchNo 4 sl)).front = some ⟨.env e hd, f, xp⟩ → envOk e = true →
    eVoid e = true → 2 ≤ (s.frame (eCell e)).refs → hasFrame s (eCell e) = true →
    ∃ t, exec (.depotEnvArrive sl) s = .next t ∧ (t.frame (eCell e)).refs + 1 = (s.frame (eCell e)).refs ∧ (t.frame (eCell e)).landing = none ∧
      mapGet 0 t.depot.expSeq (eDomain e) = (eSeq e + 1) % 65536 ∧ t.depot.voq = s.depot.voq ∧ t.depot.ph = s.depot.ph) ∧
  (∀ (s : State) (sl f : Nat) (e : Env) (hd : List Byte) (xp : Bool), s.dataPath = true → sl < 16 → (s.hatch (hatchNo 4 sl)).front = some ⟨.env e hd, f, xp⟩ → envOk e = true →
    eVoid e = false → eMc e = false → 4416 ≤ ePh e → mapGet 0 s.depot.expSeq (eDomain e) = eSeq e → (s.reg (Reg.depotVoidCnt 4)).toNat < 0xFFFFFFFE →
    ∃ t, exec (.depotEnvArrive sl) s = .next t ∧ (t.reg (Reg.depotVoidCnt 4)).toNat = (s.reg (Reg.depotVoidCnt 4)).toNat + 1 ∧
      mapGet 0 t.depot.expSeq (eDomain e) = (eSeq e + 1) % 65536 ∧ t.depot.voq = s.depot.voq ∧ t.depot.ph = s.depot.ph) ∧
  (∀ (s : State) (sl f p : Nat) (e : Env) (hd : List Byte) (xp : Bool), s.dataPath = true → sl < 16 → (s.hatch (hatchNo 4 sl)).front = some ⟨.env e hd, f, xp⟩ → envOk e = true →
    eVoid e = false → eMc e = false → eClass e = 7 → p < 512 → ePh e = p * 8 + 7 → eEgrPort e = p → mapGet 0 s.depot.expSeq (eDomain e) = eSeq e → eCut e = false →
    tenResetting s (eTenancy e) = false → (∀ r < 16, s.rb (Reg.redCfg0 r) 31 = false) → hasFrame s (eCell e) = true → (s.frame (eCell e)).refs = 1 →
    phAccepts s (ePh e) (eTenancy e) = true → phUse s (ePh e) + (s.frame (eCell e)).cells.length ≤ phMin s (ePh e) →
    ∃ t, exec (.depotEnvArrive sl) s = .next t ∧ (t.frame (eCell e)).charges = (s.frame (eCell e)).charges ++ [ePh e] ∧ (t.frame (eCell e)).landing = none ∧
      ((mapGet [] t.depot.voq (voqNo (voqPos e) (p / 32) 7)).getLast?.map fun v => (eCell v.env, ePh v.env, v.arr)) = some (eCell e, ePh e, s.depot.arrivals) ∧
      (mapGet [] t.depot.voq (voqNo (voqPos e) (p / 32) 7)).length = (mapGet [] s.depot.voq (voqNo (voqPos e) (p / 32) 7)).length + 1 ∧
      (∀ q, q ≠ voqNo (voqPos e) (p / 32) 7 → mapGet [] t.depot.voq q = mapGet [] s.depot.voq q))

/-- R316, R321, R327: the next cell of a landing frame joins its chain where its pools have one, and is refused, the frame ending errored, where they have none; DEPOT_MC_SEL
writes a whole group entry with WR and loads the data registers with RD. -/
def Obligations.CellsAndMulticastGroups : Prop :=
  (∀ (s : State) (c cell : Nat) (more b : List Byte), s.dataPath = true → s.clear (hatchNo 1 ((s.frame c).inPort / 32)) = true → hasFrame s c = true →
    ((s.frame c).cells = [] ∧ cell = c) ∨ ((s.frame c).cells ≠ [] ∧ cellFree s cell = true) → cell < cellCount → (s.frame c).ended ≠ 2 →
    b = (if (s.ports.any fun p => p.2.rxAll.any fun r => r.cell == c && r.admitted) = true then (s.frame c).bytes ++ more else (s.frame c).bytes) →
    (s.frame c).cells.length * 256 < b.length → landRoom s (s.frame c) = true →
    ∃ t, exec (.cellWrite c cell more) s = .next t ∧ (t.frame c).cells = (s.frame c).cells ++ [cell] ∧ (t.frame c).bytes = b ∧ t.depot = s.depot ∧
      t.regs = s.regs ∧ (∀ k, k ≠ c → t.frame k = s.frame k)) ∧
  (∀ (s : State) (c cell : Nat) (more : List Byte), s.dataPath = true → s.clear (hatchNo 1 ((s.frame c).inPort / 32)) = true → hasFrame s c = true → (s.frame c).cells ≠ [] →
    cellFree s cell = true → (s.frame c).ended ≠ 2 → (s.ports.any fun p => p.2.rxAll.any fun r => r.cell == c && r.admitted) = false → portsWith s c = [] →
    (s.frame c).cells.length * 256 < (s.frame c).bytes.length → landRoom s (s.frame c) = false → isFormed s c = true → (s.reg Reg.depotLandFullCnt).toNat < 0xFFFFFFFE →
    ∃ t, exec (.cellWrite c cell more) s = .next t ∧ (t.frame c).ended = 2 ∧ (t.frame c).cells = (s.frame c).cells ∧
      (t.reg Reg.depotLandFullCnt).toNat = (s.reg Reg.depotLandFullCnt).toNat + 1) ∧
  (∀ (s : State) (m : Nat) (v : Word), s.life.rails = true → takes s m Reg.mcSel v = true → bitOf v 31 = true →
    ∃ t, exec (.mcWrite m v) s = .next t ∧ (mcEntry t (fld v 13 0)).getD 0 0 = s.reg (Reg.mcData 0) &&& 0xFC000000 ∧
      (∀ i < 18, i ≠ 0 → (mcEntry t (fld v 13 0)).getD i 0 = s.reg (Reg.mcData i)) ∧ (∀ g, g ≠ fld v 13 0 → mcEntry t g = mcEntry s g)) ∧
  (∀ (s : State) (m : Nat) (v : Word), s.life.rails = true → takes s m Reg.mcSel v = true → bitOf v 30 = true → bitOf v 31 = false →
    ∃ t, exec (.mcRead m v) s = .next t ∧ t.depot = s.depot ∧ (∀ i < 18, t.reg (Reg.mcData i) = (mcEntry s (fld v 13 0)).getD i 0))

/-- R48, R329, R330, R332, R334: every cell time computes a matching of the pairs that request, each slice in at most one pair each way; with one pair requesting and nothing matched before, the matching of a cell time is that pair, and the next cell time moves its class 7 envelopes, at
most three, into their pigeonholes; a port's scheduler releases the head of the pigeonhole it chooses into ENV_C with its bytes in flight, then makes the copies of R345, and
class 7 goes first; an errored cut-through frame is not released. The pointers of the matching rest on log entries 7 and 28. -/
def Obligations.MatchingMovesAndRelease : Prop :=
  (∀ (s : State) (dt : Nat), (advance s dt).dataPath = true →
    ∃ t, exec (.matching dt) s = .next t ∧ (t.depot.matched.map (·.1)).Nodup ∧ (t.depot.matched.map (·.2)).Nodup ∧ (∀ p ∈ t.depot.matched, p ∈ requests t)) ∧
  (∀ (s : State) (dt i e c : Nat) (v : VoqEntry) (r : List VoqEntry), (advance s dt).dataPath = true → s.depot.matched = [] → i < 16 → e < 16 → c < 8 →
    s.depot.voq = [(voqNo i e c, v :: r)] →
    ∃ t, exec (.matching dt) s = .next t ∧ t.depot.matched = [(i, e)] ∧ t.depot.voq = s.depot.voq ∧ t.depot.ph = s.depot.ph ∧
      (c ≠ 7 → mapGet 0 t.depot.grantPtr e = (i + 1) % 16 ∧ mapGet 0 t.depot.acceptPtr i = (e + 1) % 16) ∧
      (c = 7 → t.depot.grantPtr = s.depot.grantPtr ∧ t.depot.acceptPtr = s.depot.acceptPtr)) ∧
  (∀ (s : State) (dt i e : Nat) (v : VoqEntry), (advance s dt).dataPath = true → s.depot.matched = [(i, e)] → i < 16 → e < 16 → s.depot.voq = [(voqNo i e 7, [v])] →
    eMc v.env = false → v.lead = false →
    ∃ t, exec (.matching dt) s = .next t ∧ t.depot.voq = [] ∧ t.depot.matched = [] ∧ mapGet [] t.depot.ph (ePh v.env) = mapGet [] s.depot.ph (ePh v.env) ++ [v.env] ∧
      (∀ h, h ≠ ePh v.env → mapGet [] t.depot.ph h = mapGet [] s.depot.ph h)) ∧
  (∀ (s : State) (port dt c : Nat) (x : PortSt) (e : Env) (rest : List Env), (advance s dt).dataPath = true → port < 512 → schedPick (advance s dt) port = some (c, x) →
    c = 7 ∨ expressFirst (advance s dt) port = false → mapGet [] s.depot.ph (port * 8 + c) = e :: rest → eCut e = false ∨ (s.frame (eCell e)).ended ≠ 2 →
    ((s.hatch (hatchNo 5 (port / 32))).channel (hatchNo 5 (port / 32)) (envCEntry s (port * 8 + c) (withLength s e))).isSome = true → (s.hatch (hatchNo 5 (port / 32))).held = [] →
    (∃ u : State, exec (.phRelease port dt) s = .next (mirrorCopies u (withLength s e) true port) ∧ mapGet [] u.depot.ph (port * 8 + c) = rest ∧
      u.hatch (hatchNo 5 (port / 32)) = (s.hatch (hatchNo 5 (port / 32))).offer (hatchNo 5 (port / 32)) (envCEntry s (port * 8 + c) (withLength s e)) ∧
      (u.port port).inflight = x.inflight ++ [(eCell e, countedLen s (withLength s e))] ∧ u.frames = s.frames)) ∧
  (∀ (s : State) (port dt c : Nat) (x : PortSt) (e : Env) (rest : List Env), (advance s dt).dataPath = true → port < 512 → schedPick (advance s dt) port = some (c, x) →
    c = 7 ∨ expressFirst (advance s dt) port = false → mapGet [] s.depot.ph (port * 8 + c) = e :: rest → eCut e = true → (s.frame (eCell e)).ended = 2 →
    ∃ t, exec (.phRelease port dt) s = .next t ∧ mapGet [] t.depot.ph (port * 8 + c) = rest ∧ (t.port port).inflight = (s.port port).inflight) ∧
  (∀ (s : State) (port dt : Nat) (e : Env) (rest : List Env), (advance s dt).dataPath = true → port < 512 → eligible (advance s dt) port 7 = true →
    mapGet [] s.depot.ph (port * 8 + 7) = e :: rest → eCut e = false → (∀ i < 8, s.rb (Reg.mirCfg i) 31 = false) →
    ((s.hatch (hatchNo 5 (port / 32))).channel (hatchNo 5 (port / 32)) (envCEntry s (port * 8 + 7) e)).isSome = true → (s.hatch (hatchNo 5 (port / 32))).held = [] →
    ∃ t, exec (.phRelease port dt) s = .next t ∧ mapGet [] t.depot.ph (port * 8 + 7) = rest ∧
      t.hatch (hatchNo 5 (port / 32)) = (s.hatch (hatchNo 5 (port / 32))).offer (hatchNo 5 (port / 32)) (envCEntry s (port * 8 + 7) e) ∧
      (t.port port).inflight = (s.port port).inflight ++ [(eCell e, countedLen s e)] ∧ t.frames = s.frames) ∧
  (∀ (s : State) (port dt : Nat) (e : Env) (rest : List Env), (advance s dt).dataPath = true → port < 512 → eligible (advance s dt) port 7 = true →
    mapGet [] s.depot.ph (port * 8 + 7) = e :: rest → eCut e = true → (s.frame (eCell e)).ended = 2 → eVoid e = false → envOk e = true →
    (s.reg (Reg.depotVoidCnt 7)).toNat < 0xFFFFFFFE →
    ∃ t, exec (.phRelease port dt) s = .next t ∧ mapGet [] t.depot.ph (port * 8 + 7) = rest ∧
      (t.reg (Reg.depotVoidCnt 7)).toNat = (s.reg (Reg.depotVoidCnt 7)).toNat + 1 ∧ (t.hatch (hatchNo 5 (port / 32))) = s.hatch (hatchNo 5 (port / 32)))

/-- R341, R342: SWAP schedules the staging list at its first cycle start at least 100 µs after the write, and is refused while one is pending, for an LEN of 0 or above 32 and for
an interval of 0; when the time comes the list is active and PENDING clears; and at the end of an interval the entry in force is the one the time falls into. -/
def Obligations.GateListsSwapAndRun : Prop :=
  (∀ (s : State) (m p : Nat) (v : Word), s.life.rails = true → p = s.rf Reg.depotPortSel 8 0 → takes s m (Reg.portGateCtl p) v = true → bitOf v 30 = true →
    s.rb (Reg.portGateCtl p) 29 = false → 1 ≤ fld v 5 0 → fld v 5 0 ≤ 32 → (gclStaged s p (fld v 5 0)).any (fun w => gclInterval w == 0) = false →
    ∃ t, exec (.gclSwap m v) s = .next t ∧ t.rb (Reg.portGateCtl p) 29 = true ∧ (t.port p).gclNext = gclStaged s p (fld v 5 0) ∧
      (t.port p).gclActive = (s.port p).gclActive ∧ s.now + 100000 * nsUnit ≤ (t.port p).gclSwapAt) ∧
  (∀ (s : State) (m p : Nat) (v : Word), s.life.rails = true → p = s.rf Reg.depotPortSel 8 0 → takes s m (Reg.portGateCtl p) v = true → bitOf v 30 = true →
    (s.rb (Reg.portGateCtl p) 29 = true ∨ fld v 5 0 = 0 ∨ 32 < fld v 5 0 ∨ (gclStaged s p (fld v 5 0)).any (fun w => gclInterval w == 0) = true) →
    exec (.gclSwap m v) s = .next (s.reject (Reg.portGateCtl p))) ∧
  (∀ (s : State) (port dt : Nat), (advance s dt).life.rails = true → port < 512 → s.rb (Reg.portGateCtl port) 29 = true → (s.port port).gclSwapAt ≤ (advance s dt).now →
    ∃ t, exec (.gclSwapApply port dt) s = .next t ∧ t.rb (Reg.portGateCtl port) 29 = false ∧ (t.port port).gclActive = (s.port port).gclNext ∧ (t.port port).gclNext = [] ∧
      (t.port port).gclBase = (s.port port).gclNextBase) ∧
  (∀ (s : State) (port dt : Nat), (advance s dt).life.rails = true → port < 512 → (s.port port).gclActive ≠ [] → (s.port port).gateEnd ≤ (advance s dt).now →
    gclCycle (s.port port).gclActive ≠ 0 → (s.port port).gclActive.length ≤ 32 →
    ∃ t, exec (.gateIntervalEnd port dt) s = .next t ∧ (advance s dt).now < (t.port port).gateEnd ∧ (t.port port).gclActive = (s.port port).gclActive ∧
      t.rf (Reg.portGateCtl port) 13 8 = (gclLocate (s.port port).gclActive 0 ((((advance s dt).now : Int) - (s.port port).gclBase) % gclCycle (s.port port).gclActive).toNat).1)

/-- R60, R82, R84, R319, R348, R349: the Editor returns a void's cells and does not send an errored frame; a whole frame on a port with no edits goes to the output buffer with its
FCS renewed, and one still arriving goes there unfinished; a double-bit error in a cell ends the copy after the cells before, with an inverted FCS, and one in a link word withholds the rest of the chain. The order of edits where the manual is silent is log entry 29. -/
def Obligations.EditorTakesEnvelopes : Prop :=
  (∀ (s : State) (sl ecc pos ph : Nat) (e : Env) (hd : List Byte) (xp : Bool), s.dataPath = true → sl < 16 → (s.hatch (hatchNo 6 sl)).front = some ⟨.env e hd, ph, xp⟩ →
    eVoid e = true → (s.frame (eCell e)).refs ≤ 1 →
    ∃ t, exec (.editorSend sl ecc pos) s = .next t ∧ hasFrame t (eCell e) = false ∧ t.hatch (hatchNo 6 sl) = (s.hatch (hatchNo 6 sl)).consume ∧
      (∀ p, (t.port p).outBuf = (s.port p).outBuf)) ∧
  (∀ (s : State) (sl ecc pos ph : Nat) (e : Env) (hd : List Byte) (xp : Bool), s.dataPath = true → sl < 16 → (s.hatch (hatchNo 6 sl)).front = some ⟨.env e hd, ph, xp⟩ →
    eVoid e = false → (s.frame (eCell e)).ended = 2 → (s.reg (pReg Reg.portEgrAbortCnt (ph / 8))).toNat < 0xFFFFFFFE →
    ∃ t, exec (.editorSend sl ecc pos) s = .next t ∧ (t.reg (pReg Reg.portEgrAbortCnt (ph / 8))).toNat = (s.reg (pReg Reg.portEgrAbortCnt (ph / 8))).toNat + 1 ∧
      t.hatch (hatchNo 6 sl) = (s.hatch (hatchNo 6 sl)).consume ∧ (∀ p, (t.port p).outBuf = (s.port p).outBuf)) ∧
  (∀ (s : State) (sl pos ph : Nat) (e : Env) (hd : List Byte) (xp : Bool), s.dataPath = true → sl < 16 → (s.hatch (hatchNo 6 sl)).front = some ⟨.env e hd, ph, xp⟩ →
    eVoid e = false → s.clear (cellRead sl) = true → (s.frame (eCell e)).ended = 1 → s.rb (Reg.dirLearnCfg sl) 30 = false → s.reg (pReg Reg.portEditCfg (ph / 8)) = 0 →
    (∀ r < 16, s.rb (Reg.redCfg0 r) 31 = false) → eCe e = false → eTrunc e = false → ePstate e ≠ 0x18 → ePstate e ≠ 0x19 → s.rb (pReg Reg.portMacsecCfg (ph / 8)) 31 = false →
    4 ≤ (s.frame (eCell e)).bytes.length → (s.frame (eCell e)).bytes.length ≤ maxLen s (ph / 8) →
    ∃ t, exec (.editorSend sl 0 pos) s = .next t ∧ t.hatch (hatchNo 6 sl) = (s.hatch (hatchNo 6 sl)).consume ∧
      (t.port (ph / 8)).outBuf.length = (s.port (ph / 8)).outBuf.length + 1 ∧
      ((t.port (ph / 8)).outBuf.getLast?.map fun o => (o.cell, o.ph, o.bytes, o.whole)) =
        some (eCell e, ph, (s.frame (eCell e)).bytes.take ((s.frame (eCell e)).bytes.length - 4) ++
          fcsOf ((s.frame (eCell e)).bytes.take ((s.frame (eCell e)).bytes.length - 4)), true) ∧ t.regs = s.regs) ∧
  (∀ (s : State) (sl pos ph : Nat) (e : Env) (hd : List Byte) (xp : Bool), s.dataPath = true → sl < 16 → (s.hatch (hatchNo 6 sl)).front = some ⟨.env e hd, ph, xp⟩ →
    eVoid e = false → s.clear (cellRead sl) = true → (s.frame (eCell e)).ended = 0 → s.rb (Reg.dirLearnCfg sl) 30 = false →
    ∃ t, exec (.editorSend sl 0 pos) s = .next t ∧ t.frames = s.frames ∧ (t.port (ph / 8)).outBuf.length = (s.port (ph / 8)).outBuf.length + 1 ∧
      ((t.port (ph / 8)).outBuf.getLast?.map fun o => (o.cell, o.ph, o.bytes, o.whole)) = some (eCell e, ph, [], false)) ∧
  (∀ (s : State) (sl ecc pos ph : Nat) (e : Env) (hd : List Byte) (xp : Bool), s.dataPath = true → sl < 16 → (s.hatch (hatchNo 6 sl)).front = some ⟨.env e hd, ph, xp⟩ →
    eVoid e = false → s.clear (cellRead sl) = true → (s.frame (eCell e)).ended ≠ 2 → 2 ≤ ecc →
    ∃ t, exec (.editorSend sl ecc pos) s = .next t ∧ (t.port (ph / 8)).outBuf.length = (s.port (ph / 8)).outBuf.length + 1 ∧
      ((t.port (ph / 8)).outBuf.getLast?.map fun o => (o.cell, o.ph, o.bytes, o.whole, o.bad)) = some (eCell e, ph, badFcs ((s.frame (eCell e)).bytes.take (256 * pos)), true, true) ∧
      (ecc = 3 → ∀ c ∈ (s.frame (eCell e)).cells.drop pos, c < cellCount → t.depot.leaked.contains c = true))

/-- R77, R80, R82, R84, R98, R319, R334: the egress MAC sends the whole frame it finds next, in between a preempted one too, and as it stands one that the Editor closed with an inverted
FCS; it counts and discards it with its link down, and begins one still arriving only at a rate no
greater than its ingress port's; a frame sent is no longer in flight; where the next bytes are not there it is closed with an inverted FCS and counted. -/
def Obligations.MacSendsFrames : Prop :=
  (∀ (s : State) (port dt i : Nat) (o : OutFrame), (advance s dt).dataPath = true → port < 512 → macFree (advance s dt) port o = true → s.clear (laneOut port) = true → nextOut (s.port port) = some (i, o) →
    portUp s port = false → o.whole = true → (s.reg (pReg Reg.portLinkdownDropCnt port)).toNat < 0xFFFFFFFE →
    ∃ t, exec (.macTx port dt 0) s = .next t ∧ (t.port port).outBuf = dropAt (s.port port).outBuf i ∧ (t.port port).lastTx = (s.port port).lastTx ∧
      (t.reg (pReg Reg.portLinkdownDropCnt port)).toNat = (s.reg (pReg Reg.portLinkdownDropCnt port)).toNat + 1) ∧
  (∀ (s : State) (port dt i : Nat) (o : OutFrame), (advance s dt).dataPath = true → port < 512 → macFree (advance s dt) port o = true → s.clear (laneOut port) = true → nextOut (s.port port) = some (i, o) →
    portUp s port = true → o.whole = true → o.bad = false → s.rf (pReg Reg.portMacCfg port) 21 20 = 0 →
    ∃ t, exec (.macTx port dt 0) s = .next t ∧ (t.port port).outBuf = dropAt (s.port port).outBuf i ∧ (t.port port).lastTx = o.bytes ∧
      (t.port port).tsq = (if ePtpEvt o.env ∧ (s.port port).tsq.length < 32 then (s.port port).tsq ++
        [⟨pmOf (((advance s dt).now : Int) + psUnits (s.rf (pReg Reg.portTsAdj port) 31 16)).toNat,
          fracOf (((advance s dt).now : Int) + psUnits (s.rf (pReg Reg.portTsAdj port) 31 16)).toNat, f16 o.hdr 30, (o.hdr.getD 0 0).toNat % 16, (o.hdr.getD 4 0).toNat⟩]
       else (s.port port).tsq) ∧ t.frames = s.frames) ∧
  (∀ (s : State) (port dt i : Nat) (o : OutFrame), (advance s dt).dataPath = true → port < 512 → macFree (advance s dt) port o = true → s.clear (laneOut port) = true → nextOut (s.port port) = some (i, o) →
    portUp s port = true → o.bad = true →
    ∃ t, exec (.macTx port dt 0) s = .next t ∧ (t.port port).outBuf = dropAt (s.port port).outBuf i ∧ (t.port port).lastTx = o.bytes ∧ t.frames = s.frames) ∧
  (∀ (s : State) (port dt i : Nat) (o : OutFrame), (advance s dt).dataPath = true → port < 512 → (s.port port).tx = none → (s.port port).txx = none → s.clear (laneOut port) = true →
    nextOut (s.port port) = some (i, o) → portUp s port = true → o.whole = false → o.bad = false → portRate s port ≤ portRate s (eInPort o.env) →
    ∃ t, exec (.macTx port dt 0) s = .next t ∧ (t.port port).outBuf = dropAt (s.port port).outBuf i ∧ ((t.port port).tx.map (·.cell)) = some o.cell ∧ t.frames = s.frames) ∧
  (∀ (s : State) (port dt i : Nat) (o : OutFrame), nextOut (s.port port) = some (i, o) →
    portUp s port = true → o.whole = false → o.bad = false → portRate s (eInPort o.env) < portRate s port → exec (.macTx port dt 0) s = .next (advance s dt)) ∧
  (∀ (s : State) (port dt : Nat) (o : OutFrame) (r : List OutFrame), (advance s dt).dataPath = true → (s.port port).sendingAll = o :: r →
    ∃ t, exec (.egressUnderrun port dt) s = .next t ∧ (t.port port).sendingAll = r ∧ (t.port port).lastTx = badFcs (s.frame o.cell).bytes ∧
      ((s.reg (pReg Reg.portUnderrunCnt port)).toNat < 0xFFFFFFFE →
        (t.reg (pReg Reg.portUnderrunCnt port)).toNat = (s.reg (pReg Reg.portUnderrunCnt port)).toNat + 1) ∧ (t.port port).outBuf = (s.port port).outBuf)

/-! ### The Directory (chapter 4) -/

/-- R37, R131, R139: GO latches a command and makes its Room BUSY. INSERT, DELETE and FLUSH of LEARN queue work for the insertion unit; LOOKUP and READ_IDX find their result without
touching the shared tables; WRITE_IDX of VLAN with BCAST writes the staging copy only, and waits while staging copies are held; INVALIDATE drops a bucket from every hot cache and makes its
fills stale; DELETE of a prefix takes it out of the staging image. -/
def Obligations.DirectoryCommandsTakeEffect : Prop :=
  (∀ (s : State) (i : Instr) (m sl : Nat) (v : Word), s.life.rails = true → sl < 16 → takes s m (Reg.dirCmd sl) v = true → bitOf v 31 = true → dirRefused sl v s = false →
    (i = .dirInsert m sl v ∧ fld v 3 0 = 1) ∨ (i = .dirDelete m sl v ∧ fld v 3 0 = 2) ∨ (i = .dirLookupCmd m sl v ∧ fld v 3 0 = 3) ∨ (i = .dirInvalidate m sl v ∧ fld v 3 0 = 4) ∨
      (i = .dirWriteIdx m sl v ∧ fld v 3 0 = 5) ∨ (i = .dirReadIdx m sl v ∧ fld v 3 0 = 6) ∨ (i = .dirFlush m sl v ∧ fld v 3 0 = 7) →
    ∃ t, exec i s = .next t ∧ (t.slice sl).cmd = some (latchCmd s sl v) ∧ t.rb (Reg.dirCmdStat sl) 31 = true ∧ t.rb (Reg.dirCmdStat sl) 30 = false ∧
      (bitOf v 17 = true → t.dirs.bcastLeft = List.range 16)) ∧
  (∀ (s : State) (m sl : Nat) (v : Word), s.life.rails = true → sl < 16 → takes s m (Reg.dirCmd sl) v = true → bitOf v 31 = true → fld v 3 0 = 1 → fld v 11 8 = 2 →
    dirRefused sl v s = false →
    ∃ t, exec (.dirInsert m sl v) s = .next t ∧ (t.slice sl).hostQ = (s.slice sl).hostQ ++ [⟨1, cmdMacKey (latchCmd s sl v), cd (latchCmd s sl v) 0 % 512, 0⟩] ∧
      (t.slice sl).cmd = some (latchCmd s sl v) ∧ (t.slice sl).learn = (s.slice sl).learn ∧ t.rb (Reg.dirCmdStat sl) 31 = true ∧ t.rb (Reg.dirCmdStat sl) 30 = false ∧ t.dirs = s.dirs) ∧
  (∀ (s : State) (m sl : Nat) (v : Word), s.life.rails = true → sl < 16 → takes s m (Reg.dirCmd sl) v = true → bitOf v 31 = true → fld v 3 0 = 2 → fld v 11 8 = 2 →
    dirRefused sl v s = false →
    ∃ t, exec (.dirDelete m sl v) s = .next t ∧ (t.slice sl).hostQ = (s.slice sl).hostQ ++ [⟨2, cmdMacKey (latchCmd s sl v), cd (latchCmd s sl v) 0 % 512, 0⟩] ∧
      (t.slice sl).cmd = some (latchCmd s sl v) ∧ (t.slice sl).learn = (s.slice sl).learn ∧ t.rb (Reg.dirCmdStat sl) 31 = true ∧ t.rb (Reg.dirCmdStat sl) 30 = false ∧ t.dirs = s.dirs) ∧
  (∀ (s : State) (m : Nat) (v : Word), s.life.rails = true → takes s m (Reg.dirCmd 0) v = true → bitOf v 31 = true → fld v 3 0 = 2 → fld v 11 8 = 4 →
    dirRefused 0 v s = false → stageHeld s = false → (cmdLpm (latchCmd s 0 v)).2.2.1 ≤ 32 →
    trimAddr false (cmdLpm (latchCmd s 0 v)).2.1 (cmdLpm (latchCmd s 0 v)).2.2.1 = (cmdLpm (latchCmd s 0 v)).2.1 →
    ∃ t, exec (.dirDelete m 0 v) s = .next t ∧ t.dirs.lpmS = (s.dirs.lpmS.filter fun p => !(p.v6 == false && p.root == (cmdLpm (latchCmd s 0 v)).2.2.2 &&
        p.plen == (cmdLpm (latchCmd s 0 v)).2.2.1 && p.addr == (cmdLpm (latchCmd s 0 v)).2.1)) ∧ t.dirs.lpmA = s.dirs.lpmA ∧ t.rb (Reg.dirCmdStat 0) 31 = true) ∧
  (∀ (s : State) (m sl : Nat) (v : Word), s.life.rails = true → sl < 16 → takes s m (Reg.dirCmd sl) v = true → bitOf v 31 = true → fld v 3 0 = 3 → dirRefused sl v s = false →
    ∃ t, exec (.dirLookupCmd m sl v) s = .next t ∧ (t.slice sl).cmdRes = some (dirRead s sl (latchCmd s sl v)) ∧ (t.slice sl).cmd = some (latchCmd s sl v) ∧
      t.rb (Reg.dirCmdStat sl) 31 = true ∧ t.rb (Reg.dirCmdStat sl) 30 = false ∧ t.dirs = s.dirs) ∧
  (∀ (s : State) (m sl : Nat) (v : Word), s.life.rails = true → sl < 16 → takes s m (Reg.dirCmd sl) v = true → bitOf v 31 = true → fld v 3 0 = 6 → dirRefused sl v s = false →
    ∃ t, exec (.dirReadIdx m sl v) s = .next t ∧ (t.slice sl).cmdRes = some (dirRead s sl (latchCmd s sl v)) ∧ (t.slice sl).cmd = some (latchCmd s sl v) ∧
      t.rb (Reg.dirCmdStat sl) 31 = true ∧ t.rb (Reg.dirCmdStat sl) 30 = false ∧ t.dirs = s.dirs) ∧
  (∀ (s : State) (m : Nat) (v : Word), s.life.rails = true → takes s m (Reg.dirCmd 0) v = true → bitOf v 31 = true → fld v 3 0 = 4 → dirRefused 0 v s = false →
    ∃ t, exec (.dirInvalidate m 0 v) s = .next t ∧ (∀ i, inCache (t.slice i) (ck (latchCmd s 0 v) 0 % 2 ^ 24) = false ∧
        (t.slice i).fills = (s.slice i).fills.map fun f => if f.bucket = ck (latchCmd s 0 v) 0 % 2 ^ 24 then { f with stale := true } else f) ∧
      t.dirs.bcastLeft = List.range 16 ∧ t.rb (Reg.dirCmdStat 0) 31 = true ∧ t.rb (Reg.dirCmdStat 15) 31 = true) ∧
  (∀ (s : State) (m : Nat) (v : Word), s.life.rails = true → takes s m (Reg.dirCmd 0) v = true → bitOf v 31 = true → fld v 3 0 = 5 → fld v 11 8 = 3 →
    dirRefused 0 v s = false → stageHeld s = false →
    ∃ t, exec (.dirWriteIdx m 0 v) s = .next t ∧ mapGet 0 t.dirs.vlanS (fld (s.reg (Reg.dirKey0 0)) 11 0) = s.reg (Reg.dirData0 0) ∧ t.dirs.vlanA = s.dirs.vlanA ∧
      (∀ k, k ≠ fld (s.reg (Reg.dirKey0 0)) 11 0 → mapGet 0 t.dirs.vlanS k = mapGet 0 s.dirs.vlanS k) ∧ t.dirs.bcastLeft = List.range 16) ∧
  (∀ (s : State) (m : Nat) (v : Word), s.life.rails = true → bitOf v 31 = true → fld v 3 0 = 5 → fld v 11 8 = 3 → stageHeld s = true →
    exec (.dirWriteIdx m 0 v) s = .next (s.waitAt m (Reg.dirCmd 0) true v)) ∧
  (∀ (s : State) (m sl : Nat) (v : Word), s.life.rails = true → sl < 16 → takes s m (Reg.dirCmd sl) v = true → bitOf v 31 = true → fld v 3 0 = 7 → dirRefused sl v s = false →
    ∃ t, exec (.dirFlush m sl v) s = .next t ∧ (t.slice sl).hostQ = (s.slice sl).hostQ ++ [⟨7, cmdMacKey (latchCmd s sl v), cd (latchCmd s sl v) 0 % 512, 0⟩] ∧
      (t.slice sl).learn = (s.slice sl).learn ∧ t.rb (Reg.dirCmdStat sl) 31 = true ∧ t.dirs = s.dirs) ∧
  (∀ (s : State) (m sl : Nat) (v : Word), s.life.rails = true → sl < 16 → takes s m (Reg.dirCmd sl) v = true → bitOf v 31 = true → fld v 3 0 = 3 → dirRefused sl v s = true →
    exec (.dirLookupCmd m sl v) s = .next (s.reject (Reg.dirCmd sl)))

/-- R128, R129, R131, R132, R139, R140: a command's end publishes its status, index and result and sets DONE, and each Room of a BCAST command has a status of its own and the last sets ALL_DONE; the insertion unit adds a new
address where a bucket has a free slot, refreshes one it holds, serves the side it did not serve last, and carries out a FLUSH with the number of entries it removes as its index. The order of a cuckoo search is the model's choice (log entry 9). -/
def Obligations.DirectoryCommandsEndAndLearn : Prop :=
  (∀ (s : State) (sl dt : Nat) (c : DirCmd) (r : CmdRes), (advance s dt).life.rails = true → sl < 16 → s.dirs.bcastLeft = [] → (s.slice sl).cmd = some c →
    (s.slice sl).cmdRes = some r → c.bcast = false → r.status < 16 → r.index < 2 ^ 24 →
    ∃ t, exec (.dirCmdDone sl dt) s = .next t ∧ (t.slice sl).cmd = none ∧ t.rb (Reg.dirCmdStat sl) 30 = true ∧ t.rb (Reg.dirCmdStat sl) 31 = false ∧
      t.rf (Reg.dirCmdStat sl) 27 24 = r.status ∧ t.rf (Reg.dirCmdStat sl) 23 0 = r.index ∧ (r.data ≠ [] → t.reg (Reg.dirData0 sl) = r.data.headD 0) ∧ t.dirs = s.dirs) ∧
  (∀ (s : State) (sl dt : Nat) (c : DirCmd) (r : CmdRes), (advance s dt).life.rails = true → sl < 16 → s.dirs.bcastLeft.contains sl = true → (s.slice 0).cmd = some c →
    (s.slice 0).cmdRes = some r → c.bcast = true → (r.each.getD sl (r.status, r.index)).1 < 16 →
    ∃ t, exec (.dirCmdDone sl dt) s = .next t ∧ t.dirs.bcastLeft = s.dirs.bcastLeft.filter (· != sl) ∧ t.rb (Reg.dirCmdStat sl) 30 = true ∧
      t.rf (Reg.dirCmdStat sl) 27 24 = (r.each.getD sl (r.status, r.index)).1) ∧
  (∀ (s : State) (sl dt : Nat) (c : DirCmd) (r : CmdRes), (advance s dt).life.rails = true → sl < 16 → s.dirs.bcastLeft = [sl] → (s.slice 0).cmd = some c →
    (s.slice 0).cmdRes = some r → c.bcast = true →
    ∃ t, exec (.dirCmdDone sl dt) s = .next t ∧ (t.slice 0).cmd = none ∧ t.dirs.bcastLeft = [] ∧ t.rb (Reg.dirCmdStat sl) 30 = true ∧
      t.rb (Reg.dirCmdStat 0) 29 = true ∧ t.rb (Reg.dirCmdStat 0) 31 = false) ∧
  (∀ (s : State) (sl : Nat) (w : HostWork) (hr : List HostWork), s.dataPath = true → (s.slice sl).hostQ = w :: hr → ((s.slice sl).learnQ = [] ∨ (s.slice sl).lastHost = false) →
    ∃ t, exec (.learnInsert sl) s = .next t ∧ (t.slice sl).hostQ = hr ∧ (t.slice sl).learnQ = (s.slice sl).learnQ ∧ (t.slice sl).lastHost = true) ∧
  (∀ (s : State) (sl : Nat) (q : LearnReq) (lr : List LearnReq), s.dataPath = true → (s.slice sl).learnQ = q :: lr → ((s.slice sl).hostQ = [] ∨ (s.slice sl).lastHost = true) →
    ∃ t, exec (.learnInsert sl) s = .next t ∧ (t.slice sl).learnQ = lr ∧ (t.slice sl).hostQ = (s.slice sl).hostQ ∧ (t.slice sl).lastHost = false) ∧
  (∀ (s : State) (sl : Nat) (w : HostWork) (hr : List HostWork) (c : DirCmd), s.dataPath = true → (s.slice sl).hostQ = w :: hr → ((s.slice sl).learnQ = [] ∨ (s.slice sl).lastHost = false) →
    w.op = 7 → w.ref = 0 → (s.slice sl).cmd = some c →
    ∃ t, exec (.learnInsert sl) s = .next t ∧ (t.slice sl).cmdRes = some ⟨0, ((hashEntries (s.slice sl).learn).filter fun e => e.key / 2 ^ 60 == ck c 1 / 2 ^ 28 &&
        (!(cd c 0).testBit 31 || learnPort e.data == cd c 0 % 512)).length, [], []⟩) ∧
  (∀ (s : State) (sl : Nat) (q : LearnReq) (lr : List LearnReq), s.dataPath = true → (s.slice sl).learnQ = q :: lr → ((s.slice sl).hostQ = [] ∨ (s.slice sl).lastHost = true) →
    hashFind (s.slice sl).learn 2 0 (seedOf s sl 2 false) q.key = none → learnedOf (s.slice sl) (q.key / 2 ^ 60) < s.rf (Reg.dirTenLimit sl (q.key / 2 ^ 60)) 18 0 →
    (bucketAt (s.slice sl).learn (bucketsOf 2 0 (seedOf s sl 2 false) q.key).1).length < 4 →
    ∃ t, exec (.learnInsert sl) s = .next t ∧ (t.slice sl).learnQ = lr ∧ (t.slice sl).hostQ = (s.slice sl).hostQ ∧ (t.slice sl).lastHost = false ∧
      (hashFind (t.slice sl).learn 2 0 (seedOf s sl 2 false) q.key) = some ⟨q.key, learnData q.port (ageNow s)⟩) ∧
  (∀ (s : State) (sl : Nat) (q : LearnReq) (lr : List LearnReq) (o : DirEntry), s.dataPath = true → (s.slice sl).learnQ = q :: lr → (s.slice sl).hostQ = [] →
    hashFind (s.slice sl).learn 2 0 (seedOf s sl 2 false) q.key = some o →
    ∃ t, exec (.learnInsert sl) s = .next t ∧ (t.slice sl).learnQ = lr ∧
      (hashFind (t.slice sl).learn 2 0 (seedOf s sl 2 false) q.key) = some ⟨q.key, learnData q.port (ageNow s)⟩) ∧
  (∀ (s : State) (sl : Nat) (w : HostWork) (hr : List HostWork), s.dataPath = true → (s.slice sl).hostQ = w :: hr → ((s.slice sl).learnQ = [] ∨ (s.slice sl).lastHost = false) →
    w.op = 2 → w.ref = 0 → hashFind (s.slice sl).learn 2 0 (seedOf s sl 2 false) w.key = none →
    ∃ t, exec (.learnInsert sl) s = .next t ∧ (t.slice sl).hostQ = hr ∧ (t.slice sl).lastHost = true ∧ (t.slice sl).learn = (s.slice sl).learn ∧
      (t.slice sl).cmdRes = some ⟨2, 0, [], []⟩)

/-- R130, R134, R142, R144: a fill that returns takes its lookups off the wait and is cached unless stale, and one that failed makes them miss; one that takes more than 20 µs counts each of them; the 1 ms sweep drops the lines a
sweep has seen; the aging sweep counts what it removes; and a build of a shadow begins, and ends BUILT, or FAILED where an entry found no place. -/
def Obligations.DirectoryFillsSweepsAndBuilds : Prop :=
  (∀ (s : State) (sl no dt : Nat) (f : ExtFill), (advance s dt).dataPath = true → sl < 16 →
    (s.slice sl).fills.find? (fun g => g.no == no && (fillAnswers s sl).any fun a => a.1 == g.ref) = some f → ((fillAnswers s sl).any fun a => a.1 == f.ref && a.2 == 0) = true →
    ∃ t, exec (.extFill sl no dt false) s = .next t ∧ (t.slice sl).fills = (s.slice sl).fills.filter (fun g => g.no != f.no) ∧
      (t.slice sl).store = (s.slice sl).store.map (fun it => fillItem it f.no (some f.data)) ∧
      (if f.stale then (t.slice sl).cache = (s.slice sl).cache else mapGet ([], 0) (t.slice sl).cache f.bucket = (f.data, 0)) ∧ t.dirs = s.dirs) ∧
  (∀ (s : State) (sl no dt : Nat) (f : ExtFill), (advance s dt).dataPath = true → sl < 16 →
    (s.slice sl).fills.find? (fun g => g.no == no && (fillAnswers s sl).any fun a => a.1 == g.ref) = some f → ((fillAnswers s sl).any fun a => a.1 == f.ref && a.2 == 0) = false →
    ∃ t, exec (.extFill sl no dt true) s = .next t ∧ (t.slice sl).fills = (s.slice sl).fills.filter (fun g => g.no != f.no) ∧
      (t.slice sl).store = (s.slice sl).store.map (fun it => fillItem it f.no none) ∧ (t.slice sl).cache = (s.slice sl).cache) ∧
  (∀ (s : State) (sl no dt : Nat) (f : ExtFill), (advance s dt).dataPath = true → (s.slice sl).fills.find? (fun g => g.no == no) = some f → f.since + 20000 * nsUnit < s.up + dt →
    (s.reg (Reg.dirExtTimeoutCnt sl)).toNat + ((s.slice sl).store.filter fun it => it.waiting.contains no).length < 0xFFFFFFFF →
    ∃ t, exec (.extFillTimeout sl no dt) s = .next t ∧ (t.slice sl).fills = (s.slice sl).fills.filter (fun g => g.no != no) ∧ (t.slice sl).cache = (s.slice sl).cache ∧
      (t.reg (Reg.dirExtTimeoutCnt sl)).toNat = (s.reg (Reg.dirExtTimeoutCnt sl)).toNat + ((s.slice sl).store.filter fun it => it.waiting.contains no).length) ∧
  (∀ (s : State) (sl dt : Nat), (advance s dt).dataPath = true → sl < 16 → (s.slice sl).hotAt + 1000000 * nsUnit ≤ s.up + dt →
    ∃ t, exec (.hotcacheSweep sl dt) s = .next t ∧ (t.slice sl).hotAt = s.up + dt ∧ (t.slice sl).cache = ((s.slice sl).cache.filter fun p => p.2.2 == 0).map (fun p => (p.1, (p.2.1, 1))) ∧
      t.regs = s.regs) ∧
  (∀ (s : State) (sl dt : Nat), (advance s dt).life.rails = true → sl < 16 → (s.slice sl).sweepAt + secUnit ≤ s.up + dt → s.rb (Reg.dirLearnCfg sl) 31 = true →
    (s.reg (Reg.dirAgeOutCnt sl)).toNat + (hashEntries (s.slice sl).learn).length < 0xFFFFFFFF →
    ∃ t, exec (.ageSweep sl dt) s = .next t ∧ (t.slice sl).sweepAt = s.up + dt ∧ (t.reg (Reg.dirAgeOutCnt sl)).toNat = (s.reg (Reg.dirAgeOutCnt sl)).toNat +
      ((hashEntries (s.slice sl).learn).filter fun e => decide (2 * s.rf (Reg.dirLearnCfg sl) 15 0 < (ageNow (advance s dt) + 65536 - learnStamp e.data) % 65536)).length) ∧
  (∀ (s : State) (sl dt : Nat), (advance s dt).life.rails = true → sl < 16 → (s.slice sl).sweepAt + secUnit ≤ s.up + dt → s.rb (Reg.dirLearnCfg sl) 31 = false →
    ∃ t, exec (.ageSweep sl dt) s = .next t ∧ (t.slice sl).sweepAt = s.up + dt ∧ (t.slice sl).learn = (s.slice sl).learn ∧ t.regs = s.regs) ∧
  (∀ (s : State) (m sl code : Nat) (v : Word), s.life.rails = true → sl < 16 → code = 1 ∨ code = 2 ∨ code = 6 → takes s m (rehashReg sl code) v = true → bitOf v 0 = true →
    buildRefused sl code v s = false →
    ∃ t, exec (.dirBuild m sl code v) s = .next t ∧ (t.slice sl).building = (s.slice sl).building ++ [code] ∧ t.rb (rehashReg sl code) 30 = false ∧
      t.rb (rehashReg sl code) 29 = false) ∧
  (∀ (s : State) (m sl : Nat) (v : Word), s.life.rails = true → sl < 16 → takes s m (Reg.dirRehashLearn sl) v = true → bitOf v 0 = true → buildRefused sl 2 v s = false →
    ∃ t, exec (.dirBuild m sl 2 v) s = .next t ∧ (t.slice sl).building = (s.slice sl).building ++ [2] ∧ (t.slice sl).learn = (s.slice sl).learn ∧
      (t.slice sl).learnShadow = (buildShadow (s.slice sl).learn 2 0 (s.reg (Reg.dirNewSeedLearn sl)) (s.rf (Reg.dirHashCfgLearn sl) 3 0)).1 ∧
      t.rb (Reg.dirRehashLearn sl) 30 = false ∧ t.rb (Reg.dirRehashLearn sl) 29 = false) ∧
  (∀ (s : State) (sl code dt : Nat), (advance s dt).life.rails = true → (s.slice sl).building.contains code = true → (advance s dt).dramReadyFor code = true →
    ∃ t, exec (.buildDone sl code dt) s = .next t ∧ (t.slice sl).building.contains code = false ∧
      (code ≠ 1 → (if (s.slice sl).shadowBad.contains code then t.rb (rehashReg sl code) 29 else t.rb (rehashReg sl code) 30) = true))

/-! ### Engines and their instruction set (chapters 5 and 6) -/

/-- R153, R202 to R204, R206, R207, R230, R232: every operation of the A units with two operands, issuing, sends its result on its way to its register, to land one cycle after issue with its flags, and changes nothing else; those
with one operand or none issue in the same way; MTBK lands two cycles after issue, CLRF clears its flags one cycle after, and NOP does nothing. That a bundle's syllables are successive commands is the model's choice (log entry 13). -/
def Obligations.AluOperationsIssue : Prop :=
  (∀ p ∈ ([(.add, 0x01, aluAdd), (.adds, 0x02, aluAdds), (.sub, 0x03, aluSub), (.subs, 0x04, aluSubs), (.minOp, 0x09, aluMin), (.maxOp, 0x0A, aluMax), (.minu, 0x0B, aluMinu),
      (.maxu, 0x0C, aluMaxu), (.andOp, 0x10, aluAnd), (.orOp, 0x11, aluOr), (.xorOp, 0x12, aluXor), (.andn, 0x13, aluAndn), (.shl, 0x18, aluShl), (.shr, 0x19, aluShr),
      (.sar, 0x1A, aluSar), (.ror, 0x1B, aluRor), (.ceq, 0x20, aluCeq), (.cne, 0x21, aluCne), (.clt, 0x22, aluClt), (.cle, 0x23, aluCle), (.cltu, 0x24, aluCltu),
      (.cleu, 0x25, aluCleu), (.fadd, 0x28, aluFadd), (.fsub, 0x29, aluFsub), (.fadd2, 0x2C, aluFadd2), (.fsub2, 0x2D, aluFsub2), (.tadd, 0x30, aluTadd), (.tsub, 0x31, aluTsub)] :
      List ((Issue → Instr) × Nat × (TWord → TWord → Res))),
    ∀ (s u : State) (i : Issue) (y : Syl), issuing s i = some (y, u) → y.unit ≤ 1 → y.op = p.2.1 →
      ∃ t, exec (p.1 i) s = .next t ∧ Still i.th u t ∧ (t.thr i.th).land =
        fly (u.thr i.th).land (inFlight (u.thr i.th) 0 y.dst (p.2.2 ((u.thr i.th).gr y.s1) ((immOperand y).getD ((u.thr i.th).gr y.s2))).val
          (p.2.2 ((u.thr i.th).gr y.s1) ((immOperand y).getD ((u.thr i.th).gr y.s2))).flags 1 y.unit 0 false)) ∧
  (∀ p ∈ ([(.neg, 0x05, fun _ => aluNeg), (.negs, 0x06, fun _ => aluNegs), (.abs, 0x07, fun _ => aluAbs), (.abss, 0x08, fun _ => aluAbss), (.clz, 0x14, fun _ => aluClz),
      (.popc, 0x15, fun _ => aluPopc), (.bswap, 0x16, fun _ => aluBswap), (.fneg, 0x2A, fun _ => aluFneg), (.fabs, 0x2B, fun _ => aluFabs), (.mov, 0x38, fun _ => aluMov),
      (.movi, 0x39, fun y _ => plain (moviTag y) (moviValue y)), (.tagOp, 0x3A, fun _ => aluTag), (.settag, 0x3B, fun y => aluSettag (settagTag y))] :
      List ((Issue → Instr) × Nat × (Syl → TWord → Res))),
    ∀ (s u : State) (i : Issue) (y : Syl), issuing s i = some (y, u) → y.unit ≤ 1 → y.op = p.2.1 →
      ∃ t, exec (p.1 i) s = .next t ∧ Still i.th u t ∧ (t.thr i.th).land = fly (u.thr i.th).land
        (inFlight (u.thr i.th) 0 y.dst (p.2.2 y ((u.thr i.th).gr y.s1)).val (p.2.2 y ((u.thr i.th).gr y.s1)).flags 1 y.unit 0 false)) ∧
  (∀ (s u : State) (i : Issue) (y : Syl), issuing s i = some (y, u) → y.unit ≤ 1 → y.op = 0x3D →
    ∃ t, exec (.mfbk i) s = .next t ∧ Still i.th u t ∧ (t.thr i.th).land = fly (u.thr i.th).land
      (inFlight (u.thr i.th) 0 y.dst (tw tagINT ((u.thr i.th).bank y.s1)) 0 1 y.unit 0 false)) ∧
  (∀ (s u : State) (i : Issue) (y : Syl), issuing s i = some (y, u) → y.unit ≤ 1 → y.op = 0x3E →
    ∃ t, exec (.rdf i) s = .next t ∧ Still i.th u t ∧ (t.thr i.th).land = fly (u.thr i.th).land
      (inFlight (u.thr i.th) 0 y.dst (tw tagBITS (u.thr i.th).flags) 0 1 y.unit 0 false)) ∧
  (∀ (s u : State) (i : Issue) (y : Syl), issuing s i = some (y, u) → y.unit ≤ 1 → y.op = 0x3C →
    ∃ t, exec (.mtbk i) s = .next t ∧ Still i.th u t ∧ (t.thr i.th).land = fly (u.thr i.th).land
      (if ((u.thr i.th).gr y.s1).tag = tagINT ∨ ((u.thr i.th).gr y.s1).tag = tagADDR ∨ ((u.thr i.th).gr y.s1).tag = tagBITS then
        inFlight (u.thr i.th) 2 y.dst ⟨tagINT, ((u.thr i.th).gr y.s1).data &&& 0xFFFF⟩ 0 2 y.unit 0 false
       else inFlight (u.thr i.th) 3 0 default flagTF 1 y.unit 0 false)) ∧
  (∀ (s u : State) (i : Issue) (y : Syl), issuing s i = some (y, u) → y.unit ≤ 1 → y.op = 0x3F →
    ∃ t, exec (.clrf i) s = .next t ∧ Still i.th u t ∧ (t.thr i.th).land = fly (u.thr i.th).land
      (inFlight (u.thr i.th) 5 0 default (y.mod % 16) 1 y.unit 0 false)) ∧
  (∀ (s u : State) (i : Issue) (y : Syl), issuing s i = some (y, u) → y.op = 0 →
    ∃ t, exec (.nop i) s = .next t ∧ Still i.th u t ∧ (t.thr i.th).land = (u.thr i.th).land)

/-- R208 to R211, R227, R228, R230, R231: the operations of the M unit issue: multiplications land three cycles after, accumulations three, accumulator shifts two, and those of the
divide-and-root unit 18, SQRT 20, with that unit free. That a bundle's syllables are successive commands is the model's choice (log entry 13). -/
def Obligations.MultiplierOperationsIssue : Prop :=
  (∀ p ∈ ([(.mul, 0x01, fun _ => aluMul), (.mulhi, 0x02, fun _ => aluMulhi), (.mulhu, 0x03, fun _ => aluMulhu), (.fmul, 0x04, aluFmul), (.fmul2, 0x05, aluFmul2)] :
      List ((Issue → Instr) × Nat × (Nat → TWord → TWord → Res))),
    ∀ (s u : State) (i : Issue) (y : Syl), issuing s i = some (y, u) → y.unit = 2 → y.op = p.2.1 →
      ∃ t, exec (p.1 i) s = .next t ∧ Still i.th u t ∧ (t.thr i.th).land = fly (u.thr i.th).land
        (inFlight (u.thr i.th) 0 y.dst (p.2.2 (y.mod % 4) ((u.thr i.th).gr y.s1) ((u.thr i.th).gr y.s2)).val
          (p.2.2 (y.mod % 4) ((u.thr i.th).gr y.s1) ((u.thr i.th).gr y.s2)).flags 3 2 0 false)) ∧
  (∀ p ∈ ([(.mac, 0x08, 3, fun _ => accMac), (.msu, 0x09, 3, fun _ => accMsu), (.fmac, 0x0A, 3, fun _ => accFmac), (.fmsu, 0x0B, 3, fun _ => accFmsu),
      (.fmac2, 0x0C, 3, fun _ => accFmac2), (.clra, 0x10, 3, fun _ _ _ _ => accClra), (.mova, 0x11, 3, fun _ x a _ => accMova x a),
      (.asl, 0x14, 2, fun y x a _ => accAsl x a y.mod), (.asr, 0x15, 2, fun y x a _ => accAsr x a y.mod), (.alsr, 0x16, 2, fun y x a _ => accAlsr x a y.mod)] :
      List ((Issue → Instr) × Nat × Nat × (Syl → AccV → TWord → TWord → ARes))),
    ∀ (s u : State) (i : Issue) (y : Syl) (r : ARes), issuing s i = some (y, u) → y.unit = 2 → y.op = p.2.1 →
      r = p.2.2.2 y ((u.thr i.th).ac y.dst) ((u.thr i.th).gr y.s1) ((u.thr i.th).gr y.s2) →
      ∃ t, exec (p.1 i) s = .next t ∧ Still i.th u t ∧ (t.thr i.th).land = fly (u.thr i.th).land
        { inFlight (u.thr i.th) (if r.flags / 8 % 2 = 1 then 4 else 1) y.dst default r.flags p.2.2.1 2 0 false with acc := r.val }) ∧
  (∀ p ∈ ([(.acci, 0x18, fun y x => accOut tagINT x y.s2 (y.mod % 4)), (.accf, 0x19, fun y x => accOut tagFRAC x 32 (y.mod % 4))] :
      List ((Issue → Instr) × Nat × (Syl → AccV → Res))),
    ∀ (s u : State) (i : Issue) (y : Syl), issuing s i = some (y, u) → y.unit = 2 → y.op = p.2.1 →
      ∃ t, exec (p.1 i) s = .next t ∧ Still i.th u t ∧ (t.thr i.th).land = fly (u.thr i.th).land
        (inFlight (u.thr i.th) 0 y.dst (p.2.2 y ((u.thr i.th).ac y.s1)).val (p.2.2 y ((u.thr i.th).ac y.s1)).flags 3 2 0 false)) ∧
  (∀ p ∈ ([(.divu, 0x21, 18, aluDivu), (.fdiv, 0x22, 18, aluFdiv), (.sqrt, 0x24, 20, fun a _ => aluSqrt a)] : List ((Issue → Instr) × Nat × Nat × (TWord → TWord → Res))),
    ∀ (s u : State) (i : Issue) (y : Syl), issuing s i = some (y, u) → y.unit = 2 → y.op = p.2.1 → (u.eng (i.th / 16)).div = none → (u.eng (i.th / 16)).divWait = none →
      ∃ t, exec (p.1 i) s = .next t ∧ Still i.th u t ∧ (t.eng (i.th / 16)).div = some (i.th, (u.thr i.th).issueAt + p.2.2.1) ∧ (t.thr i.th).land = fly (u.thr i.th).land
        (inFlight (u.thr i.th) 0 y.dst (p.2.2.2 ((u.thr i.th).gr y.s1) ((u.thr i.th).gr y.s2)).val (p.2.2.2 ((u.thr i.th).gr y.s1) ((u.thr i.th).gr y.s2)).flags p.2.2.1 2 0 true)) ∧
  (∀ (s u : State) (i : Issue) (y : Syl), issuing s i = some (y, u) → y.unit = 2 → y.op = 0x20 → (u.eng (i.th / 16)).div = none → (u.eng (i.th / 16)).divWait = none →
    ∃ t, exec (.div i) s = .next t ∧ Still i.th u t ∧ (t.eng (i.th / 16)).div = some (i.th, (u.thr i.th).issueAt + 18) ∧ (t.thr i.th).land =
      fly (fly (u.thr i.th).land
        (inFlight (u.thr i.th) 0 y.dst (aluDiv ((u.thr i.th).gr y.s1) ((u.thr i.th).gr y.s2)).1.val (aluDiv ((u.thr i.th).gr y.s1) ((u.thr i.th).gr y.s2)).1.flags 18 2 0 true))
        (inFlight (u.thr i.th) 0 (y.dst + 1) (aluDiv ((u.thr i.th).gr y.s1) ((u.thr i.th).gr y.s2)).2.val (aluDiv ((u.thr i.th).gr y.s1) ((u.thr i.th).gr y.s2)).2.flags 18 2 0 true))

/-- R157, R159, R161, R212, R215, R216: a load of data or shared memory finds the word with the engine's buffered stores over it and sends it on its way; a store joins the store buffer, and
reaches memory when it is due; a store to the envelope window changes its writable bits only. That a bundle's syllables are successive commands is the model's choice (log entry 13). -/
def Obligations.LoadsAndStoresIssue : Prop :=
  (∀ p ∈ ([(.ld, 1), (.ldh, 2), (.ldhu, 3), (.ldb, 4), (.ldbu, 5)] : List ((Issue → Instr) × Nat)),
    ∀ (s u : State) (i : Issue) (y : Syl) (a : Nat), issuing s i = some (y, u) → y.unit = 3 → y.op = p.2 → i.ecc ≠ 2 → a = memAddr (u.thr i.th) y → regionOf (i.th / 16) a ≤ 1 →
      loadBad u i.th a = false →
      ∃ t, exec (p.1 i) s = .next t ∧ Still i.th u t ∧ (t.thr i.th).land = fly (u.thr i.th).land
        (inFlight (u.thr i.th) 0 y.dst (loadValue p.2 (loadWord u (i.th / 16) a) a) 0 (if regionOf (i.th / 16) a = 0 then 4 else 8) 3
          (if thrIsT u i.th then 0 else if regionOf (i.th / 16) a = 0 then 2 else 3) false)) ∧
  (∀ p ∈ ([(.st, 0x09, 4), (.sth, 0x0A, 2), (.stb, 0x0C, 1)] : List ((Issue → Instr) × Nat × Nat)),
    ∀ (s u : State) (i : Issue) (y : Syl) (a : Nat), issuing s i = some (y, u) → y.unit = 3 → y.op = p.2.1 → a = memAddr (u.thr i.th) y → regionOf (i.th / 16) a ≤ 1 →
      ownTap i.th a = false →
      ∃ t, exec (p.1 i) s = .next t ∧ (t.eng (i.th / 16)).stores = (u.eng (i.th / 16)).stores ++
          [⟨i.th, a, p.2.2, (u.thr i.th).gr y.dst, (u.thr i.th).issueAt + if regionOf (i.th / 16) a = 0 then 2 else 6⟩] ∧
        (∀ e, (t.eng e).local_ = (u.eng e).local_) ∧ t.shared = u.shared ∧ (t.thr i.th).land = (u.thr i.th).land ∧ (t.thr i.th).g = (u.thr i.th).g) ∧
  (∀ (s u : State) (i : Issue) (y : Syl) (x : GateItem), issuing s i = some (y, u) → y.unit = 3 → y.op = 0x09 → i.th / 16 < 192 → regionOf (i.th / 16) (memAddr (u.thr i.th) y) = 2 →
    memAddr (u.thr i.th) y % 4 = 0 → heldItem u i.th = some x →
    ∃ t, exec (.st i) s = .next t ∧ ((heldItem t i.th).map (·.env)) = some (modAt x.env (memAddr (u.thr i.th) y % 0x1000 / 4) fun w =>
        envStoreWord (memAddr (u.thr i.th) y % 0x1000 / 4) w ((u.thr i.th).gr y.dst).data 0xFFFFFFFF) ∧ t.shared = u.shared) ∧
  (∀ (s : State) (e dt : Nat) (x : StoreEnt) (r : List StoreEnt), s.life.rails = true → ((advance s dt).eng e).stores = x :: r → x.due ≤ engCycle (advance s dt) e → regionOf e x.addr = 0 →
    x.size = 4 →
    ∃ t, exec (.storeDrain e dt) s = .next t ∧ (t.eng e).stores = r ∧ mapGet TWord.zero (t.eng e).local_ (x.addr / 4) = x.data ∧ t.shared = s.shared ∧
      (∀ k, k ≠ x.addr / 4 → mapGet TWord.zero (t.eng e).local_ k = mapGet TWord.zero (s.eng e).local_ k)) ∧
  (∀ (s : State) (e dt : Nat) (x : StoreEnt) (r : List StoreEnt), s.life.rails = true → ((advance s dt).eng e).stores = x :: r → x.due ≤ engCycle (advance s dt) e → regionOf e x.addr ≠ 0 →
    x.size = 4 → engIsland e ≠ 81 →
    ∃ t, exec (.storeDrain e dt) s = .next t ∧ (t.eng e).stores = r ∧ shmWord t (engIsland e) (x.addr / 4 * 4) = x.data ∧ (t.eng e).local_ = (s.eng e).local_) ∧
  (∀ (s : State) (m dt : Nat) (x : Landing), s.life.rails = true → isThread m = true → thrIsT s m = true → (s.thr m).todo = [] → (s.thr m).land = [x] → x.kind = 0 → x.reg ≠ 0 →
    x.land ≤ engCycle (advance s dt) (m / 16) →
    ∃ t, exec (.resultLand m dt) s = .next t ∧ (t.thr m).land = [] ∧ (t.thr m).gr x.reg = x.val ∧ (t.thr m).flags = (s.thr m).flags ||| x.flags ∧
      (∀ k, k ≠ x.reg → (t.thr m).gr k = (s.thr m).gr k))

/-- R168, R172, R219 to R225: a branch is taken or not by its register, calls leave the address of the next bundle for g31, LOOP opens its context, WAIT clears a set doorbell of its mask
or waits, FENCE counts its slots, RETI restores the flags and sets IE; the last syllable of a bundle takes the thread to its target. That a bundle's syllables are successive commands is the model's choice (log entry 13). -/
def Obligations.ControlOperationsIssue : Prop :=
  (∀ p ∈ ([(.br, 1, fun _ => true), (.bz, 2, fun w => w == 0), (.bnz, 3, fun w => w != 0), (.bltz, 4, fun w => decide (w.toInt < 0)), (.bgez, 5, fun w => decide (0 ≤ w.toInt))] :
      List ((Issue → Instr) × Nat × (Word → Bool))),
    ∀ (s u : State) (i : Issue) (y : Syl), issuing s i = some (y, u) → y.unit = 5 → y.op = p.2.1 →
      (if p.2.1 ≤ 3 then !((u.thr i.th).gr y.s1).poison else intFrac ((u.thr i.th).gr y.s1)) = true → (u.thr i.th).todo = [] →
      (u.thr i.th).loopc = none → (u.thr i.th).halt = false → (u.thr i.th).next < 65536 →
      ∃ t, exec (p.1 i) s = .next t ∧ Still i.th u t ∧ (t.thr i.th).land = (u.thr i.th).land ∧
        thrPc t i.th = if p.2.2 ((u.thr i.th).gr y.s1).data then branchTarget y (u.thr i.th).bundle else (u.thr i.th).next) ∧
  (∀ p ∈ ([(.bz, 2), (.bnz, 3), (.bltz, 4), (.bgez, 5)] : List ((Issue → Instr) × Nat)),
    ∀ (s u : State) (i : Issue) (y : Syl), issuing s i = some (y, u) → y.unit = 5 → y.op = p.2 →
      (if p.2 ≤ 3 then !((u.thr i.th).gr y.s1).poison else intFrac ((u.thr i.th).gr y.s1)) = false → (u.thr i.th).todo = [] →
      (u.thr i.th).loopc = none → (u.thr i.th).halt = false → (u.thr i.th).next < 65536 →
      ∃ t, exec (p.1 i) s = .next t ∧ Still i.th u t ∧ thrPc t i.th = (u.thr i.th).next ∧
        (t.thr i.th).land = fly (u.thr i.th).land (inFlight (u.thr i.th) 3 0 default flagTF 1 5 0 false)) ∧
  (∀ p ∈ ([(.jmp, 6, fun y => y.s1), (.ret, 9, fun _ => 31)] : List ((Issue → Instr) × Nat × (Syl → Nat))),
    ∀ (s u : State) (i : Issue) (y : Syl), issuing s i = some (y, u) → y.unit = 5 → y.op = p.2.1 → (u.thr i.th).todo = [] → (u.thr i.th).loopc = none → (u.thr i.th).halt = false →
      ∃ t, exec (p.1 i) s = .next t ∧ Still i.th u t ∧ (t.thr i.th).land = (u.thr i.th).land ∧ thrPc t i.th = ((u.thr i.th).gr (p.2.2 y)).data.toNat % 65536) ∧
  (∀ (s u : State) (i : Issue) (y : Syl), issuing s i = some (y, u) → y.unit = 5 → y.op = 7 → (u.thr i.th).todo = [] → (u.thr i.th).loopc = none → (u.thr i.th).halt = false →
    ∃ t, exec (.call i) s = .next t ∧ Still i.th u t ∧ thrPc t i.th = branchTarget y (u.thr i.th).bundle ∧
      (t.thr i.th).land = fly (u.thr i.th).land (inFlight (u.thr i.th) 0 31 (tw tagINT (u.thr i.th).seqNext) 0 1 5 0 false)) ∧
  (∀ (s u : State) (i : Issue) (y : Syl), issuing s i = some (y, u) → y.unit = 5 → y.op = 8 → (u.thr i.th).todo = [] → (u.thr i.th).loopc = none → (u.thr i.th).halt = false →
    ∃ t, exec (.callr i) s = .next t ∧ Still i.th u t ∧ thrPc t i.th = ((u.thr i.th).gr y.s1).data.toNat % 65536 ∧
      (t.thr i.th).land = fly (u.thr i.th).land (inFlight (u.thr i.th) 0 31 (tw tagINT (u.thr i.th).seqNext) 0 1 5 0 false)) ∧
  (∀ (s u : State) (i : Issue) (y : Syl), issuing s i = some (y, u) → y.unit = 5 → y.op = 0x0A → ((u.thr i.th).gr y.s1).tag = tagINT → ((u.thr i.th).gr y.s1).data ≠ 0 →
    (u.thr i.th).seqNext < branchTarget y (u.thr i.th).bundle → (u.thr i.th).todo = [] → (u.thr i.th).halt = false → (u.thr i.th).next = (u.thr i.th).seqNext →
    ∃ t, exec (.loopOp i) s = .next t ∧ Still i.th u t ∧ thrPc t i.th = (u.thr i.th).seqNext ∧
      (((t.thr i.th).loopc.map fun l => (l.start, l.exit, l.count, l.again)) =
        some ((u.thr i.th).seqNext, branchTarget y (u.thr i.th).bundle, ((u.thr i.th).gr y.s1).data.toNat, false))) ∧
  (∀ (s u : State) (i : Issue) (y : Syl), issuing s i = some (y, u) → y.unit = 5 → y.op = 0x0B → y.low % 256 ≠ 0 → (u.thr i.th).keyWait = none → (u.thr i.th).bells &&& (y.low % 256) ≠ 0 →
    ∃ t, exec (.waitOp i) s = .next t ∧ Still i.th u t ∧ (t.thr i.th).bells = (u.thr i.th).bells &&& (255 - y.low % 256)) ∧
  (∀ (s u : State) (i : Issue) (y : Syl), issuing s i = some (y, u) → y.unit = 5 → y.op = 0x0B → y.low % 256 ≠ 0 → (u.thr i.th).keyWait = none → (u.thr i.th).bells &&& (y.low % 256) = 0 →
    (u.thr i.th).halt = false →
    ∃ t, exec (.waitOp i) s = .next t ∧ Still i.th u t ∧ thrState t i.th = 2 ∧ (t.thr i.th).waitMask = y.low % 256) ∧
  (∀ (s u : State) (i : Issue) (y : Syl), issuing s i = some (y, u) → y.unit = 5 → y.op = 0x0C →
    ∃ t, exec (.fence i) s = .next t ∧ Still i.th u t ∧ (t.thr i.th).land = (u.thr i.th).land ∧ sylCount y = 12) ∧
  (∀ (s u : State) (i : Issue) (y : Syl), issuing s i = some (y, u) → y.unit = 5 → y.op = 0x0D → (u.thr i.th).todo = [] → (u.thr i.th).halt = false →
    ∃ t, exec (.reti i) s = .next t ∧ thrPc t i.th = (u.thr i.th).epc % 65536 ∧ (t.thr i.th).flags = (u.thr i.th).estat / 65536 % 16 ∧
      (t.thr i.th).estat % 2 = 1 ∧ (t.thr i.th).g = (u.thr i.th).g)

/-- R160, R180, R192, R194: a bundle that may begin and meets no fault begins in its thread's cycle with its count of slots; one that holds a TRAP, or whose decoding fails, faults the thread
with its cause, the PC at the bundle, and nothing of the bundle in effect. -/
def Obligations.BundlesBeginOrFault : Prop :=
  (∀ (s : State) (i : Issue) (y : Syl) (l : List Syl) (after : Nat), (s.thr i.th).todo = [] → nextBundle (s.tick i.th i.dt) i.th = (.ok (y :: l), after) →
    mayBegin (s.tick i.th i.dt) i.th = true → bundleFault (s.tick i.th i.dt) i.th (y :: l) = 0 →
    (∃ u, issuing s i = some (y, u) ∧ (u.thr i.th).todo = l ∧ (u.thr i.th).issueAt = engCycle (s.tick i.th i.dt) (i.th / 16) ∧ (u.thr i.th).count = bundleCount (y :: l) ∧
      (u.thr i.th).bundle = thrPc (s.tick i.th i.dt) i.th ∧ (u.thr i.th).seqNext = after ∧ (u.eng (i.th / 16)).freeAt = engCycle (s.tick i.th i.dt) (i.th / 16) + 1 ∧
      (u.thr i.th).g = ((s.tick i.th i.dt).thr i.th).g)) ∧
  (∀ (s : State) (i : Issue) (l : List Syl) (after : Nat), (s.thr i.th).todo = [] → nextBundle (s.tick i.th i.dt) i.th = (.ok l, after) → mayBegin (s.tick i.th i.dt) i.th = true →
    l.any (fun y => y.unit == 5 && y.op == 0x0E) = true →
    ∃ t, exec (.trapOp i) s = .next t ∧ thrState t i.th = 4 ∧ t.rf (thrStatR i.th) 23 16 = bundleFault (s.tick i.th i.dt) i.th l % 256 ∧
      thrPc t i.th = thrPc (s.tick i.th i.dt) i.th ∧ (t.thr i.th).todo = [] ∧ (t.thr i.th).g = ((s.tick i.th i.dt).thr i.th).g) ∧
  (∀ (s : State) (i : Issue) (cause : Nat), (s.thr i.th).todo = [] → (nextBundle (s.tick i.th i.dt) i.th).1 = .fault cause → mayBegin (s.tick i.th i.dt) i.th = true →
    ∃ t, exec (.decodeFault i none) s = .next t ∧ thrState t i.th = 4 ∧ t.rf (thrStatR i.th) 23 16 = cause % 256 ∧
      thrPc t i.th = thrPc (s.tick i.th i.dt) i.th ∧ (t.thr i.th).g = ((s.tick i.th i.dt).thr i.th).g) ∧
  (∀ (s : State) (i : Issue) (a : Nat), (s.thr i.th).todo = [] → a = thrPc (s.tick i.th i.dt) i.th → a % 4 = 0 → fromAlcove ((s.tick i.th i.dt).thr i.th) a = false →
    mayBegin (s.tick i.th i.dt) i.th = true →
    ∃ t, exec (.decodeFault i (some a)) s = .next t ∧ thrState t i.th = 4 ∧ t.rf (thrStatR i.th) 23 16 = 7 ∧ thrPc t i.th = a ∧ (t.thr i.th).g = ((s.tick i.th i.dt).thr i.th).g)

/-- R56, R218, R242, R243, R260, R261, R264, R265, R301: REL gives the held envelope up to its gate, or ends a bench thread's node; a key homed in the thread's island is taken when free, waited for when
held, and released by its owner; RING sets out to its target; HCMD takes a helper tag, and SETRING gives the completion ring its base. That a bundle's syllables are successive commands is the model's choice (log entry 13). -/
def Obligations.CommandUnitOperationsIssue : Prop :=
  (∀ (s u : State) (i : Issue) (y : Syl), issuing s i = some (y, u) → y.unit = 4 → y.op = 1 → i.th / 16 < 192 → (heldItem u i.th).isSome = true →
    (∃ t, exec (.rel i) s = .next t ∧ heldItem t i.th = none ∧ (t.thr i.th).g = (u.thr i.th).g ∧
      (∀ (ix : Nat) (x : GateItem), (u.station (i.th / 64)).gate[ix]? = some x → x.thread = some i.th → eVoid x.env = false →
        (t.station (i.th / 64)).gate[ix]? = some { x with released := true, thread := none }) ∧
      (∀ (ix : Nat) (x : GateItem), (u.station (i.th / 64)).gate[ix]? = some x → x.thread ≠ some i.th → (t.station (i.th / 64)).gate[ix]? = some x))) ∧
  (∀ (s u : State) (i : Issue) (y : Syl) (d : DispHold), issuing s i = some (y, u) → y.unit = 4 → y.op = 1 → 192 ≤ i.th / 16 → i.th / 16 < 224 → (u.thr i.th).disp = some d →
    ∃ t, exec (.rel i) s = .next t ∧ (t.thr i.th).disp = none ∧ (t.thr i.th).g = (u.thr i.th).g ∧
      t.hatch (hatchNo 0x0D ((i.th / 16 - 192) / 4)) = (u.hatch (hatchNo 0x0D ((i.th / 16 - 192) / 4))).offer (hatchNo 0x0D ((i.th / 16 - 192) / 4))
        ⟨.nodeDone { graph := d.d.graph, node := d.d.node, thread := i.th, outmask := d.outmask, how := 0, pm := pmNow u, slots := ((u.thr i.th).slots + 2 ^ 32 - d.slots) % 2 ^ 32 }, 0, false⟩) ∧
  (∀ (s u : State) (i : Issue) (y : Syl) (k : Nat), issuing s i = some (y, u) → y.unit = 4 → y.op = 9 → k = ((u.thr i.th).gr y.s1).data.toNat → keyHome u k = engIsland (i.th / 16) →
    keyAllowed u i.th k = true → (u.key k).owner = none →
    ∃ t, exec (.ktry i) s = .next t ∧ (t.key k).owner = some i.th ∧ (t.key k).mark = false ∧ (∀ j, j ≠ k → t.key j = u.key j) ∧
      (t.thr i.th).land = fly (u.thr i.th).land (inFlight (u.thr i.th) 0 y.dst (tw tagINT (b2n (u.key k).mark * 256)) 0 6 4 0 false)) ∧
  (∀ (s u : State) (i : Issue) (y : Syl) (k o : Nat), issuing s i = some (y, u) → y.unit = 4 → y.op = 8 → k = ((u.thr i.th).gr y.s1).data.toNat → keyHome u k = engIsland (i.th / 16) →
    keyAllowed u i.th k = true → (u.key k).owner = some o → o ≠ i.th → (u.key k).waiters.length < 64 → (u.thr i.th).halt = false →
    ∃ t, exec (.kacq i) s = .next t ∧ (t.key k).owner = some o ∧ (t.key k).waiters = (u.key k).waiters ++ [(i.th, (u.thr i.th).keyNo + 1)] ∧ (∀ j, j ≠ k → t.key j = u.key j) ∧
      thrState t i.th = 2 ∧ (t.thr i.th).keyWait = some (k, y.dst) ∧ (t.thr i.th).land = (u.thr i.th).land) ∧
  (∀ (s u : State) (i : Issue) (y : Syl) (k : Nat), issuing s i = some (y, u) → y.unit = 4 → y.op = 0x0A → k = ((u.thr i.th).gr y.s1).data.toNat → keyHome u k = engIsland (i.th / 16) →
    keyAllowed u i.th k = true → (u.key k).owner = some i.th → (u.key k).waiters = [] →
    ∃ t, exec (.krel i) s = .next t ∧ (t.key k).owner = none ∧ (t.key k).mark = false ∧ (∀ j, j ≠ k → t.key j = u.key j) ∧
      (t.thr i.th).land = fly (u.thr i.th).land (inFlight (u.thr i.th) 0 y.dst (tw tagINT 1) 0 6 4 0 false)) ∧
  (∀ (s u : State) (i : Issue) (y : Syl) (k : Nat), issuing s i = some (y, u) → y.unit = 4 → y.op = 8 → k = ((u.thr i.th).gr y.s1).data.toNat → keyHome u k = engIsland (i.th / 16) →
    keyAllowed u i.th k = true → (u.key k).owner = none →
    ∃ t, exec (.kacq i) s = .next t ∧ (t.key k).owner = some i.th ∧ (t.key k).mark = false ∧ (∀ j, j ≠ k → t.key j = u.key j) ∧
      (t.thr i.th).land = fly (u.thr i.th).land (inFlight (u.thr i.th) 0 y.dst (tw tagINT (b2n (u.key k).mark * 256)) 0 6 4 0 false)) ∧
  (∀ (s u : State) (i : Issue) (y : Syl) (k o : Nat), issuing s i = some (y, u) → y.unit = 4 → y.op = 9 → k = ((u.thr i.th).gr y.s1).data.toNat → keyHome u k = engIsland (i.th / 16) →
    keyAllowed u i.th k = true → (u.key k).owner = some o → o ≠ i.th →
    ∃ t, exec (.ktry i) s = .next t ∧ t.keys = u.keys ∧ (t.thr i.th).land = fly (u.thr i.th).land (inFlight (u.thr i.th) 0 y.dst (tw tagINT 2) 0 6 4 0 false)) ∧
  (∀ (s u : State) (i : Issue) (y : Syl) (k w no : Nat) (r : List (Nat × Nat)), issuing s i = some (y, u) → y.unit = 4 → y.op = 0x0A → k = ((u.thr i.th).gr y.s1).data.toNat →
    keyHome u k = engIsland (i.th / 16) → keyAllowed u i.th k = true → (u.key k).owner = some i.th → (u.key k).waiters = (w, no) :: r →
    ∃ t, exec (.krel i) s = .next t ∧ (t.key k).owner = some w ∧ (t.key k).waiters = r ∧ (t.key k).mark = false ∧ (∀ j, j ≠ k → t.key j = u.key j) ∧
      (t.thr i.th).land = fly (u.thr i.th).land (inFlight (u.thr i.th) 0 y.dst (tw tagINT 1) 0 6 4 0 false)) ∧
  (∀ (s u : State) (i : Issue) (y : Syl) (k : Nat), issuing s i = some (y, u) → y.unit = 4 → y.op = 8 → k = ((u.thr i.th).gr y.s1).data.toNat → keyHome u k ≠ engIsland (i.th / 16) →
    i.th / 16 < 224 → (u.thr i.th).halt = false →
    ∃ t, exec (.kacq i) s = .next t ∧ thrState t i.th = 2 ∧ (t.thr i.th).keyWait = some (k, y.dst) ∧ t.keys.keys = u.keys.keys ∧
      t.hatch (hatchNo 0x16 (engIsland (i.th / 16))) = (u.hatch (hatchNo 0x16 (engIsland (i.th / 16)))).offer (hatchNo 0x16 (engIsland (i.th / 16)))
        ⟨.keyReq ⟨i.th, 0, k, (u.thr i.th).keyNo + 1⟩, 0, false⟩) ∧
  (∀ (s u : State) (i : Issue) (y : Syl) (g : Nat), issuing s i = some (y, u) → y.unit = 4 → y.op = 0x0C → ((u.thr i.th).gr y.s1).tag = tagINT →
    g = ((u.thr i.th).gr y.s1).data.toNat % 65536 → 2 ≤ y.mod % 8 → isThread g = true → thrTenancy u g = thrTenancy u i.th ∨ thrTenancy u i.th = 0 → thrState u g ≠ 0 →
    g / 16 = i.th / 16 →
    ∃ t, exec (.ring i) s = .next t ∧ t.keys.rings = u.keys.rings ++ [⟨g, y.mod % 8, engCycle u (i.th / 16) + 2⟩] ∧ (t.thr i.th).land = (u.thr i.th).land ∧ (t.thr i.th).g = (u.thr i.th).g) ∧
  (∀ (s u : State) (i : Issue) (y : Syl) (g : Nat), issuing s i = some (y, u) → y.unit = 4 → y.op = 0x0C → ((u.thr i.th).gr y.s1).tag = tagINT →
    g = ((u.thr i.th).gr y.s1).data.toNat % 65536 → 2 ≤ y.mod % 8 → isThread g = true → thrTenancy u g = thrTenancy u i.th ∨ thrTenancy u i.th = 0 → thrState u g ≠ 0 →
    engIsland (g / 16) ≠ engIsland (i.th / 16) → i.th / 16 < 224 →
    ∃ t, exec (.ring i) s = .next t ∧ t.keys = u.keys ∧ (t.thr i.th).land = (u.thr i.th).land ∧ (t.thr i.th).g = (u.thr i.th).g ∧
      t.hatch (hatchNo 0x16 (engIsland (i.th / 16))) = (u.hatch (hatchNo 0x16 (engIsland (i.th / 16)))).offer (hatchNo 0x16 (engIsland (i.th / 16)))
        ⟨.keyReq ⟨g, 4, y.mod % 8, 0⟩, 0, false⟩) ∧
  (∀ (s u : State) (i : Issue) (y : Syl), issuing s i = some (y, u) → y.unit = 4 → y.op = 0x0C → ((u.thr i.th).gr y.s1).tag = tagINT → y.mod % 8 < 2 →
    ∃ t, exec (.ring i) s = .next t ∧ (t.reg Reg.keyRingDenyCnt).toNat = satAdd 0xFFFFFFFF (u.reg Reg.keyRingDenyCnt).toNat 1 ∧ t.keys = u.keys ∧ (t.thr i.th).g = (u.thr i.th).g) ∧
  (∀ (s u : State) (i : Issue) (y : Syl), issuing s i = some (y, u) → y.unit = 4 → y.op = 2 → cwFunc ((u.thr i.th).gr y.s2).data.toNat ≠ 0 → 192 ≤ i.th / 16 →
    ∃ t, exec (.hcmd i) s = .next t ∧ (t.thr i.th).tags = (u.thr i.th).tags ++ [y.mod % 8] ∧
      (t.thr i.th).hq = (u.thr i.th).hq ++ [⟨i.th, y.mod % 8, ((u.thr i.th).gr y.s1).data.toNat, ((u.thr i.th).gr y.s2).data.toNat, thrIsT u i.th, (heldItem u i.th).map fun x => eTableEpoch x.env⟩] ∧
      (t.thr i.th).g = (u.thr i.th).g ∧ (t.thr i.th).land = (u.thr i.th).land) ∧
  (∀ (s u : State) (i : Issue) (y : Syl), issuing s i = some (y, u) → y.unit = 4 → y.op = 2 → cwFunc ((u.thr i.th).gr y.s2).data.toNat ≠ 0 → i.th / 16 < 192 →
    ∃ t, exec (.hcmd i) s = .next t ∧ (t.thr i.th).tags = (u.thr i.th).tags ++ [y.mod % 8] ∧
      t.hatch (hatchNo 9 (i.th / 64)) = (u.hatch (hatchNo 9 (i.th / 64))).offer (hatchNo 9 (i.th / 64))
        ⟨.helpCmd ⟨i.th, y.mod % 8, ((u.thr i.th).gr y.s1).data.toNat, ((u.thr i.th).gr y.s2).data.toNat, thrIsT u i.th, (heldItem u i.th).map fun x => eTableEpoch x.env⟩, i.th, thrIsT u i.th⟩) ∧
  (∀ (s u : State) (i : Issue) (y : Syl), issuing s i = some (y, u) → y.unit = 4 → y.op = 2 → cwFunc ((u.thr i.th).gr y.s2).data.toNat = 0 →
    ∃ t, exec (.setring i) s = .next t ∧ (t.thr i.th).ring = some ((u.thr i.th).gr y.s1).data.toNat ∧ (t.thr i.th).tags = (u.thr i.th).tags ∧ (t.thr i.th).g = (u.thr i.th).g)

/-- R171, R172, R173, R177, R178, R179, R183: interrupt entry saves the address and the flags, clears IE and goes to the handler; a timer that is due and SOFT_INT make their causes pending; HALT stops a
thread between bundles or lets its bundle end, RESUME makes a HALTED thread READY, RESET clears one and leaves it HALTED at START; enabling an OFF thread leaves it so too. -/
def Obligations.ThreadsAreControlled : Prop :=
  (∀ (s : State) (m dt : Nat), ((s.tick m dt).thr m).todo = [] → (s.tick m dt).dataPath = true → intPending ((s.tick m dt).thr m) = true → mayEnter (s.tick m dt) m = true →
    ((s.tick m dt).thr m).keyWait = none → isThread m = true →
    ∃ t, exec (.interruptEntry m dt) s = .next t ∧ (t.thr m).epc = (if thrState (s.tick m dt) m = 2 then ((s.tick m dt).thr m).waitPc else thrPc (s.tick m dt) m) ∧
      (t.thr m).estat = ((s.tick m dt).thr m).flags % 16 * 65536 ∧ thrPc t m = ((s.tick m dt).thr m).ivec % 65536 ∧ thrState t m = 1 ∧ (t.thr m).waitMask = 0 ∧
      (t.thr m).count = 3 ∧ (t.thr m).g = ((s.tick m dt).thr m).g) ∧
  (∀ (s : State) (m dt : Nat), (advance s dt).dataPath = true → isThread m = true → thrState s m ≠ 0 → timerDue (advance s dt) m = true →
    ∃ t, exec (.timerDue m dt) s = .next t ∧ (t.thr m).ipend = (s.thr m).ipend ||| 2 ∧ (t.thr m).timerAt = (advance s dt).now ∧ t.regs = s.regs) ∧
  (∀ (s : State) (m th : Nat) (v : Word), s.life.rails = true → isThread th = true → takes s m (thrCtlR th) v = true → thrCtlRefused th v s = false → bitOf v 3 = true → fld v 2 0 = 0 →
    ∃ t, exec (.softInt m th v) s = .next t ∧ (t.thr th).ipend = (s.thr th).ipend ||| 4 ∧ thrState t th = thrState s th) ∧
  (∀ (s : State) (m th : Nat) (v : Word), s.life.rails = true → isThread th = true → takes s m (thrCtlR th) v = true → thrCtlRefused th v s = false → bitOf v 0 = true → bitOf v 2 = false →
    (s.thr th).keyWait = none → thrState s th = 1 ∨ thrState s th = 2 →
    ∃ t, exec (.thrHalt m th v) s = .next t ∧ (if thrState s th = 1 ∧ (s.thr th).todo ≠ [] then thrState t th = 1 ∧ (t.thr th).halt = true else thrState t th = 3) ∧
      (t.thr th).g = (s.thr th).g) ∧
  (∀ (s : State) (m th : Nat) (v : Word), s.life.rails = true → isThread th = true → takes s m (thrCtlR th) v = true → thrCtlRefused th v s = false → bitOf v 1 = true → bitOf v 0 = false →
    bitOf v 2 = false → (s.thr th).voiding = false →
    ∃ t, exec (.thrResume m th v) s = .next t ∧ thrState t th = 1 ∧ (t.thr th).slots = 0 ∧ (t.thr th).g = (s.thr th).g) ∧
  (∀ (s : State) (m th : Nat) (v : Word), s.life.rails = true → isThread th = true → takes s m (thrCtlR th) v = true → thrCtlRefused th v s = true → bitOf v 1 = true → bitOf v 0 = false →
    bitOf v 2 = false → exec (.thrResume m th v) s = .next (s.reject (thrCtlR th))) ∧
  (∀ (s : State) (m th : Nat) (v : Word), s.life.rails = true → isThread th = true → takes s m (thrCtlR th) v = true → thrCtlRefused th v s = false → bitOf v 2 = true → thrState s th ≠ 0 →
    ∃ t, exec (.thrReset m th v) s = .next t ∧ thrState t th = 3 ∧ thrPc t th = s.rf (thrCfgR th) 15 0 ∧ (t.thr th).g = [] ∧ (t.thr th).flags = 0 ∧ (t.thr th).land = []) ∧
  (∀ (s : State) (m th : Nat) (v : Word), s.life.rails = true → isThread th = true → takes s m (thrCfgR th) v = true → thrCfgRefused th v s = false → bitOf v 31 = true → thrState s th = 0 →
    ∃ t, exec (.thrCfgWrite m th v) s = .next t ∧ thrState t th = 3 ∧ thrPc t th = fld v 15 0 ∧ (t.thr th).g = [] ∧ thrEn t th = true) ∧
  (∀ (s : State) (m th : Nat) (v : Word), s.life.rails = true → isThread th = true → takes s m (thrCfgR th) v = true → thrCfgRefused th v s = true →
    exec (.thrCfgWrite m th v) s = .next (s.reject (thrCfgR th)))

/-- R151, R184, R185, R186: SWAP of a shadow table that passes its checks schedules it, and of one that does not shows which check failed and changes nothing; the table becomes active when its cycle
comes; COPY copies the active table; a retired or failed engine is FAILED and PARKED and its threads FAULTED; a designated standby takes its fields, and takeover ends with ACTIVE. -/
def Obligations.EnginesSwapFailAndAreCovered : Prop :=
  (∀ (s : State) (m e : Nat) (v : Word), s.life.rails = true → e < engineCount → takes s m (engCtlR e) v = true → bitOf v 0 = true → bitOf v 1 = false → bitOf v 8 = false → swapErr s e = 0 →
    ∃ t, exec (.slotSwap m e v) s = .next t ∧ t.rf (engStatR e) 30 28 = 0 ∧ (t.eng e).swapAt = some ((engCycle s e + 4 + 15) / 16 * 16) ∧ (∀ i < 16, slotOf t e i = slotOf s e i)) ∧
  (∀ (s : State) (m e : Nat) (v : Word), s.life.rails = true → e < engineCount → takes s m (engCtlR e) v = true → bitOf v 0 = true → bitOf v 1 = false → bitOf v 8 = false → swapErr s e ≠ 0 →
    ∃ t, exec (.slotSwap m e v) s = .next t ∧ t.rf (engStatR e) 30 28 = swapErr s e ∧ t.rb (engStatR e) 31 = true ∧ (t.eng e).swapAt = (s.eng e).swapAt ∧
      (∀ i < 16, slotOf t e i = slotOf s e i)) ∧
  (∀ (s : State) (e dt c : Nat), s.life.rails = true → (s.eng e).swapAt = some c → c ≤ engCycle (advance s dt) e → e < engineCount →
    ∃ t, exec (.slotSwapApply e dt) s = .next t ∧ (t.eng e).swapAt = none ∧ (∀ i < 16, slotOf t e i = shadowOf s e i) ∧ (∀ i < 16, shadowOf t e i = shadowOf s e i)) ∧
  (∀ (s : State) (m e : Nat) (v : Word), s.life.rails = true → e < engineCount → takes s m (engCtlR e) v = true → bitOf v 1 = true → bitOf v 0 = false → bitOf v 8 = false →
    ∃ t, exec (.slotCopy m e v) s = .next t ∧ (∀ i < 16, shadowOf t e i = slotOf s e i) ∧ (∀ i < 16, slotOf t e i = slotOf s e i)) ∧
  (∀ (s : State) (m e : Nat) (v : Word), s.life.rails = true → e < engineCount → takes s m (engCtlR e) v = true → bitOf v 8 = true → engCtlBoth v s = false → engFailed s e = false →
    s.wshop.graphs = [] →
    ∃ t, exec (.engRetire m e v) s = .next t ∧ engFailed t e = true ∧ engParked t e = true ∧ (∀ n < 16, thrState s (e * 16 + n) ≠ 0 → thrState t (e * 16 + n) = 4)) ∧
  (∀ (s : State) (e dt : Nat), s.life.rails = true → e < engineCount → engFailed s e = false → s.wshop.graphs = [] →
    ∃ t, exec (.engineFail e dt 2) s = .next t ∧ engFailed t e = true ∧ engParked t e = true ∧ (∀ n < 16, thrState s (e * 16 + n) ≠ 0 → thrState t (e * 16 + n) = 4)) ∧
  (∀ (s : State) (m stn : Nat) (v : Word), s.life.rails = true → stn < 48 → takes s m (standbyR (stn * 4)) v = true → bitOf v 2 = true → s.rb (standbyR (stn * 4)) 7 = false →
    namedActive s (stn * 4 + fld v 1 0) = [] →
    ((otherEngines (stn * 4 + fld v 1 0)).any fun o => (timedOf s o).any fun t => thrState s ((stn * 4 + fld v 1 0) * 16 + t) != 0) = false →
    standbyTenancyOk s (stn * 4 + fld v 1 0) = true →
    ∃ t, exec (.standbyWrite m stn v) s = .next t ∧ t.rb (standbyR (stn * 4)) 2 = true ∧ t.rf (standbyR (stn * 4)) 1 0 = fld v 1 0 ∧ t.engines = s.engines) ∧
  (∀ (s : State) (m stn : Nat) (v : Word), s.life.rails = true → stn < 48 → takes s m (standbyR (stn * 4)) v = true → bitOf v 2 = true → s.rb (standbyR (stn * 4)) 7 = true →
    exec (.standbyWrite m stn v) s = .next (s.reject (standbyR (stn * 4)))) ∧
  (∀ (s : State) (stn dt e : Nat), s.life.rails = true → stn < 48 → (s.station stn).takeover = some e → e / 4 = stn → engFailed s (stn * 4 + s.rf (standbyR (stn * 4)) 1 0) = false →
    ∃ t, exec (.takeoverResume stn dt) s = .next t ∧ (t.station stn).takeover = none ∧ t.rb (standbyR (stn * 4)) 7 = true ∧ t.rf (standbyR (stn * 4)) 5 4 = e % 4 ∧
      t.rb (engStatR (stn * 4 + s.rf (standbyR (stn * 4)) 1 0)) 25 = true)

/-- R258, R260, R261, R263 to R267, R271, R272: a ring that is due wakes the thread that waits on its doorbell; a key request served at its home grants a free key; a status that lands is in the waiting
thread's register and the thread READY; the host tries and releases keys as its function, snaps a key's state, and a keyring with keys in use is not reconfigured. That requests and statuses on their way wait as commands is log entry 37. -/
def Obligations.KeysAndDoorbellsServe : Prop :=
  (∀ (s : State) (m b dt : Nat) (r : List Ring), s.life.rails = true → s.keys.rings = ⟨m, b, 0⟩ :: r → isThread m = true → b < 8 → thrState s m = 2 → (s.thr m).keyWait = none →
    (s.thr m).waitMask.testBit b = true →
    ∃ t, exec (.doorbellRingArrive m b dt) s = .next t ∧ t.keys.rings = r ∧ thrState t m = 1 ∧ (t.thr m).waitMask = 0 ∧ (t.thr m).readyAt = engCycle (advance s dt) (m / 16) + 2) ∧
  (∀ (s : State) (m b dt : Nat) (r : List Ring), s.life.rails = true → s.keys.rings = ⟨m, b, 0⟩ :: r → isThread m = true → thrState s m = 1 →
    ∃ t, exec (.doorbellRingArrive m b dt) s = .next t ∧ t.keys.rings = r ∧ (t.thr m).bells = (s.thr m).bells ||| 2 ^ b ∧ thrState t m = 1) ∧
  (∀ (s : State) (m k no : Nat) (r : List KeyReq), s.life.rails = true → s.keys.hallReqs = ⟨m, 1, k, no⟩ :: r → m / 16 / 4 = 56 → keyAllowed s m k = true → (s.key k).owner = none →
    ∃ t, exec (.keyRequestArrive 81) s = .next t ∧ t.keys.hallReqs = r ∧ (t.key k).owner = some m ∧ t.keys.granted = s.keys.granted ++ [⟨m, k, no, b2n (s.key k).mark * 256⟩] ∧
      (∀ j, j ≠ k → t.key j = s.key j)) ∧
  (∀ (s : State) (m k no st dst dt : Nat) (r : List KeyRsp), s.life.rails = true → s.keys.granted = ⟨m, k, no, st⟩ :: r → (s.thr m).keyWait = some (k, dst) → (s.thr m).keyNo = no →
    (s.thr m).keyMask = 0 → dst ≠ 0 → thrState s m = 2 → isThread m = true →
    ∃ t, exec (.keyStatusLand m dt) s = .next t ∧ t.keys.granted = r ∧ (t.thr m).gr dst = tw tagINT st ∧ (t.thr m).keyWait = none ∧ thrState t m = 1 ∧
      (∀ n, n ≠ dst → (t.thr m).gr n = (s.thr m).gr n)) ∧
  (∀ (s : State) (m ring : Nat) (v : Word), s.life.rails = true → ring < 64 → takes s m (Reg.keyRingCfg ring) v = true → fld v 7 0 < 48 ∨ (73 ≤ fld v 7 0 ∧ fld v 7 0 ≤ 81) →
    (s.keys.keys.any fun p => p.1 / 64 == ring) = false →
    ∃ t, exec (.keyRingCfgWrite m ring v) s = .next t ∧ t.regs = (s.takeFields (Reg.keyRingCfg ring) v).regs ∧ t.keys = s.keys) ∧
  (∀ (s : State) (m ring k : Nat) (v : Word), s.life.rails = true → ring < 64 → takes s m (Reg.keyRingCfg ring) v = true → (k, s.key k) ∈ s.keys.keys → k / 64 = ring →
    (s.key k).owner.isSome = true →
    exec (.keyRingCfgWrite m ring v) s = .next (s.reject (Reg.keyRingCfg ring))) ∧
  (∀ (s : State) (m : Nat) (v : Word), s.life.rails = true → takes s m Reg.keySel v = true → bitOf v 31 = true → (s.key (fld v 11 0)).waiters.length ≤ 64 →
    (s.key (fld v 11 0)).owner.getD 0xFFFF < 65536 →
    ∃ t, exec (.keySnap m v) s = .next t ∧ t.rb Reg.keySel 30 = true ∧ t.keys = s.keys ∧ t.rb Reg.keyState 30 = (s.key (fld v 11 0)).owner.isSome ∧
      t.rf Reg.keyState 15 0 = (s.key (fld v 11 0)).owner.getD 0xFFFF) ∧
  (∀ (s : State) (m : Nat) (v : Word), s.life.rails = true → takes s m Reg.keyHostOp v = true → bitOf v 31 = true → fld v 17 16 = 0 → s.rb Reg.keyHostRes 31 = false →
    keyAllowed s (0x0F00 + funcOf m) (fld v 11 0) = true → (s.key (fld v 11 0)).owner = none →
    ∃ t, exec (.tryKey m v) s = .next t ∧ (t.key (fld v 11 0)).owner = some (0x0F00 + funcOf m) ∧ t.rb Reg.keyHostRes 30 = true ∧
      t.rf Reg.keyHostRes 15 0 = b2n (s.key (fld v 11 0)).mark * 256) ∧
  (∀ (s : State) (m : Nat) (v : Word), s.life.rails = true → takes s m Reg.keyHostOp v = true → bitOf v 31 = true → fld v 17 16 = 1 → s.rb Reg.keyHostRes 31 = false →
    keyAllowed s (0x0F00 + funcOf m) (fld v 11 0) = true → (s.key (fld v 11 0)).owner = some (0x0F00 + funcOf m) → (s.key (fld v 11 0)).waiters = [] →
    ∃ t, exec (.releaseKey m v) s = .next t ∧ (t.key (fld v 11 0)).owner = none ∧ t.rb Reg.keyHostRes 30 = true ∧ t.rf Reg.keyHostRes 15 0 = 1) ∧
  (∀ (s : State) (m : Nat) (v : Word), s.life.rails = true → takes s m Reg.keyRingHost v = true → bitOf v 31 = true → 2 ≤ fld v 18 16 → isThread (fld v 15 0) = true →
    engIsland (fld v 15 0 / 16) = 81 → fld v 15 0 / 16 ≠ 224 →
    ∃ t, exec (.keyRingHost m v) s = .next t ∧ t.keys.rings = s.keys.rings ++ [⟨fld v 15 0, fld v 18 16, cycleOf s 81 + 4⟩] ∧ t.engines = s.engines)

/-- R200, R226 to R231: sums and products wrap with OV, saturating ones clamp; a rule broken gives POISON with TF; division truncates toward 0 and by 0 gives the limit with DZ; SQRT is the largest
root; TSUB undoes TADD within 2 s; an accumulation is undone by its opposite; shifts of 32 and more empty a word. -/
def Obligations.ArithmeticFollowsTheRules : Prop :=
  (∀ a b : Word, aluAdd ⟨tagINT, a⟩ ⟨tagINT, b⟩ = ⟨⟨tagINT, a + b⟩, if -2 ^ 31 ≤ a.toInt + b.toInt ∧ a.toInt + b.toInt < 2 ^ 31 then 0 else flagOV⟩) ∧
  (∀ a b : Word, aluSub ⟨tagADDR, a⟩ ⟨tagADDR, b⟩ = ⟨⟨tagINT, a - b⟩, if -2 ^ 31 ≤ a.toInt - b.toInt ∧ a.toInt - b.toInt < 2 ^ 31 then 0 else flagOV⟩) ∧
  (∀ a b : Word, (aluAdds ⟨tagINT, a⟩ ⟨tagINT, b⟩).val.data.toInt = max (-2 ^ 31) (min (2 ^ 31 - 1) (a.toInt + b.toInt))) ∧
  (∀ a b : Word, (aluFsub ⟨tagFRAC, a⟩ ⟨tagFRAC, b⟩).val.data.toInt = max (-2 ^ 31) (min (2 ^ 31 - 1) (a.toInt - b.toInt))) ∧
  (∀ a b : TWord, a.poison = true → aluAdd a b = violation ∧ aluSub a b = violation ∧ aluMul a b = violation ∧ aluAnd a b = violation ∧ aluFadd a b = violation ∧ aluCeq a b = violation) ∧
  (∀ a b : Word, b ≠ 0 → (aluDiv ⟨tagINT, a⟩ ⟨tagINT, b⟩).1.val.data * b + (aluDiv ⟨tagINT, a⟩ ⟨tagINT, b⟩).2.val.data = a ∧
    (aluDiv ⟨tagINT, a⟩ ⟨tagINT, b⟩).2.val.data.toInt.natAbs < b.toInt.natAbs) ∧
  (∀ a : Word, aluDiv ⟨tagINT, a⟩ ⟨tagINT, 0⟩ = (⟨⟨tagINT, if 0 ≤ a.toInt then 0x7FFFFFFF else 0x80000000⟩, flagDZ⟩, ⟨⟨tagINT, a⟩, 0⟩)) ∧
  (∀ a : Word, 0 ≤ a.toInt → (aluSqrt ⟨tagFRAC, a⟩).val.data.toNat ^ 2 ≤ a.toNat * 2 ^ 31 ∧ a.toNat * 2 ^ 31 < ((aluSqrt ⟨tagFRAC, a⟩).val.data.toNat + 1) ^ 2) ∧
  (∀ a d : Word, a.toNat % 2 ^ 30 < 1000000000 → -2000000000 ≤ d.toInt → d.toInt < 2000000000 →
    aluTsub (aluTadd ⟨tagTIME, a⟩ ⟨tagINT, d⟩).val ⟨tagTIME, a⟩ = ⟨⟨tagINT, d⟩, 0⟩) ∧
  (∀ (x : AccV) (a b : Word), (accMsu (accMac x ⟨tagINT, a⟩ ⟨tagINT, b⟩).val ⟨tagINT, a⟩ ⟨tagINT, b⟩).val = x) ∧
  (∀ a b : Word, 32 ≤ b.toNat % 64 → aluShl ⟨tagINT, a⟩ ⟨tagINT, b⟩ = ⟨⟨tagINT, 0⟩, 0⟩ ∧ aluSar ⟨tagINT, a⟩ ⟨tagINT, b⟩ = ⟨⟨tagINT, if a.toInt < 0 then 0xFFFFFFFF else 0⟩, 0⟩) ∧
  (∀ a : Word, a ≠ 0 → (aluClz ⟨tagINT, a⟩).val.data.toNat < 32 ∧ 2 ^ (31 - (aluClz ⟨tagINT, a⟩).val.data.toNat) ≤ a.toNat ∧
    a.toNat < 2 ^ (32 - (aluClz ⟨tagINT, a⟩).val.data.toNat))

/-- R246, R247, R252: each function of the cipher and hash units reads its operands from shared memory or from the held frame and runs with the result its algorithm gives, to be written when it completes; a check that fails ends with AUTH_FAIL and writes nothing. That operands are read at the start is the model's reading (log entry 36). -/
def Obligations.CipherAndHashHelpersStart : Prop :=
  (∀ (s : State) (h dt : Nat) (p : HelpCmd × Nat) (src iv key : List Byte), starts s h dt 2 p = true → fetchIn (begunAt s h dt p) (blockAt s h dt p) (blockAt s h dt p).srck ((blockAt s h dt p).word 0) (blockAt s h dt p).len = ⟨src, [], false⟩ → fetchIn (begunAt s h dt p) (blockAt s h dt p) false ((blockAt s h dt p).word 2) 12 = ⟨iv, [], false⟩ → slotKey (begunAt s h dt p) (blockAt s h dt p) [1, 2] = ⟨key, [], false⟩ → roomIn (begunAt s h dt p) (blockAt s h dt p) ((blockAt s h dt p).word 1) (blockAt s h dt p).len = [] → roomIn (begunAt s h dt p) (blockAt s h dt p) ((blockAt s h dt p).word 2 + 16) 16 = [] →
    ∃ t, exec (.gcmEnc h dt) s = .next t ∧ running t h 2 = some (p.1, p.2, 0, 0, 0, [((blockAt s h dt p).word 1, (gcmEnc key iv [] src).1, false), ((blockAt s h dt p).word 2 + 16, (gcmEnc key iv [] src).2, false)]) ∧ t.shared = (begunAt s h dt p).shared ∧ t.frames = s.frames) ∧
  (∀ (s : State) (h dt : Nat) (p : HelpCmd × Nat) (src iv key tag : List Byte), starts s h dt 3 p = true → fetchIn (begunAt s h dt p) (blockAt s h dt p) (blockAt s h dt p).srck ((blockAt s h dt p).word 0) (blockAt s h dt p).len = ⟨src, [], false⟩ → fetchIn (begunAt s h dt p) (blockAt s h dt p) (blockAt s h dt p).srck ((blockAt s h dt p).word 2) 12 = ⟨iv, [], false⟩ → fetchIn (begunAt s h dt p) (blockAt s h dt p) (blockAt s h dt p).srck ((blockAt s h dt p).word 2 + 16) 16 = ⟨tag, [], false⟩ → slotKey (begunAt s h dt p) (blockAt s h dt p) [1, 2] = ⟨key, [], false⟩ → roomIn (begunAt s h dt p) (blockAt s h dt p) ((blockAt s h dt p).word 1) (blockAt s h dt p).len = [] → (gcmDec key iv [] src).2 = tag →
    ∃ t, exec (.gcmDec h dt) s = .next t ∧ running t h 3 = some (p.1, p.2, 0, 0, 0, [((blockAt s h dt p).word 1, (gcmDec key iv [] src).1, false)]) ∧ t.shared = (begunAt s h dt p).shared ∧ t.frames = s.frames) ∧
  (∀ (s : State) (h dt : Nat) (p : HelpCmd × Nat) (src iv key tag : List Byte), starts s h dt 3 p = true → fetchIn (begunAt s h dt p) (blockAt s h dt p) (blockAt s h dt p).srck ((blockAt s h dt p).word 0) (blockAt s h dt p).len = ⟨src, [], false⟩ → fetchIn (begunAt s h dt p) (blockAt s h dt p) (blockAt s h dt p).srck ((blockAt s h dt p).word 2) 12 = ⟨iv, [], false⟩ → fetchIn (begunAt s h dt p) (blockAt s h dt p) (blockAt s h dt p).srck ((blockAt s h dt p).word 2 + 16) 16 = ⟨tag, [], false⟩ → slotKey (begunAt s h dt p) (blockAt s h dt p) [1, 2] = ⟨key, [], false⟩ → roomIn (begunAt s h dt p) (blockAt s h dt p) ((blockAt s h dt p).word 1) (blockAt s h dt p).len = [] → (gcmDec key iv [] src).2 ≠ tag →
    ∃ t, exec (.gcmDec h dt) s = .next t ∧ running t h 3 = some (p.1, p.2, 1, 0, 0, []) ∧ t.shared = (begunAt s h dt p).shared) ∧
  (∀ (s : State) (h dt : Nat) (p : HelpCmd × Nat) (src iv key : List Byte), starts s h dt 4 p = true → fetchIn (begunAt s h dt p) (blockAt s h dt p) (blockAt s h dt p).srck ((blockAt s h dt p).word 0) (blockAt s h dt p).len = ⟨src, [], false⟩ → fetchIn (begunAt s h dt p) (blockAt s h dt p) false ((blockAt s h dt p).word 2) 12 = ⟨iv, [], false⟩ → slotKey (begunAt s h dt p) (blockAt s h dt p) [1, 2] = ⟨key, [], false⟩ → (blockAt s h dt p).tlen = 16 → roomIn (begunAt s h dt p) (blockAt s h dt p) ((blockAt s h dt p).word 1) 16 = [] →
    ∃ t, exec (.gmac h dt) s = .next t ∧ running t h 4 = some (p.1, p.2, 0, 0, 0, [((blockAt s h dt p).word 1, (gcmTag (aesExpand key) iv src []).take 16, false)]) ∧ t.shared = (begunAt s h dt p).shared ∧ t.frames = s.frames) ∧
  (∀ (s : State) (h dt : Nat) (p : HelpCmd × Nat) (src iv key : List Byte), starts s h dt 5 p = true → fetchIn (begunAt s h dt p) (blockAt s h dt p) (blockAt s h dt p).srck ((blockAt s h dt p).word 0) (blockAt s h dt p).len = ⟨src, [], false⟩ → fetchIn (begunAt s h dt p) (blockAt s h dt p) (blockAt s h dt p).srck ((blockAt s h dt p).word 2) 12 = ⟨iv, [], false⟩ → fetchIn (begunAt s h dt p) (blockAt s h dt p) (blockAt s h dt p).srck ((blockAt s h dt p).word 2 + 16) 16 = ⟨((gcmTag (aesExpand key) iv src []).take 16), [], false⟩ → slotKey (begunAt s h dt p) (blockAt s h dt p) [1, 2] = ⟨key, [], false⟩ → (blockAt s h dt p).tlen = 16 →
    ∃ t, exec (.gmacChk h dt) s = .next t ∧ running t h 5 = some (p.1, p.2, 0, 0, 0, []) ∧ t.shared = (begunAt s h dt p).shared ∧ t.frames = s.frames) ∧
  (∀ (s : State) (h dt : Nat) (p : HelpCmd × Nat) (src key : List Byte), starts s h dt 8 p = true → fetchIn (begunAt s h dt p) (blockAt s h dt p) (blockAt s h dt p).srck ((blockAt s h dt p).word 0) (blockAt s h dt p).len = ⟨src, [], false⟩ → slotKey (begunAt s h dt p) (blockAt s h dt p) [3] = ⟨key, [], false⟩ → 16 ≤ (blockAt s h dt p).tlen → (blockAt s h dt p).tlen ≤ 32 → roomIn (begunAt s h dt p) (blockAt s h dt p) ((blockAt s h dt p).word 1) (blockAt s h dt p).tlen = [] →
    ∃ t, exec (.hmac h dt) s = .next t ∧ running t h 8 = some (p.1, p.2, 0, 0, 0, [((blockAt s h dt p).word 1, (hmacSha256 key src).take (blockAt s h dt p).tlen, false)]) ∧ t.shared = (begunAt s h dt p).shared ∧ t.frames = s.frames) ∧
  (∀ (s : State) (h dt : Nat) (p : HelpCmd × Nat) (src key : List Byte), starts s h dt 9 p = true → fetchIn (begunAt s h dt p) (blockAt s h dt p) (blockAt s h dt p).srck ((blockAt s h dt p).word 0) (blockAt s h dt p).len = ⟨src, [], false⟩ → slotKey (begunAt s h dt p) (blockAt s h dt p) [3] = ⟨key, [], false⟩ → 16 ≤ (blockAt s h dt p).tlen → (blockAt s h dt p).tlen ≤ 32 → fetchIn (begunAt s h dt p) (blockAt s h dt p) (blockAt s h dt p).srck ((blockAt s h dt p).word 2) (blockAt s h dt p).tlen = ⟨((hmacSha256 key src).take (blockAt s h dt p).tlen), [], false⟩ →
    ∃ t, exec (.hmacChk h dt) s = .next t ∧ running t h 9 = some (p.1, p.2, 0, 0, 0, []) ∧ t.shared = (begunAt s h dt p).shared ∧ t.frames = s.frames) ∧
  (∀ (s : State) (h dt : Nat) (p : HelpCmd × Nat) (src : List Byte), starts s h dt 0x0A p = true → fetchIn (begunAt s h dt p) (blockAt s h dt p) (blockAt s h dt p).srck ((blockAt s h dt p).word 0) (blockAt s h dt p).len = ⟨src, [], false⟩ → roomIn (begunAt s h dt p) (blockAt s h dt p) ((blockAt s h dt p).word 1) 32 = [] →
    ∃ t, exec (.sha256 h dt) s = .next t ∧ running t h 0x0A = some (p.1, p.2, 0, 0, 0, [((blockAt s h dt p).word 1, sha256 src, false)]) ∧ t.shared = (begunAt s h dt p).shared ∧ t.frames = s.frames)

/-- R246, R247, R248, R249, R250: each function of the checksum and move unit and of the directory unit takes its operands and runs: a sum in its first result word, the bytes of a frame, one DRAM request for each line touched, a frame to send, a directory query, or an entry for the insertion unit of its slice. That operands are read at the start is the model's reading (log entry 36). -/
def Obligations.ChecksumMoveAndDirectoryHelpersStart : Prop :=
  (∀ (s : State) (h dt : Nat) (p : HelpCmd × Nat) (src : List Byte), starts s h dt 0x0C p = true → fetchIn (begunAt s h dt p) (blockAt s h dt p) (blockAt s h dt p).srck ((blockAt s h dt p).word 0) (blockAt s h dt p).len = ⟨src, [], false⟩ →
    ∃ t, exec (.crc32 h dt) s = .next t ∧ running t h 0x0C = some (p.1, p.2, 0, crc32 ((blockAt s h dt p).word 2) src % 2 ^ 32, 0, []) ∧ t.shared = (begunAt s h dt p).shared ∧ t.frames = s.frames) ∧
  (∀ (s : State) (h dt : Nat) (p : HelpCmd × Nat) (src : List Byte), starts s h dt 0x0D p = true → fetchIn (begunAt s h dt p) (blockAt s h dt p) (blockAt s h dt p).srck ((blockAt s h dt p).word 0) (blockAt s h dt p).len = ⟨src, [], false⟩ →
    ∃ t, exec (.crc32c h dt) s = .next t ∧ running t h 0x0D = some (p.1, p.2, 0, crc32c ((blockAt s h dt p).word 2) src % 2 ^ 32, 0, []) ∧ t.shared = (begunAt s h dt p).shared ∧ t.frames = s.frames) ∧
  (∀ (s : State) (h dt : Nat) (p : HelpCmd × Nat) (src : List Byte), starts s h dt 0x0E p = true → fetchIn (begunAt s h dt p) (blockAt s h dt p) (blockAt s h dt p).srck ((blockAt s h dt p).word 0) (blockAt s h dt p).len = ⟨src, [], false⟩ →
    ∃ t, exec (.csum16 h dt) s = .next t ∧ running t h 0x0E = some (p.1, p.2, 0, csum16 ((blockAt s h dt p).word 2 % 65536) src % 2 ^ 32, 0, []) ∧ t.shared = (begunAt s h dt p).shared ∧ t.frames = s.frames) ∧
  (∀ (s : State) (h dt : Nat) (p : HelpCmd × Nat) (src : List Byte), starts s h dt 0x12 p = true → fetchIn (begunAt s h dt p) (blockAt s h dt p) true ((blockAt s h dt p).word 0) (blockAt s h dt p).len = ⟨src, [], false⟩ → roomIn (begunAt s h dt p) (blockAt s h dt p) ((blockAt s h dt p).word 1) (blockAt s h dt p).len = [] →
    ∃ t, exec (.cellRd h dt) s = .next t ∧ running t h 0x12 = some (p.1, p.2, 0, 0, 0, [((blockAt s h dt p).word 1, src, false)]) ∧ t.shared = (begunAt s h dt p).shared ∧ t.frames = s.frames) ∧
  (∀ (s : State) (h dt : Nat) (p : HelpCmd × Nat) (src : List Byte), starts s h dt 0x10 p = true → fetchIn (begunAt s h dt p) (blockAt s h dt p) (blockAt s h dt p).srck ((blockAt s h dt p).word 0) (blockAt s h dt p).len = ⟨src, [], false⟩ → dramBad (begunAt s h dt p) (blockAt s h dt p) = [] →
    ∃ t, exec (.toDram h dt) s = .next t ∧ (running t h 0x10).map (fun r => (r.1, r.2.1, r.2.2.1)) = some (p.1, p.2, 0) ∧
      t.help.nextRef = s.help.nextRef + (splitLines ((blockAt s h dt p).len + 1) (regionBase (begunAt s h dt p) (thrTenancy (begunAt s h dt p) p.1.thread) + dramOffset (blockAt s h dt p)) src).length ∧ t.shared = (begunAt s h dt p).shared) ∧
  (∀ (s : State) (h dt : Nat) (p : HelpCmd × Nat), starts s h dt 0x11 p = true → dramBad (begunAt s h dt p) (blockAt s h dt p) = [] → roomIn (begunAt s h dt p) (blockAt s h dt p) ((blockAt s h dt p).word 1) (blockAt s h dt p).len = [] →
    ∃ t, exec (.fromDram h dt) s = .next t ∧ (running t h 0x11).map (fun r => (r.1, r.2.1, r.2.2.1)) = some (p.1, p.2, 0) ∧
      t.help.nextRef = s.help.nextRef + (splitLines ((blockAt s h dt p).len + 1) (regionBase (begunAt s h dt p) (thrTenancy (begunAt s h dt p) p.1.thread) + dramOffset (blockAt s h dt p)) (List.replicate (blockAt s h dt p).len 0)).length ∧ t.shared = (begunAt s h dt p).shared) ∧
  (∀ (s : State) (h dt : Nat) (p : HelpCmd × Nat) (src d : List Byte), starts s h dt 0x13 p = true → h = 24 → fetchIn (begunAt s h dt p) (blockAt s h dt p) false ((blockAt s h dt p).word 0) (blockAt s h dt p).len = ⟨src, [], false⟩ → fetchIn (begunAt s h dt p) (blockAt s h dt p) false ((blockAt s h dt p).word 2) 16 = ⟨d, [], false⟩ → 60 ≤ (blockAt s h dt p).len → (blockAt s h dt p).len ≤ 9212 → leNat (d.drop 12) = 0 → (shmWord (begunAt s h dt p) (blockAt s h dt p).isl (((blockAt s h dt p).word 2 + 12) / 4 * 4)).tag = tagINT →
    ∃ t, exec (.helperSend h dt) s = .next t ∧ running t h 0x13 = some (p.1, p.2, 0, 0, 0, [((blockAt s h dt p).word 2, d ++ src, false)]) ∧ t.shared = (begunAt s h dt p).shared ∧ t.frames = s.frames) ∧
  (∀ (s : State) (h dt : Nat) (p : HelpCmd × Nat) (k : List Byte) (o : Bool), starts s h dt 0x18 p = true → h < 16 → fetchIn (begunAt s h dt p) (blockAt s h dt p) false ((blockAt s h dt p).word 0) 24 = ⟨k, [], false⟩ → [1, 2, 4, 5, 6, 7].contains ((blockAt s h dt p).word 3 % 16) = true → queryOld (begunAt s h dt p) p.1 = some o →
    ((blockAt s h dt p).word 3 % 16 = 6 → p.1.timed = false ∧ (begunAt s h dt p).dramReady = true ∧ (cacheLook (begunAt s h dt p) h ((wordsOf k).getD 2 0 * 2 ^ 64 + (wordsOf k).getD 1 0 * 2 ^ 32 + (wordsOf k).getD 0 0) o).2 = []) →
    ∃ t, exec (.dirLookup h dt) s = .next t ∧ running t h 0x18 = some (p.1, p.2, 0, (dirQuery (begunAt s h dt p) h ((blockAt s h dt p).word 3 % 16) (wordsOf k) o).1, (dirQuery (begunAt s h dt p) h ((blockAt s h dt p).word 3 % 16) (wordsOf k) o).2, []) ∧ t.shared = (begunAt s h dt p).shared ∧ t.frames = s.frames) ∧
  (∀ (s : State) (h dt : Nat) (p : HelpCmd × Nat) (k : List Byte), starts s h dt 0x19 p = true → h < 16 → fetchIn (begunAt s h dt p) (blockAt s h dt p) false ((blockAt s h dt p).word 0) 8 = ⟨k, [], false⟩ →
    ∃ t, exec (.dirLearn h dt) s = .next t ∧ running t h 0x19 = some (p.1, p.2, 0, 0, 0, []) ∧ (t.slice h).hostQ = (s.slice h).hostQ ++ [⟨1, (wordsOf k).getD 1 0 * 2 ^ 32 + (wordsOf k).getD 0 0, (blockAt s h dt p).word 3 % 512, s.help.nextRef⟩])

/-- R246, R247, R255: a slice helper takes the express head of the station its rotation has come to when the named unit has a place; any taken command waits in its unit with its arrival number; a NOP completes as it is taken; a command whose bytes have arrived resumes. -/
def Obligations.HelpersTakeCommands : Prop :=
  (∀ (s : State) (h dt : Nat) (c : HelpCmd) (f : Nat) (xp : Bool) (r : List HEntry), (advance s dt).life.rails = true → h < 16 → ((advance s dt).helper h).rotate < 3 → (∀ i < 3, ((advance s dt).hatch (hatchNo 9 (h * 3 + i))).taken = []) →
    ((advance s dt).hatch (hatchNo 9 (h * 3 + ((advance s dt).helper h).rotate))).xFifo = ⟨.helpCmd c, f, xp⟩ :: r → c.timed = true → cwFunc c.word ≠ 1 → ((advance s dt).hunit h (helpUnitOf (cwFunc c.word))).waitT = none →
    ∃ t, exec (.helpCmdTake h dt) s = .next t ∧ (t.hunit h (helpUnitOf (cwFunc c.word))).waitT = some (c, ((advance s dt).helper h).arrivals) ∧
      (t.hatch (hatchNo 9 (h * 3 + ((advance s dt).helper h).rotate))).xFifo = r ∧ (t.helper h).rotate = (((advance s dt).helper h).rotate + 1) % 3 ∧ t.shared = (advance s dt).shared ∧ t.engines = (advance s dt).engines) ∧
  (∀ (s s1 : State) (h dt : Nat) (c : HelpCmd), (advance s dt).life.rails = true → h < 25 → takeCmd (advance s dt) h (hasPlace (advance s dt) h) = some (s1, some c) →
    ∃ t, exec (.helpCmdTake h dt) s = .next t ∧ (if c.timed then (t.hunit h (helpUnitOf (cwFunc c.word))).waitT else (t.hunit h (helpUnitOf (cwFunc c.word))).waitS) = some (c, (s1.helper h).arrivals) ∧
      t.hatches = s1.hatches ∧ t.engines = s1.engines ∧ t.shared = s1.shared) ∧
  (∀ (s s1 : State) (h dt b : Nat) (c : HelpCmd), (advance s dt).life.rails = true → h < 25 → takeCmd (advance s dt) h (fun k => cwFunc k.word == 1 && mayStart (advance s dt) k && doneRoom (advance s dt) k) = some (s1, some c) →
    ((advance s dt).thr c.thread).voiding = false → cwSrck c.word = false → (s1.thr c.thread).voiding = false → (s1.thr c.thread).ring = some b → 0x100000 ≤ b → b % 4 = 0 →
    ∃ t, exec (.helperNop h dt) s = .next t ∧ shmWord t (engIsland (c.thread / 16)) (b + c.tag * 16) = tw tagBITS (2 ^ 31 + cwFunc c.word * 2 ^ 10 + c.tag) ∧
      (t.thr c.thread).tags = (s1.thr c.thread).tags.filter (· != c.tag) ∧ t.frames = s1.frames) ∧
  (∀ (s : State) (h u dt : Nat) (p : HelpCmd × Nat), (advance s dt).life.rails = true → h < 25 → u < 4 → resumable (advance s dt) h u true = some p → unitTakes (advance s dt) h u true = true →
    ∃ t, exec (.helperCtResume h u dt) s = .next t ∧ ((t.hunit h u).run.map fun j => (j.cmd, j.arr)) = some p ∧ t.frames = s.frames) ∧
  (∀ (s : State) (h u dt : Nat) (p : HelpCmd × Nat), (advance s dt).life.rails = true → h < 25 → u < 4 → resumable (advance s dt) h u true = none → resumable (advance s dt) h u false = some p →
    unitTakes (advance s dt) h u false = true →
    ∃ t, exec (.helperCtResume h u dt) s = .next t ∧ ((t.hunit h u).run.map fun j => (j.cmd, j.arr)) = some p ∧ t.frames = s.frames) ∧
  (∀ (s s1 : State) (h dt : Nat) (c : HelpCmd), (advance s dt).life.rails = true → h < 25 → takeCmd (advance s dt) h (fun k => cwFunc k.word == 1 && mayStart (advance s dt) k && doneRoom (advance s dt) k) = some (s1, some c) →
    ∃ t, exec (.helperNop h dt) s = .next t ∧ (t.thr c.thread).tags = (s1.thr c.thread).tags.filter (· != c.tag) ∧ t.frames = s1.frames)

/-- R251, R252, R253: a completion writes its results and then the record at ring base + 16 × tag and frees the tag; a late error writes its record and sets IPEND bit 0, and only OVF in a record still VALID. When results appear is the model's reading (log entry 36). -/
def Obligations.HelpersCompleteCommands : Prop :=
  (∀ (s : State) (h u dt : Nat) (j : HelpJob) (b : Nat), (advance s dt).life.rails = true → h < 25 → u < 4 → ((advance s dt).hunit h u).run = some j → jobReady (advance s dt) h j = true → doneRoom (advance s dt) j.cmd = true →
    ((advance s dt).thr j.cmd.thread).voiding = false → j.refs = 0 → j.learn = 0 → j.status ≠ 0 → ((advance s dt).thr j.cmd.thread).ring = some b → 0x100000 ≤ b → b % 4 = 0 →
    ∃ t, exec (.helperComplete h u dt) s = .next t ∧ shmWord t (engIsland (j.cmd.thread / 16)) (b + j.cmd.tag * 16) = tw tagBITS (2 ^ 31 + j.status * 2 ^ 16 + cwFunc j.cmd.word * 2 ^ 10 + j.cmd.tag) ∧
      shmWord t (engIsland (j.cmd.thread / 16)) (b + j.cmd.tag * 16 + 12) = tw tagTIME (pmNow (advance s dt)) ∧ (t.thr j.cmd.thread).tags = ((advance s dt).thr j.cmd.thread).tags.filter (· != j.cmd.tag) ∧ t.frames = s.frames) ∧
  (∀ (s : State) (h u dt : Nat) (j : HelpJob), (advance s dt).life.rails = true → h < 25 → u < 4 → ((advance s dt).hunit h u).run = some j → jobReady (advance s dt) h j = true → doneRoom (advance s dt) j.cmd = true →
    ((advance s dt).thr j.cmd.thread).voiding = false → j.refs = 0 → j.learn = 0 → j.status = 0 → cwFunc j.cmd.word ≠ 0x13 → ((advance s dt).thr j.cmd.thread).ring = none →
    ∃ t, exec (.helperComplete h u dt) s = .next t ∧ t.shared = (j.writes.foldl (fun t p => writeShm t (engIsland (j.cmd.thread / 16)) p.1 p.2.1 p.2.2) (advance s dt)).shared ∧ t.frames = s.frames) ∧
  (∀ (s : State) (h u dt : Nat) (j : HelpJob) (b : Nat), (advance s dt).life.rails = true → h < 25 → u < 4 → ((advance s dt).hunit h u).run = some j → jobReady (advance s dt) h j = true → doneRoom (advance s dt) j.cmd = true → ((advance s dt).thr j.cmd.thread).voiding = false → j.refs = 0 → j.learn = 0 → j.status = 0 → cwFunc j.cmd.word ≠ 0x13 →
    ((advance s dt).thr j.cmd.thread).ring = some b → 0x100000 ≤ b → b % 4 = 0 →
    ∃ t, exec (.helperComplete h u dt) s = .next t ∧ shmWord t (engIsland (j.cmd.thread / 16)) (b + j.cmd.tag * 16) = tw tagBITS (2 ^ 31 + cwFunc j.cmd.word * 2 ^ 10 + j.cmd.tag) ∧ shmWord t (engIsland (j.cmd.thread / 16)) (b + j.cmd.tag * 16 + 4) = tw tagINT j.res0 ∧
      shmWord t (engIsland (j.cmd.thread / 16)) (b + j.cmd.tag * 16 + 8) = tw tagINT j.res1 ∧ (t.thr j.cmd.thread).tags = ((advance s dt).thr j.cmd.thread).tags.filter (· != j.cmd.tag)) ∧
  (∀ (s : State) (h u dt : Nat) (j : HelpJob) (b : Nat), (advance s dt).life.rails = true → h < 25 → u < 4 → ((advance s dt).hunit h u).run = some j → jobReady (advance s dt) h j = true → doneRoom (advance s dt) j.cmd = true → ((advance s dt).thr j.cmd.thread).voiding = false → j.refs = 0 → j.learn = 0 → j.status = 0 → cwFunc j.cmd.word = 0x13 →
    ((advance s dt).thr j.cmd.thread).ring = some b → 0x100000 ≤ b → b % 4 = 0 →
    ∃ t, exec (.helperComplete h u dt) s = .next t ∧ shmWord t (engIsland (j.cmd.thread / 16)) (b + j.cmd.tag * 16) = tw tagBITS (2 ^ 31 + cwFunc j.cmd.word * 2 ^ 10 + j.cmd.tag) ∧ (t.thr j.cmd.thread).tags = ((advance s dt).thr j.cmd.thread).tags.filter (· != j.cmd.tag)) ∧
  (∀ (s : State) (h u dt : Nat) (j : HelpJob) (b : Nat), (advance s dt).life.rails = true → h < 25 → u < 4 → ((advance s dt).hunit h u).run = some j → jobReady (advance s dt) h j = true → doneRoom (advance s dt) j.cmd = true → ((advance s dt).thr j.cmd.thread).voiding = false → 0 < j.refs →
    ((advance s dt).thr j.cmd.thread).ring = some b → 0x100000 ≤ b → b % 4 = 0 →
    ∃ t, exec (.helperComplete h u dt) s = .next t ∧ shmWord t (engIsland (j.cmd.thread / 16)) (b + j.cmd.tag * 16) = tw tagBITS (2 ^ 31 + (moveResult j (answersOf (advance s dt) h j)).2 * 2 ^ 16 + cwFunc j.cmd.word * 2 ^ 10 + j.cmd.tag) ∧ (t.thr j.cmd.thread).tags = ((advance s dt).thr j.cmd.thread).tags.filter (· != j.cmd.tag)) ∧
  (∀ (s : State) (h u dt : Nat) (j : HelpJob), (advance s dt).life.rails = true → h < 25 → u < 4 → ((advance s dt).hunit h u).run = some j → jobReady (advance s dt) h j = true → doneRoom (advance s dt) j.cmd = true →
    ∃ t, exec (.helperComplete h u dt) s = .next t ∧ (t.thr j.cmd.thread).tags = ((advance s dt).thr j.cmd.thread).tags.filter (· != j.cmd.tag) ∧
      (t.thr j.cmd.thread).begun = ((advance s dt).thr j.cmd.thread).begun.filter (· != j.cmd.tag)) ∧
  (∀ (s : State) (dt m tag addr : Nat) (r : List (Nat × Nat × Nat)), (advance s dt).life.rails = true → (advance s dt).dram.late = (m, tag, addr) :: r →
    ∃ t, exec (.helperLateError dt) s = .next t ∧ t.dram.late = r ∧ (t.thr m).ipend = ((advance s dt).thr m).ipend ||| 1 ∧ t.frames = s.frames) ∧
  (∀ (s : State) (dt m tag addr : Nat) (r : List (Nat × Nat × Nat)) (b : Nat), (advance s dt).life.rails = true → (advance s dt).dram.late = (m, tag, addr) :: r → ((advance s dt).thr m).ring = some b → 0x100000 ≤ b → b % 4 = 0 →
    bitOf (shmWord (advance s dt) (engIsland (m / 16)) (b + 0x80)).data 31 = false →
    ∃ t, exec (.helperLateError dt) s = .next t ∧ t.dram.late = r ∧ (t.thr m).ipend = ((advance s dt).thr m).ipend ||| 1 ∧
      shmWord t (engIsland (m / 16)) (b + 0x80) = tw tagBITS (2 ^ 31 + 7 * 2 ^ 16 + 0x10 * 2 ^ 10 + tag) ∧ t.frames = s.frames) ∧
  (∀ (s : State) (dt m tag addr : Nat) (r : List (Nat × Nat × Nat)) (b : Nat), (advance s dt).life.rails = true → (advance s dt).dram.late = (m, tag, addr) :: r → ((advance s dt).thr m).ring = some b → 0x100000 ≤ b → b % 4 = 0 →
    bitOf (shmWord (advance s dt) (engIsland (m / 16)) (b + 0x80)).data 31 = true →
    ∃ t, exec (.helperLateError dt) s = .next t ∧ t.dram.late = r ∧ (t.thr m).ipend = ((advance s dt).thr m).ipend ||| 1 ∧
      (shmWord t (engIsland (m / 16)) (b + 0x80)).data = (shmWord (advance s dt) (engIsland (m / 16)) (b + 0x80)).data ||| 0x40000000)

/-- R276, R279, R281, R291, R292, R293: the tap unit sends the oldest pending slot, its W0 then INT 0, and counts one it cannot decode; TAP-IN puts a good token on its edge and counts a bad one; an ALIGN releases
the next set that is complete or whose hold has expired. -/
def Obligations.TapsFeedGraphs : Prop :=
  (∀ (s : State) (stn dt : Nat) (p : TapPend) (r : List TapPend), s.life.rails = true → stn < 48 → (((advance s dt).drainIsland stn).shm stn).taps = p :: r →
    (((advance s dt).drainIsland stn).eng (p.thread / 16)).stores = [] → fld (shmWord ((advance s dt).drainIsland stn) stn (tapBase p.thread + p.slot * 64)).data 31 28 ≠ 6 →
    0 < (s.hatch (hatchNo 0x0B stn)).credits (hatchNo 0x0B stn) → (s.hatch (hatchNo 0x0B stn)).held = [] →
    ∃ t, exec (.tapSend stn dt) s = .next t ∧ (t.shm stn).taps = r ∧ shmWord t stn (tapBase p.thread + p.slot * 64) = TWord.zero ∧
      t.hatch (hatchNo 0x0B stn) = (s.hatch (hatchNo 0x0B stn)).push false { pay := .token ((List.range 16).map fun k =>
        ⟨tagINT, (shmWord ((advance s dt).drainIsland stn) stn (tapBase p.thread + p.slot * 64 + 4 * k)).data⟩), flow := p.thread, xpr := false } ∧ t.engines = ((advance s dt).drainIsland stn).engines) ∧
  (∀ (s : State) (stn dt : Nat) (p : TapPend) (r : List TapPend), s.life.rails = true → stn < 48 → (((advance s dt).drainIsland stn).shm stn).taps = p :: r →
    (((advance s dt).drainIsland stn).eng (p.thread / 16)).stores = [] → fld (shmWord ((advance s dt).drainIsland stn) stn (tapBase p.thread + p.slot * 64)).data 31 28 = 6 → p.held = none →
    ∃ t, exec (.tapSend stn dt) s = .next t ∧ (t.shm stn).taps = r ∧ shmWord t stn (tapBase p.thread + p.slot * 64) = TWord.zero ∧ t.hatches = s.hatches) ∧
  (∀ (s : State) (stn dt : Nat) (p : TapPend) (r : List TapPend), s.life.rails = true → stn < 48 → (((advance s dt).drainIsland stn).shm stn).taps = p :: r →
    (((advance s dt).drainIsland stn).eng (p.thread / 16)).stores.any (fun x => x.addr / 64 == (tapBase p.thread + p.slot * 64) / 64) = false →
    fld (shmWord ((advance s dt).drainIsland stn) stn (tapBase p.thread + p.slot * 64)).data 31 28 ≠ 6 → 0 < (s.hatch (hatchNo 0x0B stn)).credits (hatchNo 0x0B stn) →
    (s.hatch (hatchNo 0x0B stn)).held = [] →
    ∃ t, exec (.tapSend stn dt) s = .next t ∧ (t.shm stn).taps = r ∧ shmWord t stn (tapBase p.thread + p.slot * 64) = TWord.zero) ∧
  (∀ (s : State) (stn dt : Nat) (p : TapPend) (r : List TapPend) (w : List Word), s.life.rails = true → stn < 48 → (((advance s dt).drainIsland stn).shm stn).taps = p :: r →
    (((advance s dt).drainIsland stn).eng (p.thread / 16)).stores.any (fun x => x.addr / 64 == (tapBase p.thread + p.slot * 64) / 64) = false →
    fld (shmWord ((advance s dt).drainIsland stn) stn (tapBase p.thread + p.slot * 64)).data 31 28 = 6 →
    svDecode ((advance s dt).drainIsland stn) (shmWord ((advance s dt).drainIsland stn) stn (tapBase p.thread + p.slot * 64)).data
      (shmWord ((advance s dt).drainIsland stn) stn (tapBase p.thread + p.slot * 64 + 4)).data p.held = some w →
    0 < (s.hatch (hatchNo 0x0B stn)).credits (hatchNo 0x0B stn) → (s.hatch (hatchNo 0x0B stn)).held = [] →
    ∃ t, exec (.tapSend stn dt) s = .next t ∧ (t.shm stn).taps = r ∧ shmWord t stn (tapBase p.thread + p.slot * 64) = TWord.zero ∧
      t.hatch (hatchNo 0x0B stn) = (s.hatch (hatchNo 0x0B stn)).push false { pay := .token (w.map fun d => ⟨tagINT, d⟩), flow := p.thread, xpr := false }) ∧
  (∀ (s : State) (dt st m : Nat) (x : List TWord) (xp : Bool) (e : GEdge), s.life.rails = true → st < 48 → s.wshop.tapNext = st → (s.hatch (hatchNo 0x0B st)).front = some ⟨.token x, m, xp⟩ →
    tapJudge (advance s dt) st m (x.map (·.data)) = 3 → e = gEdge s (tGraph (x.map (·.data))) (edgeOut s (tGraph (x.map (·.data))) (tNode (x.map (·.data))) 0) → e.base ≠ 0 →
    ∃ t, exec (.tapinAccept dt) s = .next t ∧ t.hatch (hatchNo 0x0B st) = (s.hatch (hatchNo 0x0B st)).consume ∧ t.wshop.tapNext = (st + 1) % 48 ∧
      (gEdge t (tGraph (x.map (·.data))) (edgeOut s (tGraph (x.map (·.data))) (tNode (x.map (·.data))) 0)).count = e.count + 1) ∧
  (∀ (s : State) (dt st m : Nat) (x : List TWord) (xp : Bool) (e : GEdge), s.life.rails = true → st < 48 → s.wshop.tapNext = st → (s.hatch (hatchNo 0x0B st)).front = some ⟨.token x, m, xp⟩ →
    tapJudge (advance s dt) st m (x.map (·.data)) = 3 → e = gEdge s (tGraph (x.map (·.data))) (edgeOut s (tGraph (x.map (·.data))) (tNode (x.map (·.data))) 0) → e.base = 0 →
    badKind (tKind (x.map (·.data))) = false → tSmp (x.map (·.data)) < alignWrap (gNode s (tGraph (x.map (·.data))) e.dst) → (gNode s (tGraph (x.map (·.data))) e.dst).last = none →
    e.toks.any (fun o => tSmp o == tSmp (x.map (·.data))) = false →
    ∃ t, exec (.tapinAccept dt) s = .next t ∧ (gEdge t (tGraph (x.map (·.data))) (edgeOut s (tGraph (x.map (·.data))) (tNode (x.map (·.data))) 0)).toks = e.toks ++ [x.map (·.data)]) ∧
  (∀ (s : State) (dt st m : Nat) (x : List TWord) (xp : Bool), s.life.rails = true → st < 48 → s.wshop.tapNext = st → (s.hatch (hatchNo 0x0B st)).front = some ⟨.token x, m, xp⟩ →
    tapJudge (advance s dt) st m (x.map (·.data)) = 1 → (s.reg Reg.wshopTapBadCnt).toNat < 0xFFFFFFFE →
    ∃ t, exec (.tapinAccept dt) s = .next t ∧ t.hatch (hatchNo 0x0B st) = (s.hatch (hatchNo 0x0B st)).consume ∧ (t.reg Reg.wshopTapBadCnt).toNat = (s.reg Reg.wshopTapBadCnt).toNat + 1 ∧
      t.wshop.graphs = s.wshop.graphs ∧ t.dram = s.dram) ∧
  (∀ (s : State) (dt st m : Nat) (x : List TWord) (xp : Bool), s.life.rails = true → st < 48 → s.wshop.tapNext = st → (s.hatch (hatchNo 0x0B st)).front = some ⟨.token x, m, xp⟩ →
    tapJudge (advance s dt) st m (x.map (·.data)) = 2 → (s.reg Reg.wshopTapDropCnt).toNat < 0xFFFFFFFE →
    ∃ t, exec (.tapinAccept dt) s = .next t ∧ t.hatch (hatchNo 0x0B st) = (s.hatch (hatchNo 0x0B st)).consume ∧ (t.reg Reg.wshopTapDropCnt).toNat = (s.reg Reg.wshopTapDropCnt).toNat + 1 ∧
      t.wshop.graphs = s.wshop.graphs ∧ t.dram = s.dram) ∧
  (∀ (s : State) (g n smp dt : Nat) (a : AlignSet), s.life.rails = true → gState s g = 2 → (gNode s g n).kind = 2 → (gNode s g n).sets = [a] → a.smp = smp → a.expired = false →
    a.since + alignHold (gNode s g n) ≤ s.up + dt →
    ∃ t, exec (.alignHoldExpiry g n smp dt) s = .next t ∧ (gNode t g n).sets = [{ a with expired := true }] ∧ t.wshop.ready = s.wshop.ready) ∧
  (∀ (s : State) (g n smp dt : Nat) (a : AlignSet), s.life.rails = true → gState s g = 2 → (gNode s g n).kind = 2 → a ∈ (gNode s g n).sets → a.smp = smp → a.expired = false →
    a.since + alignHold (gNode s g n) ≤ s.up + dt →
    ∃ t, exec (.alignHoldExpiry g n smp dt) s = .next t ∧ (gNode t g n).sets = (gNode s g n).sets.map (fun e => if e.smp = smp then { e with expired := true } else e)) ∧
  (∀ (s : State) (g n dt : Nat) (a : AlignSet), s.life.rails = true → gState s g = 2 → (gNode s g n).kind = 2 → alignNext s g n = some a →
    ((List.range (gNode s g n).nout).all fun i => (gEdge s g (edgeOut s g n i)).room && edgeReach s g (edgeOut s g n i)) = true →
    ∃ t, exec (.alignRelease g n dt) s = .next t ∧ (gNode t g n).last = some a.smp ∧ (gNode t g n).sets = (gNode s g n).sets.filter fun o => o.smp != a.smp)

/-- R294, R296, R299, R301, R302, R304, R306, R308: a ready node is dispatched to a thread that waits for work, a pinned one to its placement or the graph fails; a node ends when its completion comes or its
limit has passed; WINDOW puts a token in its ring and writes a DATA token when it fires; EMIT sends the message it makes and counts a token it cannot use. -/
def Obligations.NodesRunAndEnd : Prop :=
  (∀ (s : State) (bench dt g n m : Nat) (r : List (Nat × Nat)), s.life.rails = true → bench < 8 → hardThrottle s = false → dispatchRoom s bench = true → benchReady s bench = (g, n) :: r →
    placeFor (advance s dt) g n = some m → benchAfford (advance s dt) bench false = [] → pinnedDue (advance s dt) = false → n < (s.graph g).nodes.length →
    ∃ t, exec (.nodeDispatch bench dt) s = .next t ∧ (gNode t g n).run = some ⟨m, s.up + dt + nodeLimit (gNode s g n)⟩ ∧ (gNode t g n).count = ((gNode s g n).count + 1) % 2 ^ 32 ∧
      t.wshop.ready = s.wshop.ready.filter (· != (g, n)) ∧ (m = 0xFFFF ∨ ((t.thr m).disp.map fun d => (d.d.graph, d.d.node)) = some (g, n))) ∧
  (∀ (s : State) (bench dt g n m : Nat), s.life.rails = true → bench < 8 → hardThrottle s = false → dispatchRoom s bench = true → pinnedDue (advance s dt) = false →
    (benchAfford (advance s dt) bench true).find? (fun p => (placeFor (advance s dt) p.1 p.2).isSome) = some (g, n) → placeFor (advance s dt) g n = some m → n < (s.graph g).nodes.length →
    ∃ t, exec (.nodeDispatch bench dt) s = .next t ∧ (gNode t g n).run = some ⟨m, s.up + dt + nodeLimit (gNode s g n)⟩ ∧ (g, n) ∉ t.wshop.ready ∧
      (m = 0xFFFF ∨ ((t.thr m).disp.map fun d => (d.d.graph, d.d.node)) = some (g, n))) ∧
  (∀ (s : State) (dt g n : Nat), s.life.rails = true → gPinned s g = true → gState s g = 2 → dispatchRoom s (gBench s g) = true → pinnedNext (advance s dt) g = some n →
    (gNode s g n).kind ≠ 0 → 
    ∃ t, exec (.pinnedDispatch g dt) s = .next t ∧ (gNode t g n).run = some ⟨0xFFFF, s.up + dt + nodeLimit (gNode s g n)⟩ ∧ gState t g = 2) ∧
  (∀ (s : State) (dt g n : Nat), s.life.rails = true → gPinned s g = true → gState s g = 2 → dispatchRoom s (gBench s g) = true → pinnedNext (advance s dt) g = some n →
    (gNode s g n).kind = 0 → waitsWork s (placement s g n) = true →
    ∃ t, exec (.pinnedDispatch g dt) s = .next t ∧ (gNode t g n).run = some ⟨placement s g n, s.up + dt + nodeLimit (gNode s g n)⟩ ∧
      ((t.thr (placement s g n)).disp.map fun d => (d.d.graph, d.d.node)) = some (g, n)) ∧
  (∀ (s : State) (dt g n : Nat), s.life.rails = true → gPinned s g = true → dispatchRoom s (gBench s g) = true → pinnedNext (advance s dt) g = some n → gState s g = 2 →
    (gNode s g n).kind = 0 → waitsWork s (placement s g n) = false → g < 64 →
    ∃ t, exec (.pinnedDispatch g dt) s = .next t ∧ gState t g = 4 ∧ (gNode t g n).run = none) ∧
  (∀ (s : State) (bench dt m mask how pm slots ph g n : Nat) (xp : Bool) (l : NodeRun), s.life.rails = true → bench < 8 →
    (s.hatch (hatchNo 0x0D bench)).front = some ⟨.nodeDone ⟨g, n, m, mask, how, pm, slots⟩, ph, xp⟩ → (gNode s g n).run = some l → l.thread = m →
    ∃ t, exec (.nodeDone bench dt) s = .next t ∧ (gNode t g n).run = none ∧ t.hatch (hatchNo 0x0D bench) = (s.hatch (hatchNo 0x0D bench)).consume) ∧
  (∀ (s : State) (dt g n : Nat) (l : NodeRun) (d : DispHold), s.life.rails = true → (gNode s g n).run = some l → l.thread ≠ 0xFFFF → (s.thr l.thread).disp = some d → d.d.graph = g → d.d.node = n →
    l.limitAt < s.up + dt →
    ∃ t, exec (.nodeTimeout g n dt) s = .next t ∧ (gNode t g n).run = none ∧ (t.thr l.thread).disp = none) ∧
  (∀ (s : State) (dt g n : Nat) (l : NodeRun), s.life.rails = true → (gNode s g n).run = some l → l.thread = 0xFFFF → l.limitAt < s.up + dt →
    ∃ t, exec (.nodeTimeout g n dt) s = .next t ∧ (gNode t g n).run = none) ∧
  (∀ (s : State) (dt g n : Nat) (l : NodeRun), s.life.rails = true → (gNode s g n).kind = 3 → (gNode s g n).run = some l → l.thread = 0xFFFF → 0x100000 ≤ (gNode s g n).ring →
    (gNode s g n).have_ + 1 < bits (gNode s g n).arg 21 11 →
    ∃ t, exec (.windowNode g n dt) s = .next t ∧ (gNode t g n).run = none ∧ (gNode t g n).have_ = (gNode s g n).have_ + 1 ∧
      getToken t (gIsland s g) ((gNode s g n).ring + (gNode s g n).slot * 64) = getToken s (gIsland s g) (gEdge s g (edgeIn s g n 0)).oldest) ∧
  (∀ (s : State) (dt g n : Nat) (l : NodeRun), s.life.rails = true → (gNode s g n).kind = 3 → (gNode s g n).run = some l → l.thread = 0xFFFF → 0x100000 ≤ (gEdge s g (edgeOut s g n 0)).free →
    (gNode s g n).have_ + 1 = bits (gNode s g n).arg 21 11 →
    ∃ t, exec (.windowNode g n dt) s = .next t ∧ (gNode t g n).run = none ∧ (gNode t g n).have_ = bits (gNode s g n).arg 21 11 ∧
      (shmWord t (gIsland s g) (gEdge s g (edgeOut s g n 0)).free).data = BitVec.ofNat 32 (3 * 2 ^ 28 + g * 2 ^ 22 + n * 2 ^ 12 + 4 * 2 ^ 8)) ∧
  (∀ (s : State) (dt g n : Nat) (l : NodeRun), s.life.rails = true → (gNode s g n).kind = 3 → (gNode s g n).run = some l → l.thread = 0xFFFF →
    ∃ t, exec (.windowNode g n dt) s = .next t ∧ (gNode t g n).run = none ∧ (gNode t g n).have_ = min (bits (gNode s g n).arg 21 11) ((gNode s g n).have_ + 1) ∧
      (gNode t g n).slot = ((gNode s g n).slot + 1) % (bits (gNode s g n).arg 21 11 + (gNode s g n).arg % 2048 * (gEdge s g (edgeOut s g n 0)).depth)) ∧
  (∀ (s : State) (dt g n : Nat) (l : NodeRun) (x : List Word) (p : List Nat) (o : List Byte), s.life.rails = true → (gNode s g n).kind = 4 → (gNode s g n).run = some l → l.thread = 0xFFFF →
    x = getToken s (gIsland s g) (gEdge s g (edgeIn s g n 0)).oldest → tKind x = 3 ∨ tKind x = 4 → s.clear (hatchNo 0x0E (gBench s g)) = true → p = wordsOf (shmBytes s (gIsland s g) ((s.graph g).paramDest + (gNode s g n).param) 32) →
    emitMessage (advance s dt) g n x p (shmBytes s (gIsland s g) (p.getD 1 0) (p.getD 0 0 / 65536)) = some o →
    ∃ t, exec (.emitNode g n dt) s = .next t ∧ (gNode t g n).run = none ∧ t.shared = (writeShm s (gIsland s g) (p.getD 1 0) o false).shared ∧
      t.frames = (((writeShm (advance s dt) (gIsland s g) (p.getD 1 0) o false).passed (hatchNo 0x0E (gBench s g)) (cellsOf (o.length + 4))).originate
        { src := 2, no := gBench s g, ten := gTen s g, colour := 0, cls := bits (gNode s g n).arg 31 19 % 8, ph := bits (gNode s g n).arg 31 19, mc := false, group := 0, ptp := false, ect := false,
          s0 := BitVec.ofNat 32 (p.getD 7 0), s1 := 0, sealNo := s.epoch.sealEpoch, pm := (advance s dt).now } (o ++ fcsOf o)).frames) ∧
  (∀ (s : State) (dt g n : Nat) (l : NodeRun), s.life.rails = true → (gNode s g n).kind = 4 → (gNode s g n).run = some l → l.thread = 0xFFFF → (s.graph g).account < 32 →
    tKind (getToken s (gIsland s g) (gEdge s g (edgeIn s g n 0)).oldest) = 1 → (s.reg Reg.wshopEmitDropCnt).toNat < 0xFFFFFFFE →
    ∃ t, exec (.emitNode g n dt) s = .next t ∧ (gNode t g n).run = none ∧ (t.reg Reg.wshopEmitDropCnt).toNat = (s.reg Reg.wshopEmitDropCnt).toNat + 1 ∧ t.frames = s.frames ∧ t.shared = s.shared) ∧
  (∀ (s : State) (dt g n : Nat) (l : NodeRun) (x : List Word) (p : List Nat), s.life.rails = true → (gNode s g n).kind = 4 → (gNode s g n).run = some l → l.thread = 0xFFFF →
    x = getToken s (gIsland s g) (gEdge s g (edgeIn s g n 0)).oldest → badKind (tKind x) = false → p = wordsOf (shmBytes s (gIsland s g) ((s.graph g).paramDest + (gNode s g n).param) 32) →
    emitMessage (advance s dt) g n x p (shmBytes s (gIsland s g) (p.getD 1 0) (p.getD 0 0 / 65536)) = none →
    ∃ t, exec (.emitNode g n dt) s = .next t ∧ (gNode t g n).run = none ∧ (t.reg Reg.wshopEmitDropCnt).toNat = satAdd 0xFFFFFFFF (s.reg Reg.wshopEmitDropCnt).toNat 1 ∧ t.frames = s.frames ∧
      t.shared = s.shared)

/-- R286, R287, R288, R289, R290: LOAD reads an image into an EMPTY slot, and installs it LOADED or ends with the first check it fails; START makes a LOADED graph RUNNING unless a placement or a TAP hatch forbids
it; STOP makes it STOPPING, and LOADED again when no node runs; UNLOAD empties it; from any other state a command ends with STATE. That LOAD is one step is log entry 39. -/
def Obligations.GraphCommandsFollowTheirStates : Prop :=
  (∀ (s : State) (m : Nat) (v : Word), s.life.rails = true → takes s m Reg.graphCmd v = true → graphCmdRefused v s = false → bitOf v 31 = true → fld v 18 16 = 1 → gState s (fld v 5 0) = 0 →
    ∃ t, exec (.graphLoad m v) s = .next t ∧ t.wshop.load.map (fun j => (j.graph, j.ten, j.ofs)) = some (fld v 5 0, fld v 11 8, (s.reg Reg.graphSrcLo).toNat + 2 ^ 32 * s.rf Reg.graphSrcHi 7 0) ∧
      t.wshop.load.map (·.refs) = some (loadLines s (fld v 11 8) ((s.reg Reg.graphSrcLo).toNat + 2 ^ 32 * s.rf Reg.graphSrcHi 7 0)).length ∧ t.rb Reg.wshopCmdStat 31 = true ∧
      t.wshop.graphs = s.wshop.graphs) ∧
  (∀ (s : State) (m : Nat) (v : Word), s.life.rails = true → takes s m Reg.graphCmd v = true → graphCmdRefused v s = false → bitOf v 31 = true → fld v 18 16 = 1 → gState s (fld v 5 0) ≠ 0 →
    ∃ t, exec (.graphLoad m v) s = .next t ∧ t.wshop = s.wshop ∧ t.rf Reg.wshopCmdStat 23 16 = 7 ∧ t.rf Reg.wshopCmdStat 31 30 = 1) ∧
  (∀ (s : State) (dt : Nat) (j : LoadJob), s.life.rails = true → s.wshop.load = some j → j.graph < 64 → loadWaits (advance s dt) j = false →
    loadError (advance s dt) (readImage (advance s dt) j (loadAnswers (advance s dt) j)) j.graph j.ten j.ofs
      (decide ((loadAnswers (advance s dt) j).length < j.refs) || (loadAnswers (advance s dt) j).any fun p => p.2.1 != 0) = 0 →
    ∃ t, exec (.loadComplete dt) s = .next t ∧ t.wshop.load = none ∧ gState t j.graph = 1 ∧ t.rf Reg.wshopCmdStat 23 16 = 0 ∧ t.rf Reg.wshopCmdStat 31 30 = 1 ∧
      (t.graph j.graph).edges = (layEdges (imageNodes (readImage (advance s dt) j (loadAnswers (advance s dt) j)) (regionBase s j.ten + j.ofs))
        (dramWord (readImage (advance s dt) j (loadAnswers (advance s dt) j)) (regionBase s j.ten + j.ofs + 24)) (imageEdges (readImage (advance s dt) j (loadAnswers (advance s dt) j)) (regionBase s j.ten + j.ofs))).1) ∧
  (∀ (s : State) (dt : Nat) (j : LoadJob), s.life.rails = true → s.wshop.load = some j → j.graph < 64 → loadWaits (advance s dt) j = false →
    loadError (advance s dt) (readImage (advance s dt) j (loadAnswers (advance s dt) j)) j.graph j.ten j.ofs
      (decide ((loadAnswers (advance s dt) j).length < j.refs) || (loadAnswers (advance s dt) j).any fun p => p.2.1 != 0) ≠ 0 →
    ∃ t, exec (.loadComplete dt) s = .next t ∧ t.wshop.load = none ∧ t.wshop.graphs = s.wshop.graphs ∧ gState t j.graph = gState s j.graph ∧ t.shared = s.shared ∧
      t.rf Reg.wshopCmdStat 23 16 = loadError (advance s dt) (readImage (advance s dt) j (loadAnswers (advance s dt) j)) j.graph j.ten j.ofs
      (decide ((loadAnswers (advance s dt) j).length < j.refs) || (loadAnswers (advance s dt) j).any fun p => p.2.1 != 0) ∧ t.rf Reg.wshopCmdStat 31 30 = 1) ∧
  (∀ (s : State) (m : Nat) (v : Word), s.life.rails = true → takes s m Reg.graphCmd v = true → graphCmdRefused v s = false → bitOf v 31 = true → fld v 18 16 = 2 → gState s (fld v 5 0) = 1 →
    (s.wshop.graphs.all fun p => decide (p.1 < 64)) = true → noThread s (fld v 5 0) = false → tapConflict s (fld v 5 0) = false →
    ∃ t, exec (.graphStart m v) s = .next t ∧ gState t (fld v 5 0) = 2 ∧ t.rf Reg.wshopCmdStat 23 16 = 0 ∧ ((t.graph (fld v 5 0)).nodes.all fun x => x.run.isNone) = true ∧
      ((t.graph (fld v 5 0)).edges.all fun e => e.count == 0 && e.toks.isEmpty) = true) ∧
  (∀ (s : State) (m : Nat) (v : Word), s.life.rails = true → takes s m Reg.graphCmd v = true → graphCmdRefused v s = false → bitOf v 31 = true → fld v 18 16 = 2 → gState s (fld v 5 0) = 1 →
    noThread s (fld v 5 0) = true →
    ∃ t, exec (.graphStart m v) s = .next t ∧ gState t (fld v 5 0) = 1 ∧ t.rf Reg.wshopCmdStat 23 16 = 5 ∧ t.wshop = s.wshop) ∧
  (∀ (s : State) (m : Nat) (v : Word), s.life.rails = true → takes s m Reg.graphCmd v = true → graphCmdRefused v s = false → bitOf v 31 = true → fld v 18 16 = 3 →
    gState s (fld v 5 0) = 2 ∨ gState s (fld v 5 0) = 4 →
    ∃ t, exec (.graphStop m v) s = .next t ∧ gState t (fld v 5 0) = 3 ∧ t.rf Reg.wshopCmdStat 23 16 = 0 ∧ t.wshop.ready = s.wshop.ready.filter fun p => p.1 != fld v 5 0) ∧
  (∀ (s : State) (g dt : Nat), s.life.rails = true → gState s g = 3 → ((s.graph g).nodes.all fun x => x.run.isNone) = true →
    ∃ t, exec (.stoppingEnd g dt) s = .next t ∧ gState t g = 1 ∧ ((t.graph g).edges.all fun e => e.count == 0 && e.toks.isEmpty) = true) ∧
  (∀ (s : State) (m : Nat) (v : Word), s.life.rails = true → takes s m Reg.graphCmd v = true → graphCmdRefused v s = false → bitOf v 31 = true → fld v 18 16 = 4 → gState s (fld v 5 0) = 1 →
    ∃ t, exec (.graphUnload m v) s = .next t ∧ gState t (fld v 5 0) = 0 ∧ t.graph (fld v 5 0) = default ∧ t.rf Reg.wshopCmdStat 23 16 = 0) ∧
  (∀ (s : State) (m : Nat) (v : Word), s.life.rails = true → takes s m Reg.graphCmd v = true → graphCmdRefused v s = false → bitOf v 31 = true → fld v 18 16 = 4 → gState s (fld v 5 0) ≠ 1 →
    ∃ t, exec (.graphUnload m v) s = .next t ∧ t.wshop = s.wshop ∧ t.rf Reg.wshopCmdStat 23 16 = 7)

/-- R373, R374, R375, R376, R377, R379, R383, R384, R386: the controller queues each request of a hatch and each record of the LOG and TRACE ports, acknowledges nothing but an error before READY, performs a
channel's next request, answers a read with the line or as POISON, poisons a line it cannot recover, and retires the rank of a command that keeps failing; with nothing more urgent it copies the lines of a retired rank that are due, and with nothing waiting it fills blocks. When requests are answered is log entry 40. -/
def Obligations.DramServesRequests : Prop :=
  (∀ (s : State) (src dt ph : Nat) (r : DramReq) (xp : Bool), s.life.rails = true → src ≠ 3 → src ≠ 4 → hatchExists (hatchNo 0x0F src) = true → (s.hatch (hatchNo 0x0F src)).front = some ⟨.dramReq r, ph, xp⟩ →
    s.dramReady = true → r.wr = false →
    ∃ t, exec (.dramRequest src dt) s = .next t ∧ t.dram.queue = s.dram.queue ++ [⟨r, s.up + dt⟩] ∧ t.hatch (hatchNo 0x0F src) = (s.hatch (hatchNo 0x0F src)).consume ∧ t.dram.mem = s.dram.mem ∧ t.regs = s.regs) ∧
  (∀ (s : State) (src dt ph : Nat) (r : DramReq) (xp : Bool), s.life.rails = true → src ≠ 3 → src ≠ 4 → hatchExists (hatchNo 0x0F src) = true → (s.hatch (hatchNo 0x0F src)).front = some ⟨.dramReq r, ph, xp⟩ →
    s.dramReady = true → r.wr = true → hasRoom s r = true →
    ∃ t, exec (.dramRequest src dt) s = .next t ∧ t.dram.queue = s.dram.queue ++ [⟨r, s.up + dt⟩] ∧ lineFilled t r.line = true ∧ t.dram.mem = s.dram.mem ∧ t.dram.poison = s.dram.poison) ∧
  (∀ (s : State) (src dt ph : Nat) (r : DramReq) (xp : Bool), s.life.rails = true → src ≠ 3 → src ≠ 4 → hatchExists (hatchNo 0x0F src) = true → (s.hatch (hatchNo 0x0F src)).front = some ⟨.dramReq r, ph, xp⟩ →
    s.dramReady = false → r.src = src →
    ∃ t, exec (.dramRequest src dt) s = .next t ∧ t.dram = s.dram ∧
      (src < 84 → t.hatch (hatchNo 0x10 src) = (s.hatch (hatchNo 0x10 src)).offer (hatchNo 0x10 src) { pay := .dramRsp r.ref 2 [], flow := rspMark r.port (s.up + dt), xpr := false })) ∧
  (∀ (s : State) (dt a : Nat) (b : List Byte) (q : List (Nat × List Byte)), s.life.rails = true → s.dramReady = true → s.evt.logQ = (a, b) :: q → (ringWrites s 3 a b).all (hasRoom s) = true →
    ∃ t, exec (.dramRequest 3 dt) s = .next t ∧ t.evt.logQ = q ∧ t.dram.queue = s.dram.queue ++ (ringWrites s 3 a b).map (fun r => ⟨r, s.up + dt⟩) ∧ t.evt.trcQ = s.evt.trcQ ∧ t.hatches = s.hatches) ∧
  (∀ (s : State) (dt a : Nat) (b : List Byte) (q : List (Nat × List Byte)), s.life.rails = true → s.dramReady = true → s.evt.trcQ = (a, b) :: q → (ringWrites s 4 a b).all (hasRoom s) = true →
    ∃ t, exec (.dramRequest 4 dt) s = .next t ∧ t.evt.trcQ = q ∧ t.dram.queue = s.dram.queue ++ (ringWrites s 4 a b).map (fun r => ⟨r, s.up + dt⟩) ∧ t.evt.logQ = s.evt.logQ ∧ t.hatches = s.hatches) ∧
  (∀ (s : State) (ch dt n i : Nat) (w : DramWait), s.life.rails = true → s.dramReady = true → ch < 4 → copyNext (serveForced (advance s dt) ch) ch = false →
    nextRequest (serveForced (advance s dt) ch) ch = some i → s.dram.queue[i]? = some w → w.r.wr = true →
    ∃ t, exec (.dramCommand ch dt (8 * n)) s = .next t ∧ t.dram.queue = dropAt s.dram.queue i ∧ t.dram.mem = (dramApply s.dram w.r).mem ∧ t.dram.poison = (dramApply s.dram w.r).poison ∧
      (s.dram.poison.contains w.r.line = false ∨ 64 ≤ w.r.data.length → t.hatches = s.hatches ∧ t.regs = s.regs)) ∧
  (∀ (s : State) (ch dt n i : Nat) (w : DramWait), s.life.rails = true → s.dramReady = true → ch < 4 → copyNext (serveForced (advance s dt) ch) ch = false →
    nextRequest (serveForced (advance s dt) ch) ch = some i → s.dram.queue[i]? = some w → w.r.wr = false → w.r.src < 84 →
    ((s.dram.queue.take i).any fun o => o.r.line == w.r.line && o.r.wr) = false → s.dram.poison.contains w.r.line = false →
    ∃ t, exec (.dramCommand ch dt (8 * n)) s = .next t ∧ t.dram.queue = dropAt s.dram.queue i ∧ t.dram.mem = s.dram.mem ∧ t.dram.poison = s.dram.poison ∧
      t.hatch (hatchNo 0x10 w.r.src) = (s.hatch (hatchNo 0x10 w.r.src)).offer (hatchNo 0x10 w.r.src) { pay := .dramRsp w.r.ref 0 (memRead s.dram.mem (w.r.line * 64) 64), flow := rspMark w.r.port w.since, xpr := false }) ∧
  (∀ (s : State) (ch dt n i : Nat) (w : DramWait), s.life.rails = true → s.dramReady = true → ch < 4 → copyNext (serveForced (advance s dt) ch) ch = false →
    nextRequest (serveForced (advance s dt) ch) ch = some i → s.dram.queue[i]? = some w → w.r.wr = false → w.r.src < 84 →
    ((s.dram.queue.take i).any fun o => o.r.line == w.r.line && o.r.wr) = false → s.dram.poison.contains w.r.line = true →
    ∃ t, exec (.dramCommand ch dt (8 * n)) s = .next t ∧ t.dram.queue = dropAt s.dram.queue i ∧ t.dram.mem = s.dram.mem ∧
      (t.hatch (hatchNo 0x10 w.r.src)) = ((s.hatch (hatchNo 0x10 w.r.src)).offer (hatchNo 0x10 w.r.src) { pay := .dramRsp w.r.ref 1 [], flow := rspMark w.r.port w.since, xpr := false })) ∧
  (∀ (s : State) (ch dt n i : Nat) (w : DramWait), s.life.rails = true → s.dramReady = true → ch < 4 → copyNext (serveForced (advance s dt) ch) ch = false →
    nextRequest (serveForced (advance s dt) ch) ch = some i → s.dram.queue[i]? = some w → w.r.wr = false → lineFilled s w.r.line = true →
    ((s.dram.queue.take i).any fun o => o.r.line == w.r.line && o.r.wr) = false →
    ∃ t, exec (.dramCommand ch dt (8 * n + 3)) s = .next t ∧ t.dram.queue = dropAt s.dram.queue i ∧ t.dram.poison.contains w.r.line = true ∧ memRead t.dram.mem (w.r.line * 64) 64 = List.replicate 64 0) ∧
  (∀ (s : State) (ch dt n i : Nat) (w : DramWait), s.life.rails = true → s.dramReady = true → ch < 4 → copyNext (serveForced (advance s dt) ch) ch = false →
    nextRequest (serveForced (advance s dt) ch) ch = some i → s.dram.queue[i]? = some w → w.r.wr = true → spareUsed s (lineChan w.r.line) = false →
    ∃ t, exec (.dramCommand ch dt (8 * n + 5)) s = .next t ∧ t.dram.queue = w :: dropAt s.dram.queue i ∧ spareUsed t (lineChan w.r.line) = true ∧ migrating t (lineChan w.r.line) = true ∧
      retiredOf t (lineChan w.r.line) = physOf (advance s dt) w.r.line ∧ t.dram.mem = s.dram.mem) ∧
  (∀ (s : State) (ch dt n i : Nat) (w : DramWait), s.life.rails = true → s.dramReady = true → ch < 4 → copyNext (serveForced (advance s dt) ch) ch = false →
    nextRequest (serveForced (advance s dt) ch) ch = some i → s.dram.queue[i]? = some w → w.r.wr = false → w.r.src < 84 →
    (dramAfter s.dram (writesBefore (s.dram.queue.take i) w.r.line)).poison.contains w.r.line = false →
    ∃ t, exec (.dramCommand ch dt (8 * n)) s = .next t ∧ t.dram.queue = dropAt s.dram.queue i ∧ t.dram.mem = s.dram.mem ∧ t.dram.poison = s.dram.poison ∧
      t.hatch (hatchNo 0x10 w.r.src) = (s.hatch (hatchNo 0x10 w.r.src)).offer (hatchNo 0x10 w.r.src)
        { pay := .dramRsp w.r.ref 0 (memRead (dramAfter s.dram (writesBefore (s.dram.queue.take i) w.r.line)).mem (w.r.line * 64) 64), flow := rspMark w.r.port w.since, xpr := false }) ∧
  (∀ (s : State) (ch dt n : Nat), s.life.rails = true → s.dramReady = true → ch < 4 → copyNext (serveForced (advance s dt) ch) ch = true →
    ∃ t, exec (.dramCommand ch dt (8 * n)) s = .next t ∧ migPtr t ch = migPtr s ch + min (n + 1) (migDue (advance s dt) ch - migPtr s ch) ∧ t.dram.queue = s.dram.queue ∧ t.dram.mem = s.dram.mem ∧
      t.dram.poison = s.dram.poison ∧ t.regs = s.regs) ∧
  (∀ (s : State) (ch dt n : Nat), s.life.rails = true → s.dramReady = true → ch < 4 → copyNext (serveForced (advance s dt) ch) ch = false → nextRequest (serveForced (advance s dt) ch) ch = none →
    s.rb Reg.dramStat 29 = false →
    ∃ t, exec (.dramCommand ch dt (8 * n)) s = .next t ∧ t.dram.fillPtr = min dramBlocks (s.dram.fillPtr + n + 1) ∧ t.dram.mem = s.dram.mem ∧ t.dram.queue = s.dram.queue ∧ t.regs = s.regs)

/-- R381, R382, R383, R384, R385, R386, R387, R391: each rank is refreshed, read, calibrated and retuned when its interval has passed, a refresh may be postponed up to four times, the patrol goes on line by line;
training sets READY unless a channel lacks two ranks; a retired logical rank maps to the spare once its migration is done. -/
def Obligations.DramRanksAreServedAndSpared : Prop :=
  (∀ (s : State) (ch phys dt bank : Nat) (pp : Bool), s.life.rails = true → s.dramReady = true → ch < 4 → phys < 3 → rankActive s ch phys = true →
    serviceDue (advance s dt) 0 (rankNo ch phys) (refreshInterval s (rankNo ch phys)) = true → channelUrgent (advance s dt) ch = false →
    ∃ t, exec (.refresh ch phys dt bank pp) s = .next t ∧ mapGet 0 t.dram.served (rankNo ch phys) = s.up + dt ∧ t.dram.postponed = s.dram.postponed ∧
      t.dram.rows = s.dram.rows.filter (fun p => !(p.1 / 96 == ch && p.1 / 16 % 3 == phys && (s.rb Reg.refCfg 31 || p.1 % 2 == bank % 2))) ∧ t.dram.mem = s.dram.mem) ∧
  (∀ (s : State) (ch phys dt bank : Nat), s.life.rails = true → s.dramReady = true → ch < 4 → phys < 3 → rankActive s ch phys = true →
    serviceDue (advance s dt) 0 (rankNo ch phys) (refreshInterval s (rankNo ch phys)) = true → channelUrgent (advance s dt) ch = true → mapGet 0 s.dram.postponed (rankNo ch phys) < 4 →
    ∃ t, exec (.refresh ch phys dt bank true) s = .next t ∧ mapGet 0 t.dram.postponed (rankNo ch phys) = mapGet 0 s.dram.postponed (rankNo ch phys) + 1 ∧ t.dram.rows = s.dram.rows) ∧
  (∀ (s : State) (ch phys dt temp : Nat), s.life.rails = true → s.dramReady = true → ch < 4 → phys < 3 → rankServed s ch phys = true → serviceDue (advance s dt) 1 (rankNo ch phys) (1000000 * nsUnit) = true →
    95 < temp → s.dram.hot.contains (rankNo ch phys) = false →
    ∃ t, exec (.tempRead ch phys dt temp) s = .next t ∧ mapGet 0 t.dram.temps (rankNo ch phys) = temp ∧ t.dram.hot.contains (rankNo ch phys) = true ∧ t.hatch (hatchNo 0x14 82) = (s.hatch (hatchNo 0x14 82)).offerAlarm (hatchNo 0x14 82) (mkAlarm (advance s dt) 0x0502 82 ch (rankNo ch phys) 0 0)) ∧
  (∀ (s : State) (ch phys dt temp : Nat), s.life.rails = true → s.dramReady = true → ch < 4 → phys < 3 → rankServed s ch phys = true → serviceDue (advance s dt) 1 (rankNo ch phys) (1000000 * nsUnit) = true → temp ≤ 95 →
    ∃ t, exec (.tempRead ch phys dt temp) s = .next t ∧ mapGet 0 t.dram.temps (rankNo ch phys) = temp ∧ t.dram.hot.contains (rankNo ch phys) = false ∧ t.hatches = s.hatches) ∧
  (∀ (s : State) (ch phys dt : Nat), s.life.rails = true → s.dramReady = true → ch < 4 → phys < 3 → rankServed s ch phys = true → serviceDue (advance s dt) 2 (rankNo ch phys) (128000000 * nsUnit) = true →
    ∃ t, exec (.zqCalibration ch phys dt) s = .next t ∧ mapGet 0 t.dram.served (2 * 16 + rankNo ch phys) = s.up + dt ∧ t.dram.queue = s.dram.queue ∧ t.regs = s.regs) ∧
  (∀ (s : State) (ch phys dt : Nat), s.life.rails = true → s.dramReady = true → ch < 4 → phys < 3 → rankServed s ch phys = true → serviceDue (advance s dt) 3 (rankNo ch phys) (100000000 * nsUnit) = true →
    ∃ t, exec (.readTimingRetune ch phys dt) s = .next t ∧ mapGet 0 t.dram.served (3 * 16 + rankNo ch phys) = s.up + dt ∧ t.dram.queue = s.dram.queue ∧ t.regs = s.regs) ∧
  (∀ (s : State) (ch rank dt ecc : Nat), s.life.rails = true → s.dramReady = true → ch < 4 → rank < 2 → s.rf Reg.refCfg 7 0 ≠ 0 →
    max (mapGet 0 s.dram.patrolAt (ch * 2 + rank)) s.dram.readyAt + scrubStep s ≤ s.up + dt →
    ∃ t, exec (.patrolScrub ch rank dt ecc) s = .next t ∧ mapGet 0 t.dram.patrol (ch * 2 + rank) = (mapGet 0 s.dram.patrol (ch * 2 + rank) + 1) % rankLines ∧
      (ecc = 3 → lineFilled s (lineAt ch rank (mapGet 0 s.dram.patrol (ch * 2 + rank))) = true → t.dram.poison.contains (lineAt ch rank (mapGet 0 s.dram.patrol (ch * 2 + rank))) = true) ∧
      (ecc = 0 → t.regs = s.regs ∧ t.dram.poison = s.dram.poison)) ∧
  (∀ (s : State) (dt : Nat), s.life.rails = true → s.dram.trained = false →
    ∃ t, exec (.trainingDone dt []) s = .next t ∧ t.dramReady = true ∧ t.dram.trained = true ∧ t.dram.readyAt = s.up + dt ∧ (∀ ch < 4, spareUsed t ch = spareUsed s ch)) ∧
  (∀ (s : State) (dt ch : Nat), s.life.rails = true → s.dram.trained = false → ch < 4 →
    ∃ t, exec (.trainingDone dt [rankNo ch 0]) s = .next t ∧ t.dramReady = true ∧ spareUsed t ch = true ∧ mapOf t ch 0 = 2 ∧ retiredOf t ch = 0 ∧ t.rb Reg.lifeHealth 0 = true) ∧
  (∀ (s : State) (dt ch : Nat), s.life.rails = true → s.dram.trained = false → ch < 4 →
    ∃ t, exec (.trainingDone dt [rankNo ch 0, rankNo ch 1]) s = .next t ∧ t.dramReady = s.dramReady ∧ t.rb Reg.lifeHealth 6 = true) ∧
  (∀ (s : State) (dt : Nat) (bad : List Nat), s.life.rails = true → s.dram.trained = false → (∀ ch < 4, ([0, 1, 2].filter fun p => bad.contains (rankNo ch p)).length < 2) →
    ∃ t, exec (.trainingDone dt bad) s = .next t ∧ t.dramReady = true ∧ t.dram.trained = true ∧ t.dram.readyAt = s.up + dt ∧
      (∀ ch < 4, spareUsed t ch = (spareUsed s ch || [0, 1, 2].any fun p => bad.contains (rankNo ch p)))) ∧
  (∀ (s : State) (dt ch : Nat) (bad : List Nat), s.life.rails = true → s.dram.trained = false → ch < 4 → 2 ≤ ([0, 1, 2].filter fun p => bad.contains (rankNo ch p)).length →
    ∃ t, exec (.trainingDone dt bad) s = .next t ∧ t.dramReady = s.dramReady ∧ t.dram.trained = true ∧ t.rb Reg.lifeHealth 6 = true) ∧
  (∀ (s : State) (dt : Nat), s.life.rails = true → s.dramReady = true → s.rb Reg.dramStat 29 = false →
    ∃ t, exec (.fillDone dt) s = .next t ∧ (∀ l, lineFilled t l = true) ∧ t.dram.mem = s.dram.mem ∧ t.dram.poison = s.dram.poison) ∧
  (∀ (s : State) (m : Nat) (v : Word), s.life.rails = true → takes s m Reg.rankCtl v = true → bitOf v 31 = true → rankCtlRefused v s = false →
    ∃ t, exec (.dramRankRetire m v) s = .next t ∧ spareUsed t (fld v 3 2) = true ∧ migrating t (fld v 3 2) = true ∧ retiredOf t (fld v 3 2) = mapOf s (fld v 3 2) (fld v 1 0) ∧
      t.rf (Reg.chStat (fld v 3 2)) 29 27 = 5 ∧ t.rb Reg.lifeHealth 0 = true ∧ t.dram.mem = s.dram.mem) ∧
  (∀ (s : State) (ch dt : Nat) (bad : List Nat), s.life.rails = true → ch < 4 → migrating s ch = true → migPtr s ch = rankLines → mapOf s ch 0 = retiredOf s ch →
    ∃ t, exec (.migrationDone ch dt bad) s = .next t ∧ migrating t ch = false ∧ mapOf t ch 0 = spareOf s ch ∧ mapOf t ch 1 = mapOf s ch 1 ∧ t.dram = s.dram) ∧
  (∀ (s : State) (ch dt : Nat) (bad : List Nat), s.life.rails = true → ch < 4 → migrating s ch = true → migPtr s ch = rankLines → mapOf s ch 0 ≠ retiredOf s ch →
    ∃ t, exec (.migrationDone ch dt bad) s = .next t ∧ migrating t ch = false ∧ mapOf t ch 1 = spareOf s ch ∧ mapOf t ch 0 = mapOf s ch 0 ∧ t.dram = s.dram) ∧
  (∀ (s : State) (ch dt : Nat) (bad : List Nat), s.life.rails = true → ch < 4 → migrating s ch = true → migDue (advance s dt) ch = rankLines →
    ∃ t, exec (.migrationDone ch dt bad) s = .next t ∧ migrating t ch = false ∧ t.dram.queue = s.dram.queue ∧ (bad = [] → t.dram.mem = s.dram.mem ∧ t.dram.poison = s.dram.poison) ∧
      (∀ l, s.dram.poison.contains l = true → t.dram.poison.contains l = true)) ∧
  (∀ (s : State) (ch dt i : Nat), s.life.rails = true → ch < 4 → migrating s ch = true → migDue (advance s dt) ch = rankLines → migPtr s ch ≤ i → i < rankLines → lineFilled s (lineAt ch (migRank s ch) i) = true →
    ∃ t, exec (.migrationDone ch dt [i]) s = .next t ∧ migrating t ch = false ∧ t.dram.poison.contains (lineAt ch (migRank s ch) i) = true)

/-- R393, R394: the recorder writes its oldest record at WPTR, which goes round its ring; TRIG captures the postmark and starts the post-trigger time, at whose end the ring is frozen and the queue discarded;
ARM lets it go on. What a freeze discards is log entry 42. -/
def Obligations.RecorderWritesTriggersAndFreezes : Prop :=
  (∀ (s : State) (dt : Nat) (x : List Word) (q : List (List Word)), s.life.rails = true → s.dramReady = true → s.rb Reg.recCfg 31 = true → s.rb Reg.recCfg 28 = false → s.dram.recQ = x :: q → 0 < recSlots s →
    (ringWrites s 5 (recAddr s (s.rf Reg.recWptr 26 0 % recSlots s)) (wordBytes x)).all (hasRoom s) = true →
    ∃ t, exec (.recWrite dt) s = .next t ∧ t.dram.recQ = q ∧ t.rf Reg.recWptr 26 0 = (s.rf Reg.recWptr 26 0 % recSlots s + 1) % recSlots s ∧
      t.dram.queue = s.dram.queue ++ (ringWrites s 5 (recAddr s (s.rf Reg.recWptr 26 0 % recSlots s)) (wordBytes x)).map (fun r => ⟨r, s.up + dt⟩) ∧
      t.rb Reg.recWptr 31 = (s.rb Reg.recWptr 31 || decide (recSlots s ≤ s.dram.recDone + 1))) ∧
  (∀ (s : State) (m : Nat) (v : Word), s.life.rails = true → takes s m Reg.recCfg v = true → bitOf v 30 = true → bitOf v 31 = true → bitOf v 29 = false → recCfgRefused v s = false →
    ∃ t, exec (.recTrig m v) s = .next t ∧ t.rb Reg.recCfg 27 = true ∧ t.reg Reg.recTrigLo = BitVec.ofNat 32 (pmNow s) ∧ t.reg Reg.recTrigHi = BitVec.ofNat 32 (pmNow s / 2 ^ 32) ∧ t.dram.trigAt = s.up ∧
      t.dram.recQ = s.dram.recQ) ∧
  (∀ (s : State) (m : Nat) (v : Word), s.life.rails = true → takes s m Reg.recCfg v = true → bitOf v 30 = true → recCfgRefused v s = true → exec (.recTrig m v) s = .next (s.reject Reg.recCfg)) ∧
  (∀ (s : State) (m : Nat) (v : Word), s.life.rails = true → takes s m Reg.recCfg v = true → bitOf v 30 = false → bitOf v 29 = true →
    ∃ t, exec (.recArm m v) s = .next t ∧ t.rb Reg.recCfg 28 = false ∧ t.rb Reg.recWptr 31 = false ∧ t.dram.recGap = 0 ∧ t.dram.recQ = s.dram.recQ) ∧
  (∀ (s : State) (dt : Nat), s.life.rails = true → s.rb Reg.recCfg 27 = true → s.dram.trigAt + s.rf Reg.recCfg 15 0 * 1000000 * nsUnit ≤ s.up + dt →
    ∃ t, exec (.postTriggerExpiry dt) s = .next t ∧ t.rf Reg.recCfg 28 27 = 2 ∧ t.dram.recQ = [] ∧ t.dram.queue = s.dram.queue)

/-- R396, R399, R400, R402, R403, R412, R414: a report is accepted, or refused and the island's mean charged in its place; a tick publishes each island's energy and the thermal term and enters hard throttle at
115 °C; a frequency moves by at most one step outside hard throttle, and a chosen one takes effect. The signs, means and the thermal estimate rest on log entry 43. -/
def Obligations.LedgerReportsAndTicks : Prop :=
  (∀ (s : State) (island dt f : Nat) (r : MeterRep) (xp : Bool), s.life.rails = true → hatchExists (hatchNo 0x13 island) = true → (s.hatch (hatchNo 0x13 island)).front = some ⟨.meter r, f, xp⟩ →
    r.energy < 2 ^ 31 → r.energy ≤ Config.railRating island →
    ∃ t, exec (.meterReport island dt) s = .next t ∧ mapGet 0 t.ledg.energy island = mapGet 0 s.ledg.energy island + r.energy ∧
      mapGet [] t.ledg.reports island = (mapGet [] s.ledg.reports island ++ [r.energy]).drop ((mapGet [] s.ledg.reports island).length - 15) ∧
      t.hatch (hatchNo 0x13 island) = (s.hatch (hatchNo 0x13 island)).consume ∧ t.regs = s.regs) ∧
  (∀ (s : State) (island dt f : Nat) (r : MeterRep) (xp : Bool), s.life.rails = true → hatchExists (hatchNo 0x13 island) = true → (s.hatch (hatchNo 0x13 island)).front = some ⟨.meter r, f, xp⟩ →
    2 ^ 31 ≤ r.energy % 2 ^ 32 ∨ Config.railRating island < r.energy →
    ∃ t, exec (.meterReport island dt) s = .next t ∧ mapGet 0 t.ledg.energy island = mapGet 0 s.ledg.energy island + reportMean s island ∧ t.ledg.reports = s.ledg.reports ∧ t.rb Reg.lifeHealth 5 = true) ∧
  (∀ (s : State) (dt vin hall : Nat) (rd : List (Option Int)), s.life.rails = true → (advance s dt).now / tickLen ≠ s.ledg.tickAt → (s.ledg.nodes.all fun n => decide (n.1 < 32)) = true →
    ∃ t, exec (.ledgerTick dt rd vin hall) s = .next t ∧ t.ledg.tickAt = (advance s dt).now / tickLen ∧ t.ledg.ticks = s.ledg.ticks + 1 ∧ t.ledg.energy = [] ∧ t.ledg.nodes = [] ∧
      (∀ i < 81, t.reg (Reg.ledgIslE i) = BitVec.ofNat 32 (mapGet 0 s.ledg.energy i)) ∧ t.reg (Reg.ledgIslE 81) = BitVec.ofNat 32 (mapGet 0 (takeReport (advance s dt) ⟨81, hall, 0⟩).ledg.energy 81) ∧
      (115 ≤ (takeSensors (advance s dt) rd).2 → hardThrottle t = true) ∧ ((takeSensors (advance s dt) rd).2 < 110 → hardThrottle t = false)) ∧
  (∀ (hard : Bool) (head : Int) (floor freq fmax demand up down : Nat), floor ≤ freq → freq ≤ fmax → hard = false →
    nextFreq hard head floor freq fmax demand up down ≤ freq + 1 ∧ freq ≤ nextFreq hard head floor freq fmax demand up down + 1 ∧ nextFreq hard head floor freq fmax demand up down ≤ fmax ∧
      floor ≤ nextFreq hard head floor freq fmax demand up down) ∧
  (∀ (s : State) (island dt f k : Nat), s.life.rails = true → (s.ledg.freqs.find? fun p => p.1 == island) = some (k, f) → f < 32 →
    ∃ t, exec (.freqApply island dt) s = .next t ∧ t.rf (Reg.ledgIslCfg island) 12 8 = f ∧ t.rf (Reg.ledgIslCfg island) 4 0 = s.rf (Reg.ledgIslCfg island) 4 0 ∧
      t.ledg.freqs = mapErase s.ledg.freqs island ∧ cycleOf t island = cycleOf (advance s dt) island)

/-- R415, R417, R419, R420: an engine chosen to park becomes parked once drained, its threads PARKED, or is given up after 20 µs; unparked, each of its threads returns to the state it had; the host parks, unparks
and releases engines, and is refused one that is not parkable. Which engine parks is log entry 44. -/
def Obligations.EnginesParkAndUnpark : Prop :=
  (∀ (s : State) (e dt k since : Nat) (host : Bool), s.life.rails = true → e < 224 → (s.ledg.draining.find? fun p => p.1 == e) = some (k, since, host) → drained (advance s dt) e = true → engFailed s e = false →
    s.up + dt ≤ since + 20000 * nsUnit →
    ∃ t, exec (.parkDone e dt) s = .next t ∧ engParked t e = true ∧ t.ledg.draining = mapErase s.ledg.draining e ∧
      (∀ n < 16, thrState s (e * 16 + n) ≠ 0 → thrState s (e * 16 + n) ≠ 4 → thrState t (e * 16 + n) = 5 ∧ (t.thr (e * 16 + n)).former = thrState s (e * 16 + n)) ∧
      (∀ n < 16, thrState s (e * 16 + n) = 0 → thrState t (e * 16 + n) = 0)) ∧
  (∀ (s : State) (e dt k since : Nat) (host : Bool), s.life.rails = true → (s.ledg.draining.find? fun p => p.1 == e) = some (k, since, host) → (drained (advance s dt) e = false ∧ since + 20000 * nsUnit ≤ s.up + dt) ∨ since + 20000 * nsUnit < s.up + dt →
    ∃ t, exec (.parkAbort e dt) s = .next t ∧ t.ledg.draining = mapErase s.ledg.draining e ∧ mapGet 0 t.ledg.notBefore e = s.ledg.ticks + 125 ∧ t.engines = s.engines) ∧
  (∀ (s : State) (e dt : Nat), s.life.rails = true → e < 224 → s.ledg.unparking.contains e = true → engFailed s e = false →
    ∃ t, exec (.unparkDone e dt) s = .next t ∧ engParked t e = false ∧ t.ledg.unparking.contains e = false ∧
      (∀ n < 16, thrState s (e * 16 + n) = 5 → (s.thr (e * 16 + n)).former < 8 → thrState t (e * 16 + n) = (s.thr (e * 16 + n)).former) ∧
      (∀ n < 16, thrState s (e * 16 + n) ≠ 5 → thrState t (e * 16 + n) = thrState s (e * 16 + n))) ∧
  (∀ (s : State) (m : Nat) (v : Word), s.life.rails = true → takes s m Reg.ledgPark v = true → bitOf v 31 = true → fld v 17 16 = 1 → parkable s (fld v 7 0) = true →
    ∃ t, exec (.hostPark m v) s = .next t ∧ (t.ledg.draining.find? fun p => p.1 == fld v 7 0) = some (fld v 7 0, s.up, true) ∧ t.ledg.hostHeld.contains (fld v 7 0) = true ∧ t.engines = s.engines) ∧
  (∀ (s : State) (m : Nat) (v : Word), s.life.rails = true → takes s m Reg.ledgPark v = true → bitOf v 31 = true → fld v 17 16 = 1 → parkable s (fld v 7 0) = false →
    exec (.hostPark m v) s = .next (s.reject Reg.ledgPark)) ∧
  (∀ (s : State) (m : Nat) (v : Word), s.life.rails = true → takes s m Reg.ledgPark v = true → bitOf v 31 = true → fld v 17 16 = 2 → fld v 7 0 < 224 → engParked s (fld v 7 0) = true → engFailed s (fld v 7 0) = false →
    s.ledg.unparking.contains (fld v 7 0) = false →
    ∃ t, exec (.hostUnpark m v) s = .next t ∧ t.ledg.unparking = s.ledg.unparking ++ [fld v 7 0] ∧ t.ledg.hostHeld = s.ledg.hostHeld ∧ t.ledg.draining = s.ledg.draining) ∧
  (∀ (s : State) (m : Nat) (v : Word), s.life.rails = true → takes s m Reg.ledgPark v = true → bitOf v 31 = true → fld v 17 16 = 2 → fld v 7 0 < 224 → engParked s (fld v 7 0) = false →
    ∃ t, exec (.hostUnpark m v) s = .next t ∧ t.ledg.unparking = s.ledg.unparking ∧ t.ledg.draining = mapErase s.ledg.draining (fld v 7 0)) ∧
  (∀ (s : State) (m : Nat) (v : Word), s.life.rails = true → takes s m Reg.ledgPark v = true → bitOf v 31 = true → fld v 17 16 = 3 → fld v 7 0 < 224 →
    ∃ t, exec (.hostAuto m v) s = .next t ∧ t.ledg.hostHeld = s.ledg.hostHeld.filter (· != fld v 7 0) ∧ t.ledg.draining = s.ledg.draining ∧ engParked t (fld v 7 0) = engParked s (fld v 7 0))

/-- R425, R426, R437, R438, R439, R455: a link goes from LOCKING through HELLO and CHECK to UP, and falls to FAILED when its lock, its heartbeats or its replays fail, or to DOWN when it was LEAVING; HELLO and
HEARTBEAT are sent at their times; an ACK frees what it names, a NAK or the timer replays what is left, and an acknowledgement goes by itself after ACK_DELAY. A link locks only with REFCLK. The payload layouts are the model's choice (log entry 30). -/
def Obligations.LinksComeUpAndFail : Prop :=
  (∀ (s : State) (k dt : Nat), s.dataPath = true → k < 32 → linkState s k = 1 → (linkLane s k).any (fun l => s.rb (Reg.laneStat l) 7) = true → (s.link k).since + 1000000 * nsUnit ≤ s.up + dt →
    ∃ t, exec (.linkLocked k dt) s = .next t ∧ linkState t k = 2 ∧ (t.link k).since = s.up + dt ∧ (∀ j < 32, j ≠ k → linkState t j = linkState s j)) ∧
  (∀ (s : State) (k dt : Nat), s.dataPath = true → k < 32 → linkState s k = 2 → linkSecured s k = false → ((s.link k).helloAt = 0 ∨ (s.link k).helloAt + 100000 * nsUnit ≤ s.up + dt) →
    ∃ t, exec (.helloSend k dt) s = .next t ∧ (t.link k).lastTx = parcelOf s k (ctlInfo s k 9 0) (helloPayload s) ∧ (t.link k).helloAt = s.up + dt ∧ (t.link k).next = (s.link k).next ∧ t.regs = s.regs) ∧
  (∀ (s : State) (k dt : Nat) (b : List Byte), s.dataPath = true → k < 32 → linkState s k = 2 → pGood b = true → linkSecured s k = false → pReserved b = false → pType b = 9 → beNat (slice b 16 4) = (s.reg Reg.courSystem).toNat →
    beNat (slice b 20 2) % 1024 ≠ ownModule s →
    ∃ t, exec (.helloRx k dt b) s = .next t ∧ linkState t k = 3 ∧ peerOf t k = beNat (slice b 20 2) % 1024 ∧ (t.link k).next = 0 ∧ (t.link k).exp = 0 ∧ (t.link k).unacked = []) ∧
  (∀ (s : State) (k dt : Nat) (b : List Byte), s.dataPath = true → k < 32 → linkState s k = 2 → pGood b = true → linkSecured s k = false → pReserved b = false → pType b = 9 → beNat (slice b 16 4) ≠ (s.reg Reg.courSystem).toNat →
    ∃ t, exec (.helloRx k dt b) s = .next t ∧ linkState t k = 2 ∧ (t.link k).refused = true ∧ peerOf t k = beNat (slice b 20 2) % 1024) ∧
  (∀ (s : State) (k dt : Nat) (b : List Byte), receives s k b 4 = true → inOrder s k b = true → linkState s k = 3 → (beNat (slice (pPayload b) 2 1)).testBit 2 = false →
    ∃ t, exec (.heartbeatRx k dt b) s = .next t ∧ linkState t k = (if s.mode = 4 then 6 else 4) ∧ (t.link k).hb = pPayload b ∧ (t.link k).hbAt = s.up + dt ∧ (t.link k).exp = ((s.link k).exp + 1) % 4096) ∧
  (∀ (s : State) (k dt : Nat), s.dataPath = true → k < 32 → openStates.contains (linkState s k) = true → ((s.link k).hbSentAt = 0 ∨ (s.link k).hbSentAt + 1000000 * nsUnit ≤ s.up + dt) → linkSecured s k = false → canSend s k 0 48 = true →
    ∃ t, exec (.heartbeatSend k dt) s = .next t ∧ (t.link k).hbSentAt = s.up + dt ∧ (t.link k).next = ((s.link k).next + 1) % 4096 ∧ (t.link k).unacked.length = (s.link k).unacked.length + 1 ∧
      pType (t.link k).lastTx = 4) ∧
  (∀ (s : State) (k dt : Nat), s.life.rails = true → k < 32 → linkState s k = 3 ∨ linkState s k = 4 →
    ∃ t, exec (.lockLoss k dt) s = .next t ∧ linkState t k = 5 ∧ (t.link k).unacked = [] ∧ (t.link k).next = 0) ∧
  (∀ (s : State) (k dt : Nat), s.life.rails = true → k < 32 → linkState s k = 6 → ∃ t, exec (.lockLoss k dt) s = .next t ∧ linkState t k = 0 ∧ (t.link k).unacked = []) ∧
  (∀ (s : State) (k dt : Nat), s.dataPath = true → k < 32 → openStates.contains (linkState s k) = true → (s.link k).hbAt + 3000000 * nsUnit ≤ s.up + dt →
    ∃ t, exec (.heartbeatTimeout k dt) s = .next t ∧ linkState t k = 5 ∧ (t.link k).unacked = []) ∧
  (∀ (s : State) (k dt : Nat), s.dataPath = true → k < 32 → linkCarried s k = true → linkState s k = 5 → (s.link k).since + 10000000 * nsUnit ≤ s.up + dt →
    ∃ t, exec (.linkRetry k dt) s = .next t ∧ linkState t k = 1 ∧ (t.link k).since = s.up + dt) ∧
  (∀ (s : State) (k dt : Nat) (b : List Byte) (p : Sent) (r : List Sent), receives s k b 2 = true → (s.link k).unacked = p :: r → (s.link k).ctl = [] → (pAck b + 4096 - p.seq) % 4096 < (s.link k).unacked.length →
    ∃ t, exec (.ackRx k dt b) s = .next t ∧ (t.link k).unacked = (s.link k).unacked.drop ((pAck b + 4096 - p.seq) % 4096 + 1) ∧ (t.link k).timerAt = s.up + dt ∧ t.rf (Reg.linkStat k) 16 13 = 0 ∧
      (t.link k).next = (s.link k).next) ∧
  (∀ (s : State) (k dt : Nat) (b : List Byte) (p : Sent), receives s k b 3 = true → (s.link k).unacked = [p] → (s.link k).ctl = [] → (pAck b + 4096 - p.seq) % 4096 = 4095 → s.rf (Reg.linkStat k) 16 13 < 7 →
    ∃ t, exec (.nakRx k dt b) s = .next t ∧ (t.link k).lastTx = parcelRenew s k p.bytes ∧ (t.link k).unacked.map (·.seq) = [p.seq] ∧ t.rf (Reg.linkStat k) 16 13 = s.rf (Reg.linkStat k) 16 13 + 1 ∧
      linkState t k = linkState s k) ∧
  (∀ (s : State) (k dt u : Nat), s.dataPath = true → openStates.contains (linkState s k) = true → linkSecured s k = false → (s.link k).ackDue = some u → u + s.rf (Reg.linkCfg k) 15 8 * 10 * nsUnit ≤ s.up + dt →
    ∃ t, exec (.ackSend k dt) s = .next t ∧ (t.link k).lastTx = parcelOf s k (ctlInfo s k 2 0) [] ∧ (t.link k).ackDue = none ∧ (t.link k).next = (s.link k).next ∧ t.regs = s.regs) ∧
  (∀ (s : State) (k dt : Nat) (p : Sent), s.dataPath = true → k < 32 → openStates.contains (linkState s k) = true → (s.link k).unacked.getLast? = some p → (s.link k).timerAt + 2000 * nsUnit ≤ s.up + dt →
    s.rf (Reg.linkStat k) 16 13 < 7 → linkSecured s k = false →
    ∃ t, exec (.replayTimeout k dt) s = .next t ∧ (t.link k).lastTx = parcelRenew s k p.bytes ∧ (t.link k).unacked.length = (s.link k).unacked.length ∧ (t.link k).timerAt = s.up + dt ∧
      t.rf (Reg.linkStat k) 16 13 = s.rf (Reg.linkStat k) 16 13 + 1) ∧
  (∀ (s : State) (k dt : Nat) (p : Sent), s.dataPath = true → k < 32 → openStates.contains (linkState s k) = true → (s.link k).unacked.getLast? = some p → (s.link k).timerAt + 2000 * nsUnit ≤ s.up + dt →
    s.rf (Reg.linkStat k) 16 13 = 7 → ∃ t, exec (.replayTimeout k dt) s = .next t ∧ linkState t k = 5 ∧ (t.link k).unacked = []) ∧
  (∀ (s : State) (k dt : Nat), s.dataPath = true → k < 32 → linkState s k = 2 → ((s.link k).helloAt = 0 ∨ (s.link k).helloAt + 100000 * nsUnit ≤ s.up + dt) →
    exec (.helloSend k dt) s = .next ((sendCtl (advance s dt) k 9 (helloPayload s)).withLink k fun l => { l with helloAt := s.up + dt })) ∧
  (∀ (s : State) (k dt : Nat) (b : List Byte), receives s k b 9 = true → exec (.helloRx k dt b) s = .next (acked s k dt b)) ∧
  (∀ (s : State) (k dt : Nat) (b : List Byte), receives s k b 4 = true → inOrder s k b = true →
    ∃ t, exec (.heartbeatRx k dt b) s = .next t ∧ (t.link k).hb = pPayload b ∧ (t.link k).hbAt = s.up + dt ∧ (t.link k).exp = ((s.link k).exp + 1) % 4096) ∧
  (∀ (s : State) (k dt : Nat), s.dataPath = true → k < 32 → openStates.contains (linkState s k) = true → ((s.link k).hbSentAt = 0 ∨ (s.link k).hbSentAt + 1000000 * nsUnit ≤ s.up + dt) → canSend s k 0 48 = true →
    ∃ t, exec (.heartbeatSend k dt) s = .next t ∧ (t.link k).hbSentAt = s.up + dt ∧ (t.link k).next = ((s.link k).next + 1) % 4096 ∧ (t.link k).unacked.length = (s.link k).unacked.length + 1) ∧
  (∀ (s : State) (k dt : Nat), s.dataPath = true → k < 32 → linkCarried s k = true → linkState s k = 0 →
    ∃ t, exec (.linkRetry k dt) s = .next t ∧ linkState t k = 1 ∧ (t.link k).since = s.up + dt) ∧
  (∀ (s : State) (k dt : Nat) (b : List Byte), receives s k b 2 = true → exec (.ackRx k dt b) s = .next (acked s k dt b)) ∧
  (∀ (s : State) (k dt : Nat) (b : List Byte), receives s k b 3 = true → exec (.nakRx k dt b) s = .next (replay (acked s k dt b) k)) ∧
  (∀ (s : State) (k dt u : Nat), s.dataPath = true → openStates.contains (linkState s k) = true → (s.link k).ackDue = some u → u + s.rf (Reg.linkCfg k) 15 8 * 10 * nsUnit ≤ s.up + dt →
    exec (.ackSend k dt) s = .next (sendCtl (advance s dt) k 2 [])) ∧
  (∀ (s : State) (k dt : Nat), s.dataPath = true → openStates.contains (linkState s k) = true → (s.link k).unacked ≠ [] → (s.link k).timerAt + 2000 * nsUnit ≤ s.up + dt →
    exec (.replayTimeout k dt) s = .next (replay (advance s dt) k))

/-- R428, R430, R431, R434, R435, R436, R454, R457, R460, R466, R497: a DATA parcel in order enters the receive buffer and, with COUR_IN clear, becomes one frame of source 1 here or passes on with one hop more; one out of order draws one NAK and one repeated is counted;
a pigeonhole's head leaves as a parcel; TIME, SEAL and ALARM parcels do what their types say; where MACsec is enabled a parcel leaves protected under the next PN, and one that fails verification is
discarded before it is judged. The payload layouts are the model's choice (log entry 30). -/
def Obligations.ParcelsCarryTheirContents : Prop :=
  (∀ (s : State) (k dt at_ : Nat) (b : List Byte), receives s k b 1 = true → inOrder s k b = true → sealPasses (accepted s k dt b) k b (rxPm (accepted s k dt b) k at_) = true → pf b 0 0 0 = 0 →
    pf b 0 31 22 = ownModule s → pf b 2 17 4 < 4096 → (s.link k).rxBuf = [] → (accepted s k dt b).clear (hatchNo 0x18 k) = true →
    exec (.dataRx k dt at_ b) s = .next (((accepted s k dt b).passed (hatchNo 0x18 k) (flitsOf (pPayload b ++ fcsOf (pPayload b)).length)).originate
      { src := 1, no := k, ten := pf b 0 4 1, colour := 0, cls := pClass b, ph := pf b 2 17 4, mc := false, group := 0, ptp := false, ect := false, s0 := 0, s1 := 0, sealNo := pf b 1 7 0,
        pm := rxPm s k at_ } (pPayload b ++ fcsOf (pPayload b)))) ∧
  (∀ (s : State) (k dt at_ : Nat) (b : List Byte), receives s k b 1 = true → inOrder s k b = true → sealPasses (accepted s k dt b) k b (rxPm (accepted s k dt b) k at_) = true → pf b 0 0 0 = 0 →
    pf b 0 31 22 ≠ ownModule s → pf b 3 15 11 < 15 → (s.link k).rxBuf = [] → (accepted s k dt b).clear (hatchNo 0x18 k) = true →
    exec (.dataRx k dt at_ b) s = .next (((accepted s k dt b).passed (hatchNo 0x18 k) (flitsOf (pPayload b ++ fcsOf (pPayload b)).length)).originate
      { src := 1, no := k, ten := pf b 0 4 1, colour := 0, cls := pClass b, ph := 4096 + k * 8 + pClass b, mc := false, group := 0, ptp := false, ect := false, s0 := 0, s1 := 0, sealNo := pf b 1 7 0,
        pm := rxPm s k at_ } (pPayload b ++ fcsOf (pPayload b)) fun e => courInfo e 0 (pf b 0 31 22) (pf b 0 21 12) false false (pf b 3 15 11 + 1) (pf b 3 31 16) (pf b 2 17 4))) ∧
  (∀ (s : State) (k dt at_ : Nat) (b : List Byte), receives s k b 1 = true → (s.link k).nakSent = false → 0 < (pSeq b + 4096 - (s.link k).exp) % 4096 → (pSeq b + 4096 - (s.link k).exp) % 4096 ≤ 2047 →
    ∃ t, exec (.dataRx k dt at_ b) s = .next t ∧ (t.link k).exp = (s.link k).exp ∧ (t.link k).nakSent = true ∧ pType (t.link k).lastTx = 3 ∧ t.frames = s.frames) ∧
  (∀ (s : State) (k dt at_ : Nat) (b : List Byte), receives s k b 1 = true → 2047 < (pSeq b + 4096 - (s.link k).exp) % 4096 → (s.reg (Reg.courDupCnt k)).toNat < 0xFFFFFFFE →
    ∃ t, exec (.dataRx k dt at_ b) s = .next t ∧ (t.link k).exp = (s.link k).exp ∧ (t.reg (Reg.courDupCnt k)).toNat = (s.reg (Reg.courDupCnt k)).toNat + 1 ∧ t.frames = s.frames) ∧
  (∀ (s : State) (k dt at_ : Nat) (b : List Byte), s.dataPath = true → k < 32 → lockedStates.contains (linkState s k) = true → pGood b = false →
    exec (.dataRx k dt at_ b) s = .next ((advance s dt).count (Reg.courCrcErrCnt k))) ∧
  (∀ (s : State) (k c dt : Nat) (e : Env) (r : List Env), s.dataPath = true → k < 32 → c < 8 → linkState s k = 4 → phOf s (4096 + k * 8 + c) = e :: r → (c = 7 ∨ phOf s (4096 + k * 8 + 7) = []) →
    (s.frame (eCell (withLength s e))).ended = 1 → eTrunc (withLength s e) = false → (c = 7 ∨ eLength (withLength s e) - 4 ≤ s.rf (Reg.linkCfg k) 29 16) →
    eLength (withLength s e) - 4 ≤ (s.frame (eCell (withLength s e))).bytes.length → canSend s k (eClass (withLength s e)) (eLength (withLength s e) - 4 + 20) = true → s.clear (hatchNo 0x19 k) = true → linkSecured s k = false →
    ∃ t, exec (.parcelSend k c dt) s = .next t ∧ phOf t (4096 + k * 8 + c) = r ∧ (t.link k).next = ((s.link k).next + 1) % 4096 ∧ (t.link k).unacked.map (·.seq) = (s.link k).unacked.map (·.seq) ++ [(s.link k).next] ∧
      (t.link k).lastTx = parcelOf s k { dataInfo (advance s dt) k (withLength s e) with seq := (s.link k).next } ((s.frame (eCell (withLength s e))).bytes.take (eLength (withLength s e) - 4))) ∧
  (∀ (s : State) (k c dt : Nat) (e : Env) (r : List Env), s.dataPath = true → k < 32 → c < 8 → linkState s k = 4 → phOf s (4096 + k * 8 + c) = e :: r → eCut (withLength s e) = true →
    (s.frame (eCell (withLength s e))).ended = 2 →
    ∃ t, exec (.parcelSend k c dt) s = .next t ∧ phOf t (4096 + k * 8 + c) = r ∧ (t.link k).next = (s.link k).next ∧ (t.link k).lastTx = (s.link k).lastTx) ∧
  (∀ (s : State) (k dt : Nat), s.dataPath = true → k < 32 → linkState s k = 4 → ((s.link k).timeSentAt = 0 ∨ (s.link k).timeSentAt + 1000000 * nsUnit ≤ s.up + dt) → linkSecured s k = false →
    ∃ t, exec (.timeSend k dt) s = .next t ∧ (t.link k).timeNo = ((s.link k).timeNo + 1) % 2 ^ 32 ∧ (t.link k).timeSentAt = s.up + dt ∧ pType (t.link k).lastTx = 7 ∧
      (t.link k).timesSent.getLast? = some (((s.link k).timeNo + 1) % 2 ^ 32, (((advance s dt).now : Int) + psUnits (s.rf (Reg.linkAdj k) 31 16)).toNat)) ∧
  (∀ (s : State) (k dt at_ : Nat) (b : List Byte), receives s k b 7 = true →
    ∃ t, exec (.timeRx k dt at_ b) s = .next t ∧ (t.link k).timeRx = some (beNat (slice (pPayload b) 36 4), rxPm s k at_) ∧ (k ≠ timeParent s → t.now = (advance s dt).now ∧ t.time = (advance s dt).time)) ∧
  (∀ (s : State) (k dt at_ n t1 n4 t4 : Nat) (b : List Byte), receives s k b 7 = true → ((s.link k).timesSent.find? fun q => q.1 == beNat (slice (pPayload b) 32 4)) = some (n, t1) →
    (s.link k).timeRx = some (n4, t4) → n4 + 1 = beNat (slice (pPayload b) 36 4) →
    ∃ t, exec (.timeRx k dt at_ b) s = .next t ∧ (t.link k).delay = (((t4 : Int) - t1) - ((pmTime (slice (pPayload b) 0 16) : Int) - pmTime (slice (pPayload b) 16 16))) / 2) ∧
  (∀ (s : State) (k dt : Nat) (b : List Byte) (a : Alarm), receives s k b 8 = true → inOrder s k b = true → pLen b = 32 →
    a = { alarmOf ((List.range 8).map fun j => beNat (slice b (16 + 4 * j) 4)) with fwd := true } → alarmForwards (accepted s k dt b) a = false →
    ∃ t, exec (.alarmRx k dt b) s = .next t ∧ t.evt.inbox = s.evt.inbox ++ [a] ∧ (t.link k).exp = ((s.link k).exp + 1) % 4096) ∧
  (∀ (s : State) (k dt : Nat) (a : Alarm), s.dataPath = true → k < 32 → linkState s k = 4 → (s.link k).alarms = [a] → (s.link k).sums = [] → (s.link k).ovr = none → a.sev < 4 →
    alarmRoom (advance s dt) k (modeLanes s k) 1 = true → canSend s k 0 52 = true → linkSecured s k = false →
    ∃ t, exec (.alarmParcelSend k dt) s = .next t ∧ (t.link k).alarms = [] ∧ (t.link k).next = ((s.link k).next + 1) % 4096 ∧
      pPayload (t.link k).lastTx = (alarmWords { a with fwd := true }).flatMap fun w => beBytes 4 w.toNat) ∧
  (∀ (s : State) (k dt : Nat) (b : List Byte), receives s k b 5 = true → inOrder s k b = true → (s.link k).ctl = [] → (s.link k).unacked = [] → canSend (accepted s k dt b) k 0 53 = true → s.cour.seal_.length = 32 →
    ∃ t, exec (.sealReqRx k dt b) s = .next t ∧ pType (t.link k).lastTx = 6 ∧ pPayload (t.link k).lastTx = s.cour.seal_ ++ beBytes 1 s.epoch.sealEpoch) ∧
  (∀ (s : State) (k dt : Nat) (b : List Byte), receives s k b 6 = true → inOrder s k b = true →
    ∃ t, exec (.sealRespRx k dt b) s = .next t ∧ (t.link k).peerSeal = slice (pPayload b) 0 32 ∧ (t.link k).exp = ((s.link k).exp + 1) % 4096 ∧ t.frames = s.frames) ∧
  (∀ (s : State) (m : Nat) (v : Word), s.life.rails = true → takes s m Reg.peerSealSel v = true → bitOf v 31 = true → openStates.contains (linkState s (fld v 4 0)) = true → (s.link (fld v 4 0)).ctl = [] →
    canSend s (fld v 4 0) 0 20 = true → linkSecured s (fld v 4 0) = false →
    ∃ t, exec (.sealReq m v) s = .next t ∧ (t.link (fld v 4 0)).next = ((s.link (fld v 4 0)).next + 1) % 4096 ∧ pType (t.link (fld v 4 0)).lastTx = 5) ∧
  (∀ (s u : State) (k dt at_ : Nat) (b : List Byte), s.dataPath = true → k < 32 → openStates.contains (linkState s k) = true → pGood b = true → pType b = 1 → openParcel (advance s dt) k b = (u, none) →
    exec (.dataRx k dt at_ b) s = .next u) ∧
  (∀ (s u : State) (k dt at_ : Nat) (b q : List Byte), s.dataPath = true → k < 32 → openStates.contains (linkState s k) = true → pGood b = true → pReserved b = false → pType b = 1 →
    openParcel (advance s dt) k b = (u, some q) →
    exec (.dataRx k dt at_ b) s = .next (receiveSeq (takeAck u k (pAck b) (pf b 3 10 4)) k q (acceptData k at_ q))) ∧
  (∀ (s u : State) (k dt : Nat) (w : List Byte), s.dataPath = true → k < 32 → linkState s k = 4 → (s.link k).timeSentAt + 1000000 * nsUnit ≤ s.up + dt → linkSecured s k = true →
    (s.link k).timesSent = [] → (s.link k).timeRx = none →
    secureParcel (advance s dt) k (parcelOf s k (ctlInfo s k 7 0) (pmBytes 0 ++ pmBytes 0 ++ beBytes 4 0 ++ beBytes 4 ((s.link k).timeNo + 1))) = (u, some w) →
    ∃ t, exec (.timeSend k dt) s = .next t ∧ (t.link k).lastTx = w ∧ (t.link k).timeSentAt = s.up + dt ∧
      saPn t (linkPort s k) (s.rf (pReg Reg.portMacsecCfg (linkPort s k)) 22 22) = (saPn s (linkPort s k) (s.rf (pReg Reg.portMacsecCfg (linkPort s k)) 22 22) + 1) % 2 ^ 64) ∧
  (∀ (s : State) (k : Nat) (b : List Byte), linkSecured s k = true → bitOf (saWord s (linkPort s k) (s.rf (pReg Reg.portMacsecCfg (linkPort s k)) 22 22) 0) 31 = true →
    saPn s (linkPort s k) (s.rf (pReg Reg.portMacsecCfg (linkPort s k)) 22 22) ≠ 0 →
    saPn s (linkPort s k) (s.rf (pReg Reg.portMacsecCfg (linkPort s k)) 22 22) < pnSpace s (linkPort s k) → 20 ≤ b.length →
    ∃ u w, secureParcel s k b = (u, some w) ∧ w.take 16 = b.take 16 ∧ slice w 20 4 = beBytes 4 (saPn s (linkPort s k) (s.rf (pReg Reg.portMacsecCfg (linkPort s k)) 22 22) % 2 ^ 32) ∧ u.cour.links = s.cour.links) ∧
  (∀ (s : State) (dt : Nat), s.life.rails = true → s.epoch.xmod = true → epochState s = 1 → s.rb Reg.courSealStat 30 = false →
    ∃ t, exec (.sealReady dt) s = .next t ∧ t.cour.pseal = sha256 (canonical (advance s dt)) ∧ t.rb Reg.courSealStat 30 = true ∧ t.cour.links = s.cour.links ∧ t.cour.seal_ = s.cour.seal_) ∧
  (∀ (s : State) (k dt at_ : Nat) (b : List Byte), receives s k b 1 = true → inOrder s k b = true → sealPasses (accepted s k dt b) k b (rxPm (accepted s k dt b) k at_) = true →
    exec (.dataRx k dt at_ b) s = .next (forwardAll ((accepted s k dt b).withLink k fun l => { l with rxBuf := l.rxBuf ++ [(rxPm s k at_, b)] }) k)) ∧
  (∀ (s : State) (k dt at_ : Nat) (b : List Byte), receives s k b 1 = true → inOrder s k b = true → sealPasses (accepted s k dt b) k b (rxPm (accepted s k dt b) k at_) = false →
    exec (.dataRx k dt at_ b) s = .next ((accepted s k dt b).count (Reg.courXsealDropCnt k))) ∧
  (∀ (s : State) (k c dt : Nat) (e : Env) (r : List Env), s.dataPath = true → k < 32 → c < 8 → linkState s k = 4 → phOf s (4096 + k * 8 + c) = e :: r →
    (c = 7 ∨ phOf s (4096 + k * 8 + 7) = []) → (s.frame (eCell (withLength s e))).ended = 1 →
    (c = 7 ∨ ((s.frame (eCell (withLength s e))).bytes.take (if eTrunc (withLength s e) then min 124 (eLength (withLength s e) - 4) else eLength (withLength s e) - 4)).length ≤ s.rf (Reg.linkCfg k) 29 16) → canSend s k (eClass (withLength s e)) (((s.frame (eCell (withLength s e))).bytes.take (if eTrunc (withLength s e) then min 124 (eLength (withLength s e) - 4) else eLength (withLength s e) - 4)).length + 20) = true → s.clear (hatchNo 0x19 k) = true →
    ∃ t, exec (.parcelSend k c dt) s = .next t ∧ phOf t (4096 + k * 8 + c) = r ∧ (t.link k).next = ((s.link k).next + 1) % 4096 ∧ (t.link k).unacked.map (·.seq) = (s.link k).unacked.map (·.seq) ++ [(s.link k).next]) ∧
  (∀ (s : State) (k c dt : Nat) (e : Env) (r : List Env), s.dataPath = true → k < 32 → c < 8 → linkState s k = 6 → phOf s (4096 + k * 8 + c) = e :: r →
    bitOf (ew e 16) 1 = true → (c = 7 ∨ phOf s (4096 + k * 8 + 7) = []) → (s.frame (eCell (withLength s e))).ended = 1 →
    (c = 7 ∨ ((s.frame (eCell (withLength s e))).bytes.take (if eTrunc (withLength s e) then min 124 (eLength (withLength s e) - 4) else eLength (withLength s e) - 4)).length ≤ s.rf (Reg.linkCfg k) 29 16) → canSend s k (eClass (withLength s e)) (((s.frame (eCell (withLength s e))).bytes.take (if eTrunc (withLength s e) then min 124 (eLength (withLength s e) - 4) else eLength (withLength s e) - 4)).length + 20) = true → s.clear (hatchNo 0x19 k) = true →
    ∃ t, exec (.parcelSend k c dt) s = .next t ∧ phOf t (4096 + k * 8 + c) = r ∧ (t.link k).next = ((s.link k).next + 1) % 4096 ∧ (t.link k).unacked.map (·.seq) = (s.link k).unacked.map (·.seq) ++ [(s.link k).next]) ∧
  (∀ (s : State) (k c dt : Nat) (e : Env) (r : List Env), s.dataPath = true → k < 32 → c < 8 → linkState s k = 4 → phOf s (4096 + k * 8 + c) = e :: r →
    c ≠ 7 → phOf s (4096 + k * 8 + 7) = [] → (s.frame (eCell (withLength s e))).ended = 1 → s.rf (Reg.linkCfg k) 29 16 < ((s.frame (eCell (withLength s e))).bytes.take (if eTrunc (withLength s e) then min 124 (eLength (withLength s e) - 4) else eLength (withLength s e) - 4)).length →
    ∃ t, exec (.parcelSend k c dt) s = .next t ∧ phOf t (4096 + k * 8 + c) = r ∧ (t.link k).next = (s.link k).next ∧ (t.reg Reg.courGmaxCnt).toNat = satAdd 0xFFFFFFFF (s.reg Reg.courGmaxCnt).toNat 1) ∧
  (∀ (s : State) (k dt : Nat), s.dataPath = true → k < 32 → linkState s k = 4 → ((s.link k).timeSentAt = 0 ∨ (s.link k).timeSentAt + 1000000 * nsUnit ≤ s.up + dt) →
    ∃ t, exec (.timeSend k dt) s = .next t ∧ (t.link k).timeNo = ((s.link k).timeNo + 1) % 2 ^ 32 ∧ (t.link k).timeSentAt = s.up + dt ∧
      (t.link k).timesSent.getLast? = some (((s.link k).timeNo + 1) % 2 ^ 32, (((advance s dt).now : Int) + psUnits (s.rf (Reg.linkAdj k) 31 16)).toNat)) ∧
  (∀ (s : State) (k dt : Nat) (b : List Byte), receives s k b 8 = true → inOrder s k b = true →
    ∃ t, exec (.alarmRx k dt b) s = .next t ∧ (t.link k).exp = ((s.link k).exp + 1) % 4096 ∧ t.frames = s.frames) ∧
  (∀ (s : State) (k dt n : Nat), s.dataPath = true → k < 32 → linkState s k = 4 → n = ((alarmOrder (s.link k)).take 8).length → n ≠ 0 → alarmRoom (advance s dt) k (modeLanes s k) n = true →
    canSend s k 0 (32 * n + 20) = true →
    ∃ t, exec (.alarmParcelSend k dt) s = .next t ∧ (t.link k).next = ((s.link k).next + 1) % 4096 ∧ (t.link k).alarmAt = s.up + dt ∧
      (linkSecured s k = false → pPayload (t.link k).lastTx = ((alarmOrder (s.link k)).take 8).flatMap fun a => (alarmWords { a.1 with fwd := true }).flatMap fun w => beBytes 4 w.toNat)) ∧
  (∀ (s : State) (k dt : Nat) (b : List Byte), receives s k b 5 = true → inOrder s k b = true →
    exec (.sealReqRx k dt b) s = .next (queueCtl (accepted s k dt b) k 6 (slice s.cour.seal_ 0 32 ++ beBytes 1 s.epoch.sealEpoch))) ∧
  (∀ (s : State) (m : Nat) (v : Word), s.life.rails = true → takes s m Reg.peerSealSel v = true → bitOf v 31 = true → openStates.contains (linkState s (fld v 4 0)) = true → (s.link (fld v 4 0)).ctl = [] →
    canSend s (fld v 4 0) 0 20 = true →
    ∃ t, exec (.sealReq m v) s = .next t ∧ (t.link (fld v 4 0)).next = ((s.link (fld v 4 0)).next + 1) % 4096 ∧ (t.link (fld v 4 0)).unacked.length = (s.link (fld v 4 0)).unacked.length + 1) ∧
  (∀ (s : State) (m : Nat) (v : Word), s.life.rails = true → takes s m Reg.peerSealSel v = true → bitOf v 31 = true → openStates.contains (linkState s (fld v 4 0)) = true → (s.link (fld v 4 0)).ctl = [] →
    canSend s (fld v 4 0) 0 20 = false →
    ∃ t, exec (.sealReq m v) s = .next t ∧ (t.link (fld v 4 0)).ctl = [(5, [])] ∧ (t.link (fld v 4 0)).next = (s.link (fld v 4 0)).next)

/-- R440, R441, R446, R447, R450: a moving bucket goes to its new way once nothing of it is left on the old one, or after 50 µs with a count; the monitor begins at most one move an interval; reseeding gives every
group a new seed; the select registers write and read route entries and groups. Bucket moves rest on log entry 46. -/
def Obligations.BucketsRoutesAndGroups : Prop :=
  (∀ (s : State) (g b dt u : Nat) (x : BucketMove), s.dataPath = true → b < (s.group g).buckets.length → moveOf (noteClear (advance s dt)) g b = some x → x.clearAt = some u →
    u + s.rf Reg.courMpCfg 15 8 * 1000 * nsUnit ≤ s.up + dt → x.held = [] →
    ∃ t, exec (.bucketMoveDrain g b dt) s = .next t ∧ (t.group g).buckets.getD b 8 = x.new ∧ moveOf t g b = none ∧ t.regs = s.regs ∧ (∀ j < 256, j ≠ b → (t.group g).buckets.getD j 8 = (s.group g).buckets.getD j 8)) ∧
  (∀ (s : State) (g b dt : Nat) (x : BucketMove), s.dataPath = true → b < (s.group g).buckets.length → moveOf s g b = some x → x.since + 50000 * nsUnit ≤ s.up + dt → x.held = [] →
    (s.reg Reg.courOrderRiskCnt).toNat < 0xFFFFFFFE →
    ∃ t, exec (.bucketMoveTimeout g b dt) s = .next t ∧ (t.group g).buckets.getD b 8 = x.new ∧ moveOf t g b = none ∧ (t.reg Reg.courOrderRiskCnt).toNat = (s.reg Reg.courOrderRiskCnt).toNat + 1) ∧
  (∀ (s : State) (g dt : Nat), s.dataPath = true → g < 256 → 2 ≤ (usableWays s g).length → (s.group g).monAt + s.rf Reg.courMpCfg 7 0 * 1000000 * nsUnit ≤ s.up + dt → monitorPick s g = none →
    ∃ t, exec (.bucketMonitor g dt) s = .next t ∧ (t.group g).intervals = (s.group g).intervals + 1 ∧ (t.group g).bytes = [] ∧ (t.group g).monAt = s.up + dt ∧ (t.group g).buckets = (s.group g).buckets ∧
      (t.group g).moves = (s.group g).moves) ∧
  (∀ (s : State) (g dt b dst : Nat), s.dataPath = true → g < 256 → 2 ≤ (usableWays s g).length → (s.group g).monAt + s.rf Reg.courMpCfg 7 0 * 1000000 * nsUnit ≤ s.up + dt → monitorPick s g = some (b, dst) →
    ∃ t, exec (.bucketMonitor g dt) s = .next t ∧ ((moveOf t g b).map fun x => (x.new, x.since)) = some (dst, s.up + dt) ∧ (t.group g).moves.length = (s.group g).moves.length + 1 ∧
      (t.group g).buckets = (s.group g).buckets) ∧
  (∀ (s : State) (dt : Nat), s.life.rails = true → s.rf Reg.courMpCfg 23 16 ≠ 0 → s.cour.reseedAt + s.rf Reg.courMpCfg 23 16 * secUnit ≤ s.up + dt →
    ∃ t, exec (.reseed dt) s = .next t ∧ t.cour.seedGen = s.cour.seedGen + 1 ∧ t.cour.reseedAt = s.up + dt ∧ t.cour.groups = s.cour.groups) ∧
  (∀ (s : State) (m : Nat) (v : Word), s.life.rails = true → takes s m Reg.courMpCfg v = true → bitOf v 31 = true →
    ∃ t, exec (.reseedNow m v) s = .next t ∧ t.cour.seedGen = s.cour.seedGen + 1 ∧ t.cour.reseedAt = s.up ∧ t.cour.groups = s.cour.groups) ∧
  (∀ (s : State) (m : Nat) (v : Word), s.life.rails = true → takes s m Reg.routeSel v = true → bitOf v 31 = true →
    ∃ t, exec (.routeWrite m v) s = .next t ∧ routeOf t (fld v 9 0) = s.reg Reg.routeData ∧ (∀ d < 1024, d ≠ fld v 9 0 → routeOf t d = routeOf s d) ∧ t.reg Reg.routeData = s.reg Reg.routeData) ∧
  (∀ (s : State) (m : Nat) (v : Word), s.life.rails = true → takes s m Reg.routeSel v = true → bitOf v 31 = false → bitOf v 30 = true →
    ∃ t, exec (.routeRead m v) s = .next t ∧ t.reg Reg.routeData = routeOf s (fld v 9 0) ∧ t.cour = s.cour) ∧
  (∀ (s : State) (m : Nat) (v : Word), s.life.rails = true → takes s m Reg.grpSel v = true → bitOf v 31 = true →
    ∃ t, exec (.groupWrite m v) s = .next t ∧
      (t.group (fld v 7 0)).ways = (waysOf (s.reg Reg.grpWays0) (s.reg Reg.grpWays1)).map (fun w => w % 32 + (if w.testBit 7 then 128 else 0)) ∧ t.cour.routes = s.cour.routes) ∧
  (∀ (s : State) (m : Nat) (v : Word), s.life.rails = true → takes s m Reg.grpSel v = true → bitOf v 31 = false → bitOf v 30 = true →
    ∃ t, exec (.groupRead m v) s = .next t ∧ t.reg Reg.grpWays0 = wayWord (s.group (fld v 7 0)).ways 0 ∧ t.reg Reg.grpWays1 = wayWord (s.group (fld v 7 0)).ways 4 ∧ t.cour = s.cour) ∧
  (∀ (s : State) (g b dt u : Nat) (x : BucketMove), s.dataPath = true → b < (s.group g).buckets.length → moveOf (noteClear (advance s dt)) g b = some x → x.clearAt = some u →
    u + s.rf Reg.courMpCfg 15 8 * 1000 * nsUnit ≤ s.up + dt →
    ∃ t, exec (.bucketMoveDrain g b dt) s = .next t ∧ (t.group g).buckets.getD b 8 = x.new ∧ moveOf t g b = none) ∧
  (∀ (s : State) (g b dt : Nat) (x : BucketMove), s.dataPath = true → b < (s.group g).buckets.length → moveOf s g b = some x → x.since + 50000 * nsUnit ≤ s.up + dt →
    ∃ t, exec (.bucketMoveTimeout g b dt) s = .next t ∧ (t.group g).buckets.getD b 8 = x.new ∧ moveOf t g b = none)

/-- R383, R384, R392, R480, R481, R482, R484, R485, R486, R487, R490: a tenancy reset leaves the tenancy HELD with nothing of it in the Depot's pigeonholes, no balance and a region that reads 0, and a release ends the
hold; key slots are written from the data registers, which are cleared, and erased, by function 0 or their tenancy; fuses take the running SVN and revocations; BAR2 reaches a function's region and no more. That the 200 µs of a tenancy reset are one step is the model's choice (log entry 17). -/
def Obligations.TenanciesKeysAndFuses : Prop :=
  (∀ (s : State) (m : Nat) (v : Word), s.life.rails = true → takes s m Reg.tenCtl v = true → bitOf v 31 = true → tenCtlRefused v s = false →
    ∃ t, exec (.tenReset m v) s = .next t ∧ t.rf (Reg.tenStatus (fld v 3 0)) 31 30 = 2 ∧ t.rb (Reg.tenStatus (fld v 3 0)) 29 = true ∧ acctBal t (fld v 3 0 + 1) = 0 ∧ t.up = s.up + 200000 * nsUnit ∧
      (t.depot.ph.all fun p => p.2.all fun e => eTenancy e != fld v 3 0) = true ∧
      (∀ a, regionBase s (fld v 3 0) ≤ a → a < regionBase s (fld v 3 0) + regionSize s (fld v 3 0) → memByte t.dram.mem a = 0) ∧
      (∀ g < 64, gState s g ≠ 0 → gTen s g = fld v 3 0 → gState t g = 0)) ∧
  (∀ (s : State) (m : Nat) (v : Word), s.life.rails = true → takes s m Reg.tenCtl v = true → bitOf v 31 = true → tenCtlRefused v s = true → exec (.tenReset m v) s = .next (s.reject Reg.tenCtl)) ∧
  (∀ (s : State) (m : Nat) (v : Word), s.life.rails = true → takes s m Reg.tenCtl v = true → bitOf v 31 = false → bitOf v 30 = true → s.rf (Reg.tenStatus (fld v 3 0)) 31 30 = 2 →
    ∃ t, exec (.tenRelease m v) s = .next t ∧ t.rf (Reg.tenStatus (fld v 3 0)) 31 30 = 0 ∧ t.depot = s.depot ∧ t.dram = s.dram) ∧
  (∀ (s : State) (m : Nat) (v : Word), s.life.rails = true → takes s m Reg.kslotCfg v = true → bitOf v 31 = true → kslotRefused m v s = false →
    ∃ t, exec (.kslotWr m v) s = .next t ∧
      keyIn t (fld v 11 0) = some { typ := fld v 23 22, tenancy := fld v 27 24, persist := bitOf v 29, len := fld v 18 12,
                                    data := ((List.range 16).flatMap fun w => leBytes 4 (s.reg (Reg.kslotData w)).toNat).take (if fld v 23 22 = 1 then 16 else if fld v 23 22 = 2 then 32 else fld v 18 12) } ∧
      (∀ w < 16, t.reg (Reg.kslotData w) = 0) ∧ (∀ i < 4096, i ≠ fld v 11 0 → keyIn t i = keyIn s i)) ∧
  (∀ (s : State) (m : Nat) (v : Word), s.life.rails = true → takes s m Reg.kslotCfg v = true → bitOf v 31 = true → kslotRefused m v s = true → exec (.kslotWr m v) s = .next (s.reject Reg.kslotCfg)) ∧
  (∀ (s : State) (m : Nat) (v : Word), s.life.rails = true → takes s m Reg.kslotCfg v = true → bitOf v 31 = false → bitOf v 30 = true → mayErase s (funcOf m) (fld v 11 0) = true →
    ∃ t, exec (.kslotErase m v) s = .next t ∧ keyIn t (fld v 11 0) = none ∧ (∀ i < 4096, i ≠ fld v 11 0 → keyIn t i = keyIn s i)) ∧
  (∀ (s : State) (m : Nat) (v : Word), s.life.rails = true → takes s m Reg.bootCtl v = true → m = 0x0F00 → bitOf v 31 = true → bitOf v 30 = false → s.mode = 1 → s.otp.svn < s.rf Reg.bootStat 13 8 →
    ∃ t, exec (.commitSvn m v) s = .next t ∧ t.otp.svn = s.rf Reg.bootStat 13 8 ∧ t.rf Reg.bootStat 19 14 = s.rf Reg.bootStat 13 8 ∧ t.otp.revoked = s.otp.revoked ∧ t.otp.hashes = s.otp.hashes) ∧
  (∀ (s : State) (m : Nat) (v : Word), s.life.rails = true → takes s m Reg.bootCtl v = true → m = 0x0F00 → bitOf v 31 = false → bitOf v 30 = true → s.mode = 1 → fld v 1 0 ≠ s.rf Reg.bootStat 1 0 → hashesLive s ≠ [fld v 1 0] →
    ∃ t, exec (.revoke m v) s = .next t ∧ t.otp.revoked.contains (fld v 1 0) = true ∧ t.otp.svn = s.otp.svn) ∧
  (∀ (s : State) (f a : Nat) (d : List Byte), s.life.rails = true → f < 16 → a % 4 = 0 → a + 4 ≤ 0x10000000 → s.rf (Reg.pfWin f) 7 0 * 0x10000000 + a + 4 ≤ regionSize s f → s.dramReady = true →
    ∃ t, exec (.bar2Access f a false d) s = .next t ∧ t.regs = s.regs ∧
      t.dram.queue = s.dram.queue ++ [⟨⟨7, 0xFE, f, 0xFFFF, 0, false, (regionBase s f + (s.rf (Reg.pfWin f) 7 0 * 0x10000000 + a)) / 64, (regionBase s f + (s.rf (Reg.pfWin f) 7 0 * 0x10000000 + a)) % 64, [], false⟩, s.up⟩]) ∧
  (∀ (s : State) (f a : Nat) (d : List Byte), s.life.rails = true → f < 16 → d ≠ [] → a + d.length ≤ 0x10000000 → regionSize s f < s.rf (Reg.pfWin f) 7 0 * 0x10000000 + a + d.length →
    ((splitLines (d.length + 1) (regionBase s f + (s.rf (Reg.pfWin f) 7 0 * 0x10000000 + a)) d).all fun p => hasRoom s ⟨7, 0xFE, f, 0xFFFF, 0, true, p.1, p.2.1, p.2.2, false⟩) = true →
    (s.reg Reg.tenDenyCnt).toNat < 0xFFFFFFFE →
    ∃ t, exec (.bar2Access f a true d) s = .next t ∧ t.dram = s.dram ∧ (t.reg Reg.tenDenyCnt).toNat = (s.reg Reg.tenDenyCnt).toNat + 1) ∧
  (∀ (s : State) (m : Nat) (v : Word), s.life.rails = true → takes s m Reg.bootCtl v = true → bitOf v 31 = true → bootCtlRefused m v s = false →
    ∃ t, exec (.commitSvn m v) s = .next t ∧ t.otp.svn = s.rf Reg.bootStat 13 8 ∧ (bitOf v 30 = true → t.otp.revoked.contains (fld v 1 0) = true)) ∧
  (∀ (s : State) (f a : Nat) (d : List Byte), s.life.rails = true → f < 16 → d ≠ [] → a + d.length ≤ 0x10000000 → s.rf (Reg.pfWin f) 7 0 * 0x10000000 + a + d.length ≤ regionSize s f → s.dramReady = true →
    ((splitLines (d.length + 1) (regionBase s f + (s.rf (Reg.pfWin f) 7 0 * 0x10000000 + a)) d).all fun p => hasRoom s ⟨7, 0xFE, f, 0xFFFF, 0, true, p.1, p.2.1, p.2.2, false⟩) = true →
    ∃ t, exec (.bar2Access f a true d) s = .next t ∧ t.dram.mem = s.dram.mem ∧
      t.dram.queue = s.dram.queue ++ (splitLines (d.length + 1) (regionBase s f + (s.rf (Reg.pfWin f) 7 0 * 0x10000000 + a)) d).map fun p =>
        ⟨⟨7, 0xFE, f, 0xFFFF, 0, true, p.1, p.2.1, p.2.2, false⟩, s.up⟩)

/-- R513: VIN_12 below THRESH for 40 µs, or below 9.0 V for 2 µs, is a sag, which begins HOLDUP; a dip below THRESH that ends sooner is counted in LIFE_DIP_CNT, and the mode and the rails stay. -/
def Obligations.SagsAndDips : Prop :=
  (∀ (s : State) (dt vin dur : Nat), vin < s.rf Reg.lifeSagCfg 7 0 * 10 ∧ 40000 * nsUnit ≤ dur ∨ vin < 900 ∧ 2000 * nsUnit ≤ dur → s.mayHold = true → (s.reg Reg.lifeSagCnt).toNat < 0xFFFFFFFE →
    ∃ t, exec (.sag dt vin dur) s = .next t ∧ t.mode = 5 ∧ t.life.rails = false ∧ t.life.holdCause = 2 ∧ t.life.vin = vin ∧ t.life.saving.isSome = true ∧ (t.reg Reg.lifeSagCnt).toNat = (s.reg Reg.lifeSagCnt).toNat + 1) ∧
  (∀ (s : State) (dt vin dur : Nat), (s.rf Reg.lifeSagCfg 7 0 * 10 ≤ vin ∨ dur < 40000 * nsUnit) → (900 ≤ vin ∨ dur < 2000 * nsUnit) → exec (.sag dt vin dur) s = .next (advance s dt)) ∧
  (∀ (s : State) (dt vin dur : Nat), s.life.rails = true → vin < s.rf Reg.lifeSagCfg 7 0 * 10 → dur < 40000 * nsUnit → (900 ≤ vin ∨ dur < 2000 * nsUnit) → (s.reg Reg.lifeDipCnt).toNat < 0xFFFFFFFE →
    ∃ t, exec (.vinDipEnd dt vin dur) s = .next t ∧ t.mode = s.mode ∧ t.life = s.life ∧ (t.reg Reg.lifeDipCnt).toNat = (s.reg Reg.lifeDipCnt).toNat + 1 ∧ (∀ k, k ≠ Reg.lifeDipCnt → t.reg k = s.reg k))

/-- R499, R500, R502, R503, R504, R505, R506, R508, R510, R511, R515, R517, R532, R560: power and reset begin ENTRY and leave the fuses as they are, ENTRY ends in SETUP with a verified image or stalls with its
cause; a removal, ENABLE low, heat and RESTART begin HOLDUP with their causes; WITHDRAW_REQ_N and LIFE_CTL begin WITHDRAW and arm service. ENTRY as one command at its end is log entry 22, its image checks log entry 21. -/
def Obligations.ModesChangeByTheirCauses : Prop :=
  (∀ (s : State) (dt vin : Nat) (cy : Bool) (bs bk : List Nat), 1080 ≤ vin → s.life.rails = false → s.life.dark = true →
    ∃ t, exec (.powerUp dt vin cy bs bk) s = .next t ∧ t.mode = 0 ∧ t.rf Reg.lifeMode 19 16 = 0 ∧ t.life.rails = true ∧ t.otp = s.otp ∧ t.flash = s.flash ∧ t.frames = [] ∧ t.pending = s.pending) ∧
  (∀ (s : State) (dt b : Nat) (be bl bc ecc : List Nat) (l : List Section), entering s = true → s.dram.trained = true → testOver (advance s dt) = true → (verify s ecc).bank = some b → imageOf s b = some l →
    (l.all fun x => x.1 != 3) = true → hallGone (selfTest (advance s dt) be bl bc) = false →
    ∃ t, exec (.entryComplete dt be bl bc ecc) s = .next t ∧ t.mode = 1 ∧ t.life.wdreqArmed = s.life.wdreqHigh ∧ t.otp = s.otp) ∧
  (∀ (s : State) (dt : Nat) (be bl bc ecc : List Nat), entering s = true →
    ∃ t, exec (.entryStall dt 3 be bl bc ecc) s = .next t ∧ t.mode = 0 ∧ t.rf Reg.lifeMode 31 24 = 3 ∧ t.replaceAsserted = true) ∧
  (∀ (s : State) (dt : Nat), s.life.presentHigh = false → s.mayHold = true → ∃ t, exec (.removal dt) s = .next t ∧ t.mode = 5 ∧ t.life.rails = false ∧ t.life.holdCause = 3 ∧ t.life.presentHigh = true) ∧
  (∀ (s : State) (dt : Nat), s.life.enableHigh = true → s.mayHold = true → ∃ t, exec (.enableLow dt) s = .next t ∧ t.mode = 5 ∧ t.life.rails = false ∧ t.life.holdCause = 4 ∧ t.life.enableHigh = false) ∧
  (∀ (s : State) (dt w : Nat) (bs bk : List Nat), 10000 * nsUnit ≤ w → s.mode ≠ 5 → s.life.rails = true →
    ∃ t, exec (.sysReset dt w bs bk) s = .next t ∧ t.mode = 0 ∧ t.rf Reg.lifeMode 19 16 = 2 ∧ t.life.rails = true ∧ t.otp = s.otp ∧ t.flash = s.flash) ∧
  (∀ (s : State) (dt w : Nat) (bs bk : List Nat), w < 1000 * nsUnit → exec (.sysReset dt w bs bk) s = .next (advance s dt)) ∧
  (∀ (s : State), exec .perst s = .next s) ∧
  (∀ (s : State) (dt : Nat), s.life.rails = true → s.life.wdreqHigh = true → s.life.wdreqArmed = true → 1 ≤ s.mode → s.mode ≤ 3 →
    ∃ t, exec (.withdrawReq dt false) s = .next t ∧ t.mode = 4 ∧ t.life.wdreqArmed = false ∧ t.life.wdAt = s.up + dt) ∧
  (∀ (s : State) (dt : Nat), s.life.rails = true → s.life.wdreqHigh = false → s.life.wdreqStuck = false → s.life.wdreqSince + 60 * secUnit ≤ s.up + dt →
    ∃ t, exec (.wdreqStuck dt) s = .next t ∧ t.rb Reg.wdreqStat 30 = true ∧ t.mode = s.mode ∧ t.evt.inbox.length = s.evt.inbox.length + 1) ∧
  (∀ (s : State) (m : Nat) (v : Word), s.life.rails = true → takes s m Reg.lifeCtl v = true → bitOf v 31 = true → bitOf v 30 = false → bitOf v 29 = false → bitOf v 28 = false → s.mode = 1 →
    ∃ t, exec (.svcArm m v) s = .next t ∧ t.rb Reg.lifeMode 8 = true ∧ t.mode = 1) ∧
  (∀ (s : State) (m : Nat) (v : Word), s.life.rails = true → takes s m Reg.lifeCtl v = true → bitOf v 31 = true → s.mode ≠ 1 → exec (.svcArm m v) s = .next (s.reject Reg.lifeCtl)) ∧
  (∀ (s : State) (m : Nat) (v : Word), s.life.rails = true → takes s m Reg.lifeCtl v = true → bitOf v 31 = false → bitOf v 30 = true → bitOf v 29 = false → bitOf v 28 = false → s.rf Reg.epochStatus 18 16 ≠ 2 →
    ∃ t, exec (.svcDisarm m v) s = .next t ∧ t.rb Reg.lifeMode 8 = false ∧ t.mode = s.mode) ∧
  (∀ (s : State) (m : Nat) (v : Word), s.life.rails = true → takes s m Reg.lifeCtl v = true → bitOf v 31 = false → bitOf v 30 = false → bitOf v 29 = true → bitOf v 28 = false → 1 ≤ s.mode → s.mode ≤ 3 →
    ∃ t, exec (.lifeWithdraw m v) s = .next t ∧ t.mode = 4 ∧ t.rb Reg.lifeMode 8 = false ∧ t.life.wdAt = s.up ∧ t.life.wdStopped = false) ∧
  (∀ (s : State) (m : Nat) (v : Word), s.life.rails = true → takes s m Reg.lifeCtl v = true → bitOf v 31 = false → bitOf v 30 = false → bitOf v 29 = false → bitOf v 28 = true → 1 ≤ s.mode → s.mode ≤ 3 →
    ∃ t, exec (.lifeRestart m v) s = .next t ∧ t.mode = 5 ∧ t.life.holdCause = 6 ∧ t.life.rails = false ∧ t.life.saving.isSome = true) ∧
  (∀ (s : State) (dt u : Nat), s.mayHold = true → s.ledg.critSince = some u → u + 100 * msUnit ≤ s.up + dt →
    ∃ t, exec (.thermalShutdown dt) s = .next t ∧ t.mode = 5 ∧ t.life.holdCause = 5 ∧ t.life.rails = false) ∧
  (∀ (s : State) (dt vin held : Nat) (cy : Bool) (bs bk : List Nat), s.mode = 5 → s.life.parked = true → s.life.dark = false → 1080 ≤ vin → 10 * msUnit ≤ held → s.life.holdCause ≠ 5 →
    ∃ t, exec (.powerReturn dt vin held cy bs bk) s = .next t ∧ t.mode = 0 ∧ t.rf Reg.lifeMode 19 16 = 1 ∧ t.life.rails = true ∧ t.otp = s.otp) ∧
  (∀ (s : State) (dt : Nat), s.mode = 5 → s.life.parked = true → s.life.dark = false →
    ∃ t, exec (.capDepleted dt) s = .next t ∧ t.life.dark = true ∧ t.cellar.strong = [] ∧ t.cellar.images = s.cellar.images ∧ t.mode = 5) ∧
  (∀ (s : State) (dt vin : Nat) (cy : Bool) (bs bk : List Nat), 1080 ≤ vin → s.life.rails = false → s.life.dark = false → s.life.ejectOk = true → cy = true ∨ s.life.cycled = true →
    ∃ t, exec (.powerUp dt vin cy bs bk) s = .next t ∧ t.mode = 0 ∧ t.rf Reg.lifeMode 19 16 = 0 ∧ t.life.rails = true ∧ t.otp = s.otp ∧ t.flash = s.flash) ∧
  (∀ (s : State) (dt b : Nat) (be bl bc ecc : List Nat), entering s = true → s.dram.trained = true → testOver (advance s dt) = true → (verify s ecc).bank = some b →
    hallGone (selfTest (advance s dt) be bl bc) = false →
    ∃ t, exec (.entryComplete dt be bl bc ecc) s = .next t ∧ t.life.wdreqArmed = t.life.wdreqHigh ∧ t.pending = s.pending) ∧
  (∀ (s : State) (dt : Nat) (be bl bc ecc : List Nat), entering s = true → (verify s ecc).bank = none →
    ∃ t, exec (.entryStall dt 1 be bl bc ecc) s = .next t ∧ t.mode = 0 ∧ t.rf Reg.lifeMode 31 24 = 1 ∧ t.life.rails = s.life.rails) ∧
  (∀ (s : State) (dt : Nat) (be bl bc ecc : List Nat), entering s = true → hallGone (selfTest (advance s dt) be bl bc) = true →
    ∃ t, exec (.entryStall dt 2 be bl bc ecc) s = .next t ∧ t.mode = 0 ∧ t.rf Reg.lifeMode 31 24 = 2 ∧ t.replaceAsserted = true) ∧
  (∀ (s : State) (dt w : Nat) (bs bk : List Nat), 10000 * nsUnit ≤ w → s.mode = 5 → s.life.saving.isSome = true →
    ∃ t, exec (.sysReset dt w bs bk) s = .next t ∧ t.mode = 5 ∧ t.life.resetHeld = true ∧ t.life.saving = s.life.saving) ∧
  (∀ (s : State) (dt : Nat), s.life.rails = true → s.life.wdreqHigh = false →
    ∃ t, exec (.withdrawReq dt true) s = .next t ∧ t.mode = s.mode ∧ t.life.wdreqHigh = true ∧ (t.life.wdreqArmed = true ↔ s.mode ≠ 0)) ∧
  (∀ (s : State) (m : Nat) (v : Word), s.life.rails = true → takes s m Reg.lifeCtl v = true → bitOf v 31 = true → bitOf v 29 = false → bitOf v 28 = false → lifeCtlRefused v s = false →
    ∃ t, exec (.svcArm m v) s = .next t ∧ (t.rb Reg.lifeMode 8 = true ↔ bitOf v 30 = false) ∧ t.mode = s.mode) ∧
  (∀ (s : State) (m : Nat) (v : Word), s.life.rails = true → takes s m Reg.lifeCtl v = true → bitOf v 31 = true → bitOf v 29 = true → bitOf v 28 = false → lifeCtlRefused v s = false →
    ∃ t, exec (.svcArm m v) s = .next t ∧ t.rb Reg.lifeMode 8 = false ∧ t.mode = 4) ∧
  (∀ (s : State) (m : Nat) (v : Word), s.life.rails = true → takes s m Reg.lifeCtl v = true → bitOf v 31 = true → bitOf v 28 = true → lifeCtlRefused v s = false →
    ∃ t, exec (.svcArm m v) s = .next t ∧ t.mode = 5 ∧ t.life.holdCause = 6) ∧
  (∀ (s : State) (m : Nat) (v : Word), s.life.rails = true → takes s m Reg.lifeCtl v = true → bitOf v 31 = false → bitOf v 30 = true → bitOf v 29 = true → bitOf v 28 = false → lifeCtlRefused v s = false →
    ∃ t, exec (.svcDisarm m v) s = .next t ∧ t.rb Reg.lifeMode 8 = false ∧ t.mode = 4) ∧
  (∀ (s : State) (m : Nat) (v : Word), s.life.rails = true → takes s m Reg.lifeCtl v = true → bitOf v 31 = false → bitOf v 30 = true → bitOf v 28 = true → lifeCtlRefused v s = false →
    ∃ t, exec (.svcDisarm m v) s = .next t ∧ t.rb Reg.lifeMode 8 = false ∧ t.mode = 5) ∧
  (∀ (s : State) (m : Nat) (v : Word), s.life.rails = true → takes s m Reg.lifeCtl v = true → bitOf v 31 = false → bitOf v 30 = false → bitOf v 29 = true → bitOf v 28 = true → lifeCtlRefused v s = false →
    ∃ t, exec (.lifeWithdraw m v) s = .next t ∧ t.mode = 5 ∧ t.life.holdCause = 6) ∧
  (∀ (s : State) (dt vin held : Nat) (cy : Bool) (bs bk : List Nat), s.mode = 5 → s.life.parked = true → s.life.dark = false → 1080 ≤ vin → 10 * msUnit ≤ held → cy = true ∨ s.life.cycled = true →
    ∃ t, exec (.powerReturn dt vin held cy bs bk) s = .next t ∧ t.mode = 0 ∧ t.rf Reg.lifeMode 19 16 = 1 ∧ t.life.rails = true ∧ t.otp = s.otp)

/-- R503, R509, R514, R518, R519, R520, R521, R522, R523, R524, R529, R531: WITHDRAW stops admission, drains, saves and powers down; checkpoints are written in turn and read back; the hold-up test measures the capacitor and moves
HOLDUP_LOW; causes clear when their conditions end. What a save takes, and when, is log entries 23 and 58. -/
def Obligations.SavesTestsAndCauses : Prop :=
  (∀ (s : State) (dt : Nat), s.mode = 4 → s.life.rails = true → s.life.wdStopped = false → s.life.wdAt + s.rf Reg.lifeWdCfg 15 0 * msUnit ≤ s.up + dt →
    ∃ t, exec (.withdrawAdmissionStop dt) s = .next t ∧ t.life.wdStopped = true ∧ t.regs = s.regs ∧ t.depot = s.depot) ∧
  (∀ (s : State) (dt : Nat), s.mode = 4 → s.life.rails = true → s.life.wdStopped = true → s.life.wdDrained = false → depotEmpty s = true →
    ∃ t, exec (.withdrawDrainEnd dt) s = .next t ∧ t.life.wdDrained = true ∧ (t.life.saving.map fun p => p.2.kind) = some 7 ∧ t.frames = s.frames ∧ t.mode = 4) ∧
  (∀ (s : State) (dt : Nat), s.mode = 4 → s.life.rails = true → s.life.wdStopped = true → s.life.wdDrained = false → depotEmpty s = false →
    s.life.wdAt + (s.rf Reg.lifeWdCfg 15 0 + s.rf Reg.lifeWdCfg 31 16) * msUnit ≤ s.up + dt →
    ∃ t, exec (.withdrawDrainEnd dt) s = .next t ∧ t.life.wdDrained = true ∧ t.frames = [] ∧ depotEmpty t = true) ∧
  (∀ (s : State) (dt slot : Nat) (im : Image) (bs bk : List Nat), s.mode = 4 → s.life.saving = some (slot, im) → s.rb Reg.lifeCtl 0 = false →
    ∃ t, exec (.saveComplete dt bs bk) s = .next t ∧ t.life.rails = false ∧ t.life.ejectOk = true ∧ t.life.saving = none ∧ t.cellar.newest = some slot ∧ t.cellar.seq = im.seq ∧ t.cellar.images.contains (slot, im) = true) ∧
  (∀ (s : State) (dt slot : Nat) (im : Image) (bs bk : List Nat), s.mode = 4 → s.life.saving = some (slot, im) → s.rb Reg.lifeCtl 0 = true →
    ∃ t, exec (.saveComplete dt bs bk) s = .next t ∧ t.mode = 1 ∧ t.life.rails = s.life.rails ∧ t.life.saving = none ∧ t.cellar.newest = some slot) ∧
  (∀ (s : State) (dt slot : Nat) (im : Image) (bs bk : List Nat), s.mode = 5 → s.life.saving = some (slot, im) → s.life.holdCause ≠ 6 → s.life.resetHeld = false →
    ∃ t, exec (.saveComplete dt bs bk) s = .next t ∧ t.mode = 5 ∧ t.life.parked = true ∧ t.life.saving = none ∧ t.cellar.newest = some slot) ∧
  (∀ (s : State) (dt slot : Nat) (im : Image) (bs bk : List Nat), s.mode = 5 → s.life.saving = some (slot, im) → s.life.holdCause = 6 →
    ∃ t, exec (.saveComplete dt bs bk) s = .next t ∧ t.mode = 0 ∧ t.rf Reg.lifeMode 19 16 = 3 ∧ t.otp = s.otp) ∧
  (∀ (s : State) (dt : Nat), s.life.rails = true → 1 ≤ s.mode → s.mode ≤ 3 → s.rb Reg.ckptCfg 31 = true → s.cellar.ckpt = none → s.cellar.ckptSec < (advance s dt).now / secUnit →
    ∃ t, exec (.checkpoint dt) s = .next t ∧ (t.cellar.ckpt.map fun p => (p.1, p.2.1, p.2.2.kind)) = some (nextSlot s.cellar, s.up + dt, 1) ∧ t.cellar.seq = s.cellar.seq + 1 ∧ t.mode = s.mode ∧ t.cellar.newest = s.cellar.newest) ∧
  (∀ (s : State) (dt slot : Nat), s.life.rails = true → s.cellar.ckpt = none → s.cellar.unread = some slot →
    ∃ t, exec (.checkpointReadback dt [] false) s = .next t ∧ t.cellar.unread = none ∧ t.cellar.images = s.cellar.images ∧ t.regs = s.regs) ∧
  (∀ (s : State) (dt slot b : Nat), s.life.rails = true → s.cellar.ckpt = none → s.cellar.unread = some slot → b < 128 → s.cellar.remapped.length < 112 →
    ∃ t, exec (.checkpointReadback dt [b] true) s = .next t ∧ t.cellar.remapped = s.cellar.remapped ++ [(slot, b)] ∧ t.rf Reg.cellStat 7 0 = s.cellar.remapped.length + 1 ∧
      t.cellar.images = s.cellar.images.filter (fun p => p.1 != slot)) ∧
  (∀ (s : State) (dt vhuc : Nat), s.life.rails = true → s.mode ≠ 5 → s.rb Reg.lifeHucStat 30 = false → s.rb Reg.lifeHucStat 31 = false → s.rf Reg.lifeHucCfg 7 0 * 10 ≤ vhuc →
    ∃ t, exec (.holdupTest dt vhuc) s = .next t ∧ t.rb Reg.lifeHucStat 30 = true ∧ t.life.testAt = s.up + dt ∧ t.mode = s.mode) ∧
  (∀ (s : State) (dt vhuc : Nat), s.life.rails = true → s.mode ≠ 5 → s.rb Reg.lifeHucStat 30 = false → s.rb Reg.lifeHucStat 31 = false → vhuc < s.rf Reg.lifeHucCfg 7 0 * 10 → s.life.chargeAt + secUnit ≤ s.up + dt →
    ∃ t, exec (.holdupTest dt vhuc) s = .next t ∧ t.rb Reg.lifeHealth 3 = true ∧ t.rb Reg.lifeHucStat 30 = false) ∧
  (∀ (s : State) (m : Nat) (v : Word), s.life.rails = true → takes s m Reg.lifeHucCfg v = true → bitOf v 31 = true → s.rb Reg.lifeHucStat 30 = false →
    ∃ t, exec (.testNow m v) s = .next t ∧ t.rb Reg.lifeHucStat 30 = true ∧ t.life.testAt = s.up) ∧
  (∀ (s : State) (dt fall step : Nat), s.life.rails = true → s.rb Reg.lifeHucStat 30 = true → 0 < fall → s.life.testAt + 2 * msUnit ≤ s.up + dt →
    ∃ t, exec (.holdupTestDone dt fall step) s = .next t ∧ t.rf Reg.lifeHucStat 31 30 = 2 ∧ t.rf Reg.lifeHucStat 15 0 = min 65535 (500000000 / fall) ∧ t.rf Reg.lifeHucStat 23 16 = min 255 (step * 4 / 1000) ∧
      (holdupEnergy (500000000 / fall) (testVolts s) (step * 4 / 1000) < 192 → t.rb Reg.lifeHealth 3 = true) ∧
      (211 ≤ holdupEnergy (500000000 / fall) (testVolts s) (step * 4 / 1000) → 2 ≤ s.life.goodTests → t.rb Reg.lifeHealth 3 = false)) ∧
  (∀ (s : State) (dt : Nat), s.life.rails = true → s.rf Reg.lifeMargin0 4 0 = 24 → s.life.sensorsGoodAt + 10 * secUnit ≤ s.up + dt → s.rf Reg.lifeHealth 6 0 = 32 → s.mode = 3 →
    ∃ t, exec (.sensorClear dt) s = .next t ∧ t.rb Reg.lifeHealth 5 = false ∧ t.rb Reg.lifeHealth 31 = false ∧ t.mode = 2) ∧
  (∀ (s : State) (dt lane : Nat), s.dataPath = true → lane < 128 → s.rb (Reg.laneStat lane) 7 = true → s.life.lanesFailed.contains (groupLane s lane) = false →
    ∃ t, exec (.txPllLockLoss dt lane) s = .next t ∧ t.life.lanesFailed.contains (groupLane s lane) = true ∧ t.rb Reg.lifeHealth 2 = true) ∧
  (∀ (s : State) (dt slot : Nat) (im : Image) (bs bk : List Nat), s.mode = 5 → s.life.saving = some (slot, im) → s.life.holdCause ≠ 6 → s.life.resetHeld = true → 1080 ≤ s.life.vin → s.life.presentHigh = false →
    s.life.enableHigh = true →
    ∃ t, exec (.saveComplete dt bs bk) s = .next t ∧ t.mode = 0 ∧ t.rf Reg.lifeMode 19 16 = 2 ∧ t.otp = s.otp) ∧
  (∀ (s : State) (dt : Nat), ((advance s dt).settleCkpt).life.rails = true → 1 ≤ ((advance s dt).settleCkpt).mode → ((advance s dt).settleCkpt).mode ≤ 3 → ((advance s dt).settleCkpt).rb Reg.ckptCfg 31 = true → ((advance s dt).settleCkpt).cellar.ckpt = none →
    ((advance s dt).settleCkpt).cellar.ckptSec ≠ ((advance s dt).settleCkpt).now / secUnit →
    ∃ t, exec (.checkpoint dt) s = .next t ∧ (t.cellar.ckpt.map fun p => (p.1, p.2.1, p.2.2.kind)) = some (nextSlot ((advance s dt).settleCkpt).cellar, s.up + dt, 1) ∧ t.cellar.seq = ((advance s dt).settleCkpt).cellar.seq + 1 ∧
      t.cellar.ckptSec = ((advance s dt).settleCkpt).now / secUnit) ∧
  (∀ (s : State) (dt slot : Nat) (bad : List Nat) (failed : Bool), ((advance s dt).settleCkpt).life.rails = true → ((advance s dt).settleCkpt).cellar.unread = some slot →
    ∃ t, exec (.checkpointReadback dt bad failed) s = .next t ∧ t.cellar.unread = none ∧ (failed = true → t.cellar.images = ((advance s dt).settleCkpt).cellar.images.filter (fun p => p.1 != slot)) ∧
      t.frames = s.frames) ∧
  (∀ (s : State) (dt vhuc : Nat), s.life.rails = true → s.mode ≠ 5 → s.rb Reg.lifeHucStat 30 = false → s.life.testAt + s.rf Reg.lifeHucCfg 15 8 * 3600 * secUnit ≤ s.up + dt → s.rf Reg.lifeHucCfg 7 0 * 10 ≤ vhuc →
    ∃ t, exec (.holdupTest dt vhuc) s = .next t ∧ t.rb Reg.lifeHucStat 30 = true ∧ t.life.testAt = s.up + dt ∧ t.mode = s.mode) ∧
  (∀ (s : State) (dt : Nat), s.life.rails = true → s.rf Reg.lifeMargin0 4 0 = 24 → s.life.sensorsGoodAt + 10 * secUnit ≤ s.up + dt →
    ∃ t, exec (.sensorClear dt) s = .next t ∧ t.rb Reg.lifeHealth 5 = false) ∧
  (∀ (s : State) (dt lane : Nat), s.dataPath = true → lane < 128 → s.rb (Reg.laneStat lane) 7 = true →
    ∃ t, exec (.txPllLockLoss dt lane) s = .next t ∧ t.life.lanesFailed.contains (groupLane s lane) = true)

/-- R489, R535, R537 to R542: GO hands a request to the agent or to firmware, completes it UNSUPPORTED, or is refused while BUSY; the agent answers PING, SET_WINDOW and the FLASH commands and restarts the block;
firmware's response completes a request, too late it is counted, and after TIMEOUT it ends; a failed Hall engine hands the agent on; FLR clears the window and the request of a function. The order of the agent's checks and its byte orders are log entry 19. -/
def Obligations.MailboxRequestsAreServed : Prop :=
  (∀ (s : State) (m f : Nat) (v : Word), s.life.rails = true → f < 16 → takes s m (Reg.mbxCtl f) v = true → bitOf v 31 = true → mbxBusy s f = false → hallGone s = false → agentOps.contains (reqOp s f) = true →
    ∃ t, exec (.mbxGo m f v) s = .next t ∧ mbxBusy t f = true ∧ t.rb (Reg.mbxStat f) 30 = false ∧ t.mbxQ = s.mbxQ ++ [f] ∧ t.mbxFw = s.mbxFw ∧ bitOf (mbxWord t f 0xC) 31 = false ∧ reqOp t f = reqOp s f) ∧
  (∀ (s : State) (m f : Nat) (v : Word), s.life.rails = true → f < 16 → takes s m (Reg.mbxCtl f) v = true → bitOf v 31 = true → mbxBusy s f = false → hallGone s = false → 0x80 ≤ reqOp s f →
    s.rf Reg.mbxCfg 15 0 ≠ agentThread s →
    ∃ t, exec (.mbxGo m f v) s = .next t ∧ mbxBusy t f = true ∧ t.mbxQ = s.mbxQ ∧ t.mbxFw.find? (fun p => p.1 == f) = some (f, s.up) ∧ bitOf (mbxWord t f 0xC) 31 = false) ∧
  (∀ (s : State) (m f : Nat) (v : Word), s.life.rails = true → f < 16 → takes s m (Reg.mbxCtl f) v = true → bitOf v 31 = true → mbxBusy s f = false →
    hallGone s = true ∨ agentOps.contains (reqOp s f) = false ∧ reqOp s f < 0x80 →
    ∃ t, exec (.mbxGo m f v) s = .next t ∧ answered s t f 1 [] = true) ∧
  (∀ (s : State) (m f : Nat) (v : Word), s.life.rails = true → f < 16 → takes s m (Reg.mbxCtl f) v = true → bitOf v 31 = true → mbxBusy s f = true →
    exec (.mbxGo m f v) s = .next (s.setRf (Reg.mbxStat f) 29 29 1)) ∧
  (∀ (s : State) (f dt : Nat), f < 16 → serving s 0x01 = some f → ∃ t, exec (.ping dt) s = .next t ∧ answered s t f 0 (reqData s f) = true ∧ t.flash = s.flash) ∧
  (∀ (s : State) (f dt : Nat), f < 16 → serving s 0x02 = some f → 2 ≤ (reqData s f).length → ((reqData s f).getD 1 0).toNat < 16 → f = 0 ∨ ((reqData s f).getD 1 0).toNat = f →
    ∃ t, exec (.setWindow dt) s = .next t ∧ answered s t f 0 [] = true ∧ (t.reg (Reg.pfWin ((reqData s f).getD 1 0).toNat)).toNat = ((reqData s f).getD 0 0).toNat) ∧
  (∀ (s : State) (f dt : Nat), f < 16 → serving s 0x02 = some f → 2 ≤ (reqData s f).length → ((reqData s f).getD 1 0).toNat < 16 → f ≠ 0 → ((reqData s f).getD 1 0).toNat ≠ f →
    ∃ t, exec (.setWindow dt) s = .next t ∧ answered s t f 3 [] = true ∧ (∀ g < 16, t.reg (Reg.pfWin g) = s.reg (Reg.pfWin g))) ∧
  (∀ (s : State) (dt : Nat), serving s 0x10 = some 0 →
    ∃ t, exec (.flashInfo dt) s = .next t ∧ t.flash = s.flash ∧
      answered s t 0 0 (flashBytes s 0xC 4 ++ flashBytes s 8 4 ++ flashBytes s 0x800000C 4 ++ flashBytes s 0x8000008 4 ++ leBytes 4 (s.reg Reg.bootStat).toNat) = true) ∧
  (∀ (s : State) (dt n a : Nat), serving s 0x11 = some 0 → 5 ≤ (reqData s 0).length → leNat (slice (reqData s 0) 0 4) = a → ((reqData s 0).getD 4 0).toNat = n → 0 < n → n ≤ 128 → a + n ≤ 0x10000000 →
    ∃ t, exec (.flashRead dt false) s = .next t ∧ answered s t 0 0 (flashBytes s a n) = true ∧ t.flash = s.flash) ∧
  (∀ (s : State) (dt a : Nat), serving s 0x12 = some 0 → 4 ≤ (reqData s 0).length → leNat (slice (reqData s 0) 0 4) = a → a % 0x10000 = 0 → a < 0x10000000 → inBooted s a = false →
    ∃ t, exec (.flashErase dt false) s = .next t ∧ answered s t 0 0 [] = true ∧ (∀ i, flashByte t i = if a ≤ i ∧ i < a + 0x10000 then Config.erasedByte else flashByte s i)) ∧
  (∀ (s : State) (dt a n : Nat), serving s 0x13 = some 0 → (reqData s 0).length = 4 + n → leNat (slice (reqData s 0) 0 4) = a → a % 16 = 0 → n % 16 = 0 → 16 ≤ n → n ≤ 112 → a + n ≤ 0x10000000 → inBooted s a = false →
    ∃ t, exec (.flashWrite dt false) s = .next t ∧ answered s t 0 0 [] = true ∧ (∀ i, flashByte t i = if a ≤ i ∧ i < a + n then (reqData s 0).getD (4 + (i - a)) 0 else flashByte s i)) ∧
  (∀ (s : State) (dt a n : Nat), serving s 0x13 = some 0 → (reqData s 0).length = 4 + n → leNat (slice (reqData s 0) 0 4) = a → a % 16 = 0 → n % 16 = 0 → 16 ≤ n → n ≤ 112 → a + n ≤ 0x10000000 → inBooted s a = true →
    ∃ t, exec (.flashWrite dt false) s = .next t ∧ answered s t 0 3 [] = true ∧ t.flash = s.flash) ∧
  (∀ (s : State) (f dt : Nat) (bs bk : List Nat), serving s 0x1F = some f → 1 ≤ s.mode → s.mode ≤ 3 →
    ∃ t, exec (.mbxRestart dt bs bk) s = .next t ∧ t.mode = 5 ∧ t.life.holdCause = 6 ∧ t.life.rails = false ∧ t.life.saving.isSome = true) ∧
  (∀ (s : State) (f dt : Nat) (bs bk : List Nat), f < 16 → serving s 0x1F = some f → 4 ≤ s.mode → ∃ t, exec (.mbxRestart dt bs bk) s = .next t ∧ answered s t f 3 [] = true ∧ t.life = s.life) ∧
  (∀ (s : State) (f : Nat), s.life.rails = true → (s.mbxFw.any fun p => p.1 == f) = true → s.mbxRung.contains f = false → thrState s (s.rf Reg.mbxCfg 15 0) ≠ 0 → waitsBell s (s.rf Reg.mbxCfg 15 0) = false →
    ∃ t, exec (.mbxFwOpcode f) s = .next t ∧ (t.thr (s.rf Reg.mbxCfg 15 0)).bells = (s.thr (s.rf Reg.mbxCfg 15 0)).bells ||| 1 ∧ t.regs = s.regs ∧ t.mbxFw = s.mbxFw) ∧
  (∀ (s : State) (f : Nat), s.life.rails = true → f < 16 → s.mbxStored.contains f = true → mbxBusy s f = true →
    ∃ t, exec (.mbxResponse f) s = .next t ∧ mbxBusy t f = false ∧ t.rb (Reg.mbxStat f) 30 = true ∧ t.rf (Reg.mbxStat f) 23 0 = fld (mbxWord s f 0xC) 23 0 ∧
      (t.mbxFw.any fun p => p.1 == f) = false ∧ t.shared = s.shared) ∧
  (∀ (s : State) (f : Nat), s.life.rails = true → s.mbxStored.contains f = true → mbxBusy s f = false → (s.reg Reg.evtMbxLateCnt).toNat < 0xFFFFFFFE →
    ∃ t, exec (.mbxResponse f) s = .next t ∧ (t.reg Reg.evtMbxLateCnt).toNat = (s.reg Reg.evtMbxLateCnt).toNat + 1 ∧ t.reg (Reg.mbxStat 0) = s.reg (Reg.mbxStat 0) ∧ t.evt = s.evt) ∧
  (∀ (s : State) (f dt u : Nat), s.life.rails = true → f < 16 → s.mbxFw.find? (fun p => p.1 == f) = some (f, u) → u + s.rf Reg.mbxCfg 23 16 * msUnit ≤ s.up + dt →
    ∃ t, exec (.mbxFwTimeout f dt) s = .next t ∧ answered s t f 5 [] = true ∧ (t.mbxFw.any fun p => p.1 == f) = false ∧ t.evt.inbox.length = s.evt.inbox.length + 1) ∧
  (∀ (s : State) (f e dt : Nat) (r : List Nat), s.life.rails = true → f < 16 → s.mbxQ = f :: r → engFailed s (agentEngine s) = true → [224, 225, 226, 227].find? (fun k => decide (agentEngine s < k) && !engFailed s k) = some e →
    ∃ t, exec (.mbxAgentRestart dt) s = .next t ∧ agentEngine t = e ∧ answered s t f 6 [] = true ∧ thrState t (e * 16 + 15) = 0) ∧
  (∀ (s : State) (f : Nat), s.life.rails = true → f < 16 → (s.keys.keys.all fun p => p.2.owner != some (0x0F00 + f)) = true →
    ∃ t, exec (.flr f) s = .next t ∧ t.reg (Reg.pfWin f) = 0 ∧ (∀ g < 16, g ≠ f → t.reg (Reg.pfWin g) = s.reg (Reg.pfWin g)) ∧ (mbxBusy s f = true → answered s t f 6 [] = true) ∧ t.keys = s.keys) ∧
  (∀ (s : State) (f k : Nat), s.life.rails = true → f < 16 → s.keys.keys = [(k, { owner := some (0x0F00 + f), mark := false, waiters := [], lost := false })] →
    ∃ t, exec (.flr f) s = .next t ∧ (t.key k).owner = none ∧ (t.key k).mark = true) ∧
  (∀ (s : State) (m f : Nat) (v : Word), s.life.rails = true → f < 16 → takes s m (Reg.mbxCtl f) v = true → bitOf v 31 = true → mbxBusy s f = false → agentOps.contains (reqOp s f) = false → s.rf Reg.mbxCfg 15 0 = agentThread s →
    ∃ t, exec (.mbxGo m f v) s = .next t ∧ answered s t f 1 [] = true ∧ t.mbxFw = mapErase s.mbxFw f) ∧
  (∀ (s : State) (f dt : Nat), f < 16 → serving s 0x02 = some f → (reqData s f).length < 2 ∨ 16 ≤ ((reqData s f).getD 1 0).toNat →
    ∃ t, exec (.setWindow dt) s = .next t ∧ answered s t f 2 [] = true ∧ (∀ g < 16, t.reg (Reg.pfWin g) = s.reg (Reg.pfWin g))) ∧
  (∀ (s : State) (f dt : Nat), f < 16 → f ≠ 0 → serving s 0x10 = some f → ∃ t, exec (.flashInfo dt) s = .next t ∧ answered s t f 3 [] = true ∧ t.flash = s.flash) ∧
  (∀ (s : State) (f dt : Nat) (bad : Bool), f < 16 → f ≠ 0 → serving s 0x11 = some f → ∃ t, exec (.flashRead dt bad) s = .next t ∧ answered s t f 3 [] = true ∧ t.flash = s.flash) ∧
  (∀ (s : State) (f dt : Nat) (bad : Bool), f < 16 → f ≠ 0 → serving s 0x12 = some f → ∃ t, exec (.flashErase dt bad) s = .next t ∧ answered s t f 3 [] = true ∧ t.flash = s.flash) ∧
  (∀ (s : State) (f dt : Nat) (bad : Bool), f < 16 → f ≠ 0 → serving s 0x13 = some f → ∃ t, exec (.flashWrite dt bad) s = .next t ∧ answered s t f 3 [] = true ∧ t.flash = s.flash) ∧
  (∀ (s : State) (dt : Nat) (bad : Bool), serving s 0x11 = some 0 →
    (reqData s 0).length < 5 ∨ ((reqData s 0).getD 4 0).toNat = 0 ∨ 128 < ((reqData s 0).getD 4 0).toNat ∨ 0x10000000 < leNat (slice (reqData s 0) 0 4) + ((reqData s 0).getD 4 0).toNat →
    ∃ t, exec (.flashRead dt bad) s = .next t ∧ answered s t 0 2 [] = true ∧ t.flash = s.flash) ∧
  (∀ (s : State) (dt a n : Nat), serving s 0x11 = some 0 → 5 ≤ (reqData s 0).length → leNat (slice (reqData s 0) 0 4) = a → ((reqData s 0).getD 4 0).toNat = n → 0 < n → n ≤ 128 → a + n ≤ 0x10000000 →
    ∃ t, exec (.flashRead dt true) s = .next t ∧ answered s t 0 4 [] = true ∧ t.flash = s.flash) ∧
  (∀ (s : State) (dt : Nat) (bad : Bool), serving s 0x12 = some 0 → (reqData s 0).length < 4 ∨ leNat (slice (reqData s 0) 0 4) % 0x10000 ≠ 0 ∨ 0x10000000 ≤ leNat (slice (reqData s 0) 0 4) →
    ∃ t, exec (.flashErase dt bad) s = .next t ∧ answered s t 0 2 [] = true ∧ t.flash = s.flash) ∧
  (∀ (s : State) (dt a : Nat) (bad : Bool), serving s 0x12 = some 0 → 4 ≤ (reqData s 0).length → leNat (slice (reqData s 0) 0 4) = a → a % 0x10000 = 0 → a < 0x10000000 → inBooted s a = true ∨ bad = true →
    ∃ t, exec (.flashErase dt bad) s = .next t ∧ answered s t 0 (if inBooted s a then 3 else 4) [] = true ∧ t.flash = s.flash) ∧
  (∀ (s : State) (dt : Nat) (bad : Bool), serving s 0x13 = some 0 →
    (reqData s 0).length < 20 ∨ 116 < (reqData s 0).length ∨ ((reqData s 0).length - 4) % 16 ≠ 0 ∨ leNat (slice (reqData s 0) 0 4) % 16 ≠ 0 ∨ 0x10000000 < leNat (slice (reqData s 0) 0 4) + ((reqData s 0).length - 4) →
    ∃ t, exec (.flashWrite dt bad) s = .next t ∧ answered s t 0 2 [] = true ∧ t.flash = s.flash) ∧
  (∀ (s : State) (dt a n : Nat), serving s 0x13 = some 0 → (reqData s 0).length = 4 + n → leNat (slice (reqData s 0) 0 4) = a → a % 16 = 0 → n % 16 = 0 → 16 ≤ n → n ≤ 112 → a + n ≤ 0x10000000 → inBooted s a = false →
    ∃ t, exec (.flashWrite dt true) s = .next t ∧ answered s t 0 4 [] = true ∧ t.flash = s.flash) ∧
  (∀ (s : State) (f dt : Nat) (bs bk : List Nat), serving s 0x1F = some f → s.mode = 0 →
    ∃ t, exec (.mbxRestart dt bs bk) s = .next t ∧ t.mode = 0 ∧ t.rf Reg.lifeMode 19 16 = 2 ∧ t.flash = s.flash ∧ t.otp = s.otp) ∧
  (∀ (s : State) (f : Nat), s.life.rails = true → (s.mbxFw.any fun p => p.1 == f) = true → s.mbxRung.contains f = false →
    ∃ t, exec (.mbxFwOpcode f) s = .next t ∧ t.mbxRung = s.mbxRung ++ [f] ∧ t.mbxFw = s.mbxFw ∧ t.mbxQ = s.mbxQ) ∧
  (∀ (s : State) (f : Nat), s.life.rails = true → s.mbxRung.contains f = true → exec (.mbxFwOpcode f) s = .next s) ∧
  (∀ (s : State) (f : Nat), s.life.rails = true → s.mbxStored.contains f = true → mbxBusy s f = false →
    ∃ t, exec (.mbxResponse f) s = .next t ∧ t.mbxStored = s.mbxStored.erase f ∧ t.mbxFw = s.mbxFw ∧ t.mbxQ = s.mbxQ ∧ (∀ g < 16, t.reg (Reg.mbxStat g) = s.reg (Reg.mbxStat g))) ∧
  (∀ (s : State) (dt e : Nat), s.life.rails = true → s.mbxQ = [] → engFailed s (agentEngine s) = true → [224, 225, 226, 227].find? (fun k => decide (agentEngine s < k) && !engFailed s k) = some e →
    ∃ t, exec (.mbxAgentRestart dt) s = .next t ∧ agentEngine t = e ∧ t.mbxQ = [] ∧ thrState t (e * 16 + 15) = 0) ∧
  (∀ (s : State) (f dt : Nat) (r : List Nat), s.life.rails = true → (s.mbxQ.all fun g => decide (g < 16)) = true → s.mbxQ = f :: r → hallGone s = true → engFailed s (agentEngine s) = true →
    [224, 225, 226, 227].find? (fun k => decide (agentEngine s < k) && !engFailed s k) = none →
    ∃ t, exec (.mbxAgentRestart dt) s = .next t ∧ t.mbxQ = [] ∧ answered s t f 6 [] = true ∧ (r.all fun g => g == f || answered s t g 1 []) = true) ∧
  (∀ (s : State) (f : Nat), s.life.rails = true → f < 16 →
    ∃ t, exec (.flr f) s = .next t ∧ t.reg (Reg.pfWin f) = 0 ∧ (∀ g < 16, g ≠ f → t.reg (Reg.pfWin g) = s.reg (Reg.pfWin g)) ∧ mbxBusy t f = false)

/-- R310, R545, R547, R550, R551, R552, R553, R555, R556, R557, R558, R559: EVT numbers the next alarm, logs it and queues it or lets it push out the newest of the least urgent; a read of EVT_ALQ_W0 takes the oldest of the
most urgent and lets a summary in; trace records and marks go to the trace ring or are counted; held messages go out after HOLDOFF; ATTN_N is sampled against what the module drives; snapshots copy the
counters of a set, and clears zero them. Where alarms enter and when a message is due are log entries 48 to 50. -/
def Obligations.EventsAreRecordedAndCounted : Prop :=
  (∀ (s : State) (a : Alarm) (r : List Alarm), s.life.rails = true → s.evt.inbox = a :: r → s.evt.logGap.count = 0 → s.evt.queue.length < 1024 →
    ∃ t, exec (.alarmRecord 81) s = .next t ∧ t.evt.seq = (s.evt.seq + 1) % 65536 ∧ t.evt.queue = s.evt.queue ++ [{ a with seq := s.evt.seq }] ∧ t.evt.slots = s.evt.slots ∧
      t.evt.recent.getLast? = some { a with seq := s.evt.seq }) ∧
  (∀ (s : State) (i : Nat) (a : Alarm) (x : HEntry), s.life.rails = true → i ≠ 81 → hatchExists (hatchNo 0x14 i) = true → (s.hatch (hatchNo 0x14 i)).front = some x → x.pay = .alarm a → s.rb Reg.courAlarmCfg 31 = false →
    s.evt.logGap.count = 0 → s.evt.queue.length < 1024 → s.rb Reg.logCfg 31 = true → s.dramReady = true → a.sev ≤ s.rf Reg.logCfg 27 26 → s.evt.logQ.length < 512 → s.rf Reg.logWptr 20 0 < 2097151 →
    ∃ t, exec (.alarmRecord i) s = .next t ∧ t.evt.queue = s.evt.queue ++ [{ a with seq := s.evt.seq }] ∧ t.hatch (hatchNo 0x14 i) = (s.hatch (hatchNo 0x14 i)).consume ∧
      t.evt.logQ = s.evt.logQ ++ [(ringAddr s (s.rf Reg.logCfg 15 0) (s.rf Reg.logWptr 20 0 * 32), wordBytes (alarmWords { a with seq := s.evt.seq }))] ∧ t.rf Reg.logWptr 20 0 = s.rf Reg.logWptr 20 0 + 1) ∧
  (∀ (s : State) (a b : Alarm) (r : List Alarm) (q : List Alarm), s.life.rails = true → s.evt.inbox = a :: r → s.evt.logGap.count = 0 → s.evt.queue = q ++ [b] → q.length = 1023 → a.sev < b.sev → (∀ x ∈ q, x.sev ≤ b.sev) →
    (s.reg Reg.evtCoalesceCnt).toNat < 0xFFFFFFFE →
    ∃ t, exec (.alarmRecord 81) s = .next t ∧ t.evt.queue = q ++ [{ a with seq := s.evt.seq }] ∧ t.evt.slots = coalesce (s.rf Reg.courId 9 0) s.evt.slots b ∧
      (t.reg Reg.evtCoalesceCnt).toNat = (s.reg Reg.evtCoalesceCnt).toNat + 1) ∧
  (∀ (s : State) (m : Nat) (l k : List Alarm) (a : Alarm), s.life.rails = true → reaches s m (Reg.alqW 0) = true → s.evt.queue = l ++ a :: k → a.sev ≤ 3 → (∀ x ∈ l, a.sev < x.sev) → (∀ x ∈ k, a.sev ≤ x.sev) → s.evt.slots = [] →
    ∃ t, exec (.alarmPop m) s = .next t ∧ t.evt.queue = l ++ k ∧ mapGet 0 t.resp m = (alarmWords a).getD 0 0 ∧ (∀ i < 8, latched t m (Reg.alqW i) = some ((alarmWords a).getD i 0)) ∧ t.regs = s.regs) ∧
  (∀ (s : State) (m : Nat), s.life.rails = true → reaches s m (Reg.alqW 0) = true → s.evt.queue = [] →
    ∃ t, exec (.alarmPop m) s = .next t ∧ mapGet 0 t.resp m = 0 ∧ (∀ i < 8, latched t m (Reg.alqW i) = some 0) ∧ t.evt = s.evt) ∧
  (∀ (s : State) (m : Nat) (a : Alarm) (x : Summary) (r : List Summary), s.life.rails = true → reaches s m (Reg.alqW 0) = true → s.evt.queue = [a] → a.sev ≤ 3 → s.evt.slots = x :: r →
    ∃ t, exec (.alarmPop m) s = .next t ∧ t.evt.slots = r ∧ t.evt.queue = [{ x.record with fwd := x.modn != s.rf Reg.courId 9 0 }]) ∧
  (∀ (s : State) (w : List Word) (r : List (List Word)), s.life.rails = true → s.evt.trcIn = w :: r → s.rb Reg.trcCfg 31 = true → s.evt.trcGap.count = 0 → trcRoom s = true →
    ∃ t, exec .traceRecord s = .next t ∧ t.evt.trcIn = r ∧ t.evt.trcQ = s.evt.trcQ ++ [(ringAddr s (s.rf Reg.trcCfg 15 0) (s.rf Reg.trcWptr 25 0 * 16), wordBytes w)] ∧
      t.rf Reg.trcWptr 25 0 = (s.rf Reg.trcWptr 25 0 + 1) % trcSlots s ∧ t.evt.queue = s.evt.queue) ∧
  (∀ (s : State) (w : List Word) (r : List (List Word)), s.life.rails = true → s.evt.trcIn = w :: r → s.rb Reg.trcCfg 31 = true → s.evt.trcGap.count = 0 → trcRoom s = false → (s.reg Reg.evtTrcDropCnt).toNat < 0xFFFFFFFE →
    ∃ t, exec .traceRecord s = .next t ∧ t.evt.trcIn = r ∧ t.evt.trcQ = s.evt.trcQ ∧ t.evt.trcGap = ⟨1, (w.getD 0 0).toNat, (w.getD 0 0).toNat⟩ ∧
      (t.reg Reg.evtTrcDropCnt).toNat = (s.reg Reg.evtTrcDropCnt).toNat + 1) ∧
  (∀ (s : State) (m : Nat) (v : Word), s.life.rails = true → reaches s m Reg.trcMark = true → s.rb Reg.trcCfg 31 = true → s.evt.trcGap.count = 0 → trcRoom s = true →
    ∃ t, exec (.traceMark m v) s = .next t ∧ t.evt.trcIn = s.evt.trcIn ∧
      t.evt.trcQ = s.evt.trcQ ++ [(ringAddr s (s.rf Reg.trcCfg 15 0) (s.rf Reg.trcWptr 25 0 * 16), wordBytes [BitVec.ofNat 32 (pmNow s), BitVec.ofNat 32 (fld v 27 0 * 16 + 14), BitVec.ofNat 32 m, 0])]) ∧
  (∀ (s : State) (v dt u : Nat), s.life.rails = true → [0, 2, 3].contains v = true → s.evt.msixSince.find? (fun p => p.1 == v) = some (v, u) → u + s.rf (msixMod v) 15 0 * 1000 * nsUnit ≤ s.up + dt →
    s.rb (Reg.msixTable 0 (4 * v + 3)) 0 = false →
    ∃ t, exec (.msixHoldoff v dt) s = .next t ∧ mapGet 0 t.evt.msixPend v = 0 ∧ mapGet 0 t.evt.msixSent v = mapGet 0 s.evt.msixSent v + 1 ∧ t.regs = s.regs) ∧
  (∀ (s : State) (v dt u : Nat), s.life.rails = true → [0, 2, 3].contains v = true → s.evt.msixSince.find? (fun p => p.1 == v) = some (v, u) → u + s.rf (msixMod v) 15 0 * 1000 * nsUnit ≤ s.up + dt →
    s.rb (Reg.msixTable 0 (4 * v + 3)) 0 = true →
    ∃ t, exec (.msixHoldoff v dt) s = .next t ∧ mapGet 0 t.evt.msixPend v = 0 ∧ t.rb (Reg.msixPba 0) v = true ∧ t.evt.msixSent = s.evt.msixSent) ∧
  (∀ (s : State) (dt : Nat) (hi : Bool), s.life.rails = true → attnDriven s = !hi → ∃ t, exec (.attnSample dt hi) s = .next t ∧ t.rb Reg.attnCfg 28 = hi ∧ t.evt.attnMismatch = false ∧ t.evt.inbox = s.evt.inbox) ∧
  (∀ (s : State) (dt : Nat), s.life.rails = true → attnDriven s = true → s.evt.attnMismatch = false → (s.reg Reg.evtAttnMisCnt).toNat < 0xFFFFFFFE →
    ∃ t, exec (.attnSample dt true) s = .next t ∧ t.rb Reg.attnCfg 28 = true ∧ t.evt.attnMismatch = true ∧ (t.reg Reg.evtAttnMisCnt).toNat = (s.reg Reg.evtAttnMisCnt).toNat + 1 ∧
      t.evt.inbox.map (·.code) = s.evt.inbox.map (·.code) ++ [0x0904]) ∧
  (∀ (s : State) (m o n : Nat) (v : Word), s.life.rails = true → delivers s m o v = true → statSet o = some n → bitOf v 31 = true → bitOf v 30 = false →
    ∃ t, exec (.statsSnap m o v) s = .next t ∧ t.rb o 29 = true ∧ t.stats = (lineCounted s o).stats ∧
      (∀ i < n, (t.reg (o + 16 + 8 * i)).toNat = mapGet 0 (lineCounted s o).stats (o + i) % 2 ^ 32 ∧ (t.reg (o + 20 + 8 * i)).toNat = mapGet 0 (lineCounted s o).stats (o + i) / 2 ^ 32 % 2 ^ 32)) ∧
  (∀ (s : State) (m o n : Nat) (v : Word), s.life.rails = true → delivers s m o v = true → statSet o = some n → bitOf v 31 = true → bitOf v 30 = true →
    ∃ t, exec (.statsClr m o v) s = .next t ∧ t.rb o 29 = true ∧ (∀ i < n, mapGet 0 t.stats (o + i) = 0 ∧ (t.reg (o + 16 + 8 * i)).toNat = mapGet 0 (lineCounted s o).stats (o + i) % 2 ^ 32) ∧
      (∀ j, j < o ∨ o + n ≤ j → mapGet 0 t.stats j = mapGet 0 (lineCounted s o).stats j)) ∧
  (∀ (s : State) (m : Nat) (v : Word), s.life.rails = true → takes s m Reg.cntClr v = true → bitOf v 31 = true →
    ∃ t, exec (.cntClr m v) s = .next t ∧ t.rb Reg.cntClr 30 = true ∧ (∀ k, isCounter k = true → bitOf v 29 = true ∨ islandOf k = fld v 6 0 → t.reg k = 0) ∧
      (∀ k, k ≠ Reg.cntClr → isCounter k = false ∨ bitOf v 29 = false ∧ islandOf k ≠ fld v 6 0 → t.reg k = s.reg k)) ∧
  (∀ (s : State) (a : Alarm) (r : List Alarm), s.life.rails = true → s.evt.inbox = a :: r → ∃ t, exec (.alarmRecord 81) s = .next t ∧ t.evt.recent.getLast? = some { a with seq := s.evt.seq } ∧ t.evt.inbox = r ∧ t.mode = s.mode) ∧
  (∀ (s : State) (i : Nat) (a : Alarm) (x : HEntry), s.life.rails = true → i ≠ 81 → hatchExists (hatchNo 0x14 i) = true → (s.hatch (hatchNo 0x14 i)).front = some x → x.pay = .alarm a →
    ∃ t, exec (.alarmRecord i) s = .next t ∧ t.evt.recent.getLast? = some { a with seq := s.evt.seq } ∧ t.hatch (hatchNo 0x14 i) = (s.hatch (hatchNo 0x14 i)).consume) ∧
  (∀ (s : State) (m : Nat) (l k : List Alarm) (a : Alarm), s.life.rails = true → reaches s m (Reg.alqW 0) = true → s.evt.queue = l ++ a :: k → a.sev ≤ 3 → (∀ x ∈ l, a.sev < x.sev) → (∀ x ∈ k, a.sev ≤ x.sev) →
    ∃ t, exec (.alarmPop m) s = .next t ∧ mapGet 0 t.resp m = (alarmWords a).getD 0 0 ∧ (∀ i < 8, latched t m (Reg.alqW i) = some ((alarmWords a).getD i 0)) ∧ t.evt.slots = (if l.length + k.length < queueDepth then s.evt.slots.drop 1 else s.evt.slots)) ∧
  (∀ (s : State) (w : List Word) (r : List (List Word)), s.life.rails = true → s.evt.trcIn = w :: r → s.rb Reg.trcCfg 31 = false → (s.reg Reg.wshopLogDropCnt).toNat < 0xFFFFFFFE →
    ∃ t, exec .traceRecord s = .next t ∧ t.evt.trcIn = r ∧ t.evt.trcQ = s.evt.trcQ ∧ (t.reg Reg.wshopLogDropCnt).toNat = (s.reg Reg.wshopLogDropCnt).toNat + 1) ∧
  (∀ (s : State) (w : List Word) (r : List (List Word)), s.life.rails = true → s.evt.trcIn = w :: r → s.rb Reg.trcCfg 31 = true → s.evt.trcGap.count ≠ 0 → trcRoom s = true → trcRoom s.traceGap = true →
    ∃ t, exec .traceRecord s = .next t ∧ t.evt.trcIn = r ∧ t.evt.trcGap.count = 0 ∧ t.evt.trcQ.map (·.2) = s.evt.trcQ.map (·.2) ++ [wordBytes (trcGapRec s.evt.trcGap), wordBytes w]) ∧
  (∀ (s : State) (m : Nat) (v : Word), s.life.rails = true → reaches s m Reg.trcMark = true → s.rb Reg.trcCfg 31 = false → exec (.traceMark m v) s = .next s) ∧
  (∀ (s : State) (m : Nat) (v : Word), s.life.rails = true → reaches s m Reg.trcMark = true → s.rb Reg.trcCfg 31 = true → trcRoom s = false → (s.reg Reg.evtTrcDropCnt).toNat < 0xFFFFFFFE →
    ∃ t, exec (.traceMark m v) s = .next t ∧ t.evt.trcQ = s.evt.trcQ ∧ t.evt.trcGap.last = pmNow s % 2 ^ 32 ∧ (t.reg Reg.evtTrcDropCnt).toNat = (s.reg Reg.evtTrcDropCnt).toNat + 1) ∧
  (∀ (s : State) (dt : Nat), s.life.rails = true → attnDriven s = true → s.evt.attnMismatch = true →
    ∃ t, exec (.attnSample dt true) s = .next t ∧ t.rb Reg.attnCfg 28 = true ∧ t.evt = s.evt ∧ t.reg Reg.evtAttnMisCnt = s.reg Reg.evtAttnMisCnt) ∧
  (∀ (s : State) (dt : Nat), s.life.rails = true → attnDriven s = false → s.rb Reg.attnCfg 30 = true →
    ∃ t, exec (.attnSample dt false) s = .next t ∧ t.rb Reg.attnCfg 28 = false ∧ t.evt.attnMismatch = false ∧ t.reg Reg.evtAttnMisCnt = s.reg Reg.evtAttnMisCnt) ∧
  (∀ (s : State) (dt : Nat), s.life.rails = true → attnDriven s = false → s.rb Reg.attnCfg 30 = false → s.evt.attnMismatch = false → (s.reg Reg.evtAttnMisCnt).toNat < 0xFFFFFFFE →
    ∃ t, exec (.attnSample dt false) s = .next t ∧ t.rb Reg.attnCfg 28 = false ∧ t.evt.attnMismatch = true ∧ (t.reg Reg.evtAttnMisCnt).toNat = (s.reg Reg.evtAttnMisCnt).toNat + 1)

/-- R561, R563, R564: GO of a side-bus slot takes the idle bus, waits for its turn, completes DEAD at once, or is refused; a transfer ends with its status and the bytes read, and the bus passes on or recovers;
the third attempt that fails leaves it DEAD with an alarm; an MDIO frame sets BUSY and ends with its result and what was read. GO with EN 0 and what a device answers are log entry 51. -/
def Obligations.SideBusAndMdio : Prop :=
  (∀ (s : State) (m sl : Nat) (v : Word), s.life.rails = true → sl < 2 → takes s m (Reg.sbCmd sl) v = true → bitOf v 31 = true → sbBusy s sl = false → s.rb Reg.sbCfg 31 = true → sbState s = 0 → sbBusy s (1 - sl) = false → fld v 30 29 = 0 → fld v 15 8 ≠ 0 →
    ∃ t, exec (.sbWrite m sl v) s = .next t ∧ t.sb.active = some sl ∧ sbBusy t sl = true ∧ sbState t = 1 ∧ fld (t.reg (Reg.sbCmd sl)) 15 0 = fld v 15 0) ∧
  (∀ (s : State) (m sl : Nat) (v : Word), s.life.rails = true → sl < 2 → takes s m (Reg.sbCmd sl) v = true → bitOf v 31 = true → sbBusy s sl = false → s.rb Reg.sbCfg 31 = true → sbState s = 0 → sbBusy s (1 - sl) = false → fld v 30 29 = 1 → fld v 7 0 ≠ 0 →
    ∃ t, exec (.sbRead m sl v) s = .next t ∧ t.sb.active = some sl ∧ sbBusy t sl = true ∧ sbState t = 1 ∧ fld (t.reg (Reg.sbCmd sl)) 15 0 = fld v 15 0) ∧
  (∀ (s : State) (m sl : Nat) (v : Word), s.life.rails = true → sl < 2 → takes s m (Reg.sbCmd sl) v = true → bitOf v 31 = true → sbBusy s sl = false → s.rb Reg.sbCfg 31 = true → sbState s = 0 → sbBusy s (1 - sl) = false → fld v 30 29 = 2 → fld v 15 8 ≠ 0 → fld v 7 0 ≠ 0 →
    ∃ t, exec (.sbWriteRead m sl v) s = .next t ∧ t.sb.active = some sl ∧ sbBusy t sl = true ∧ sbState t = 1 ∧ fld (t.reg (Reg.sbCmd sl)) 15 0 = fld v 15 0) ∧
  (∀ (s : State) (m sl : Nat) (v : Word), s.life.rails = true → sl < 2 → takes s m (Reg.sbCmd sl) v = true → bitOf v 31 = true → sbBusy s sl = false → s.rb Reg.sbCfg 31 = true → sbState s = 1 → fld v 30 29 = 0 → fld v 15 8 ≠ 0 →
    ∃ t, exec (.sbWrite m sl v) s = .next t ∧ t.sb = s.sb ∧ sbBusy t sl = true ∧ sbState t = 1) ∧
  (∀ (s : State) (m sl : Nat) (v : Word), s.life.rails = true → sl < 2 → takes s m (Reg.sbCmd sl) v = true → bitOf v 31 = true → sbBusy s sl = false → s.rb Reg.sbCfg 31 = true → sbState s = 3 → fld v 30 29 = 1 →
    ∃ t, exec (.sbRead m sl v) s = .next t ∧ sbBusy t sl = false ∧ t.rf (Reg.sbStat sl) 7 0 = 5 ∧ t.sb = s.sb) ∧
  (∀ (s : State) (m sl : Nat) (v : Word), s.life.rails = true → sl < 2 → takes s m (Reg.sbCmd sl) v = true → bitOf v 31 = true → fld v 30 29 = 2 → sbBusy s sl = true ∨ s.rb Reg.sbCfg 31 = false →
    exec (.sbWriteRead m sl v) s = .next (s.reject (Reg.sbCmd sl))) ∧
  (∀ (s : State) (sl dt : Nat) (d : List Byte), s.life.rails = true → sl < 2 → sbState s = 1 → s.sb.active = some sl → s.rf (Reg.sbCmd sl) 30 29 ≠ 0 → d.length = s.rf (Reg.sbCmd sl) 7 0 → d.length ≤ 32 → s.sb.last = sl → sbBusy s (1 - sl) = false →
    ∃ t, exec (.sbDone sl dt 0 d) s = .next t ∧ sbBusy t sl = false ∧ t.rb (Reg.sbStat sl) 30 = true ∧ t.rf (Reg.sbStat sl) 7 0 = 0 ∧ t.sb.active = none ∧ sbState t = 0 ∧
      (∀ i < d.length, t.rf (Reg.sbData sl (i / 4)) (8 * (i % 4) + 7) (8 * (i % 4)) = (d.getD i 0).toNat)) ∧
  (∀ (s : State) (sl dt : Nat), s.life.rails = true → sl < 2 → sbState s = 1 → s.sb.active = some sl → s.sb.last = sl → sbBusy s (1 - sl) = true →
    ∃ t, exec (.sbDone sl dt 1 []) s = .next t ∧ sbBusy t sl = false ∧ t.rf (Reg.sbStat sl) 7 0 = 1 ∧ t.sb.active = some (1 - sl) ∧ t.sb.last = 1 - sl ∧ sbState t = 1) ∧
  (∀ (s : State) (sl dt : Nat), s.life.rails = true → sl < 2 → sbState s = 1 → s.sb.active = some sl → ∃ t, exec (.sbDone sl dt 2 []) s = .next t ∧ sbBusy t sl = false ∧ t.rf (Reg.sbStat sl) 7 0 = 2 ∧ t.sb.active = none ∧ sbState t = 2) ∧
  (∀ (s : State) (dt : Nat), s.life.rails = true → s.rb Reg.sbCfg 31 = true → sbState s = 2 → s.sb.tries = 0 → s.sb.triedAt ≤ s.up + dt → sbBusy s 0 = false → sbBusy s 1 = false → (s.reg Reg.evtSbRecoverCnt).toNat < 0xFFFFFFFE →
    ∃ t, exec (.sbRecovery dt true) s = .next t ∧ sbState t = 0 ∧ t.sb.tries = 0 ∧ (t.reg Reg.evtSbRecoverCnt).toNat = (s.reg Reg.evtSbRecoverCnt).toNat + 1) ∧
  (∀ (s : State) (dt : Nat), s.life.rails = true → s.rb Reg.sbCfg 31 = true → sbState s = 2 → s.sb.tries = 2 → s.sb.triedAt + msUnit ≤ s.up + dt →
    ∃ t, exec (.sbRecovery dt false) s = .next t ∧ sbState t = 3 ∧ sbBusy t 0 = false ∧ sbBusy t 1 = false ∧ (t.evt.inbox.map (·.code)).contains 0x0903 = true) ∧
  (∀ (s : State) (m n : Nat) (v : Word), s.life.rails = true → n < 4 → takes s m (Reg.mdioCmd n) v = true → bitOf v 31 = true → bitOf v 26 = false → fld v 25 24 = 1 → s.rb (Reg.mdioCmd n) 30 = false → s.rb (Reg.mdioCfg n) 31 = true →
    ∃ t, exec (.mdioC22Write m n v) s = .next t ∧ t.rb (Reg.mdioCmd n) 30 = true ∧ t.rf (Reg.mdioCmd n) 26 24 = fld v 26 24 ∧ t.rf (Reg.mdioCmd n) 20 16 = fld v 20 16 ∧ t.rf (Reg.mdioCmd n) 12 8 = fld v 12 8) ∧
  (∀ (s : State) (m n : Nat) (v : Word), s.life.rails = true → n < 4 → takes s m (Reg.mdioCmd n) v = true → bitOf v 31 = true → bitOf v 26 = false → fld v 25 24 = 2 → s.rb (Reg.mdioCmd n) 30 = false → s.rb (Reg.mdioCfg n) 31 = true →
    ∃ t, exec (.mdioC22Read m n v) s = .next t ∧ t.rb (Reg.mdioCmd n) 30 = true ∧ t.rf (Reg.mdioCmd n) 26 24 = fld v 26 24 ∧ t.rf (Reg.mdioCmd n) 20 16 = fld v 20 16 ∧ t.rf (Reg.mdioCmd n) 12 8 = fld v 12 8) ∧
  (∀ (s : State) (m n : Nat) (v : Word), s.life.rails = true → n < 4 → takes s m (Reg.mdioCmd n) v = true → bitOf v 31 = true → bitOf v 26 = true → fld v 25 24 = 0 → s.rb (Reg.mdioCmd n) 30 = false → s.rb (Reg.mdioCfg n) 31 = true →
    ∃ t, exec (.mdioC45Address m n v) s = .next t ∧ t.rb (Reg.mdioCmd n) 30 = true ∧ t.rf (Reg.mdioCmd n) 26 24 = fld v 26 24 ∧ t.rf (Reg.mdioCmd n) 20 16 = fld v 20 16 ∧ t.rf (Reg.mdioCmd n) 12 8 = fld v 12 8) ∧
  (∀ (s : State) (m n : Nat) (v : Word), s.life.rails = true → n < 4 → takes s m (Reg.mdioCmd n) v = true → bitOf v 31 = true → bitOf v 26 = true → fld v 25 24 = 1 → s.rb (Reg.mdioCmd n) 30 = false → s.rb (Reg.mdioCfg n) 31 = true →
    ∃ t, exec (.mdioC45Write m n v) s = .next t ∧ t.rb (Reg.mdioCmd n) 30 = true ∧ t.rf (Reg.mdioCmd n) 26 24 = fld v 26 24 ∧ t.rf (Reg.mdioCmd n) 20 16 = fld v 20 16 ∧ t.rf (Reg.mdioCmd n) 12 8 = fld v 12 8) ∧
  (∀ (s : State) (m n : Nat) (v : Word), s.life.rails = true → n < 4 → takes s m (Reg.mdioCmd n) v = true → bitOf v 31 = true → bitOf v 26 = true → fld v 25 24 = 2 → s.rb (Reg.mdioCmd n) 30 = false → s.rb (Reg.mdioCfg n) 31 = true →
    ∃ t, exec (.mdioC45ReadIncrement m n v) s = .next t ∧ t.rb (Reg.mdioCmd n) 30 = true ∧ t.rf (Reg.mdioCmd n) 26 24 = fld v 26 24 ∧ t.rf (Reg.mdioCmd n) 20 16 = fld v 20 16 ∧ t.rf (Reg.mdioCmd n) 12 8 = fld v 12 8) ∧
  (∀ (s : State) (m n : Nat) (v : Word), s.life.rails = true → n < 4 → takes s m (Reg.mdioCmd n) v = true → bitOf v 31 = true → bitOf v 26 = true → fld v 25 24 = 3 → s.rb (Reg.mdioCmd n) 30 = false → s.rb (Reg.mdioCfg n) 31 = true →
    ∃ t, exec (.mdioC45Read m n v) s = .next t ∧ t.rb (Reg.mdioCmd n) 30 = true ∧ t.rf (Reg.mdioCmd n) 26 24 = fld v 26 24 ∧ t.rf (Reg.mdioCmd n) 20 16 = fld v 20 16 ∧ t.rf (Reg.mdioCmd n) 12 8 = fld v 12 8) ∧
  (∀ (s : State) (n dt : Nat) (d : BitVec 16), s.life.rails = true → n < 4 → s.rb (Reg.mdioCmd n) 30 = true → mdioReads (s.reg (Reg.mdioCmd n)) = true →
    ∃ t, exec (.mdioDone n dt 0 d) s = .next t ∧ t.rb (Reg.mdioCmd n) 30 = false ∧ t.rb (Reg.mdioCmd n) 29 = true ∧ t.rf (Reg.mdioCmd n) 28 27 = 0 ∧ t.rf (Reg.mdioData n) 15 0 = d.toNat) ∧
  (∀ (s : State) (n dt : Nat) (d : BitVec 16), s.life.rails = true → n < 4 → s.rb (Reg.mdioCmd n) 30 = true → mdioReads (s.reg (Reg.mdioCmd n)) = true →
    ∃ t, exec (.mdioDone n dt 1 d) s = .next t ∧ t.rb (Reg.mdioCmd n) 30 = false ∧ t.rf (Reg.mdioCmd n) 28 27 = 1 ∧ t.rf (Reg.mdioData n) 15 0 = 0xFFFF) ∧
  (∀ (s : State) (m sl : Nat) (v : Word), s.life.rails = true → sl < 2 → takes s m (Reg.sbCmd sl) v = true → bitOf v 31 = true → fld v 30 29 = 0 → sbBusy s sl = false → s.rb Reg.sbCfg 31 = true →
    ∃ t, exec (.sbWrite m sl v) s = .next t ∧ (sbBusy t sl = true ∨ t.rb (Reg.sbStat sl) 30 = true) ∧ fld (t.reg (Reg.sbCmd sl)) 15 0 = fld v 15 0 ∧ fld (t.reg (Reg.sbCmd sl)) 30 29 = 0) ∧
  (∀ (s : State) (m sl : Nat) (v : Word), s.life.rails = true → sl < 2 → takes s m (Reg.sbCmd sl) v = true → bitOf v 31 = true → fld v 30 29 = 1 → sbBusy s sl = false → s.rb Reg.sbCfg 31 = true →
    ∃ t, exec (.sbRead m sl v) s = .next t ∧ (sbBusy t sl = true ∨ t.rb (Reg.sbStat sl) 30 = true) ∧ fld (t.reg (Reg.sbCmd sl)) 15 0 = fld v 15 0 ∧ fld (t.reg (Reg.sbCmd sl)) 30 29 = 1) ∧
  (∀ (s : State) (m sl : Nat) (v : Word), s.life.rails = true → sl < 2 → takes s m (Reg.sbCmd sl) v = true → bitOf v 31 = true → fld v 30 29 = 2 → sbBusy s sl = false → s.rb Reg.sbCfg 31 = true →
    ∃ t, exec (.sbWriteRead m sl v) s = .next t ∧ (sbBusy t sl = true ∨ t.rb (Reg.sbStat sl) 30 = true) ∧ fld (t.reg (Reg.sbCmd sl)) 15 0 = fld v 15 0 ∧ fld (t.reg (Reg.sbCmd sl)) 30 29 = 2) ∧
  (∀ (s : State) (m sl : Nat) (v : Word), s.life.rails = true → sl < 2 → takes s m (Reg.sbCmd sl) v = true → bitOf v 31 = true → fld v 30 29 = 0 → sbBusy s sl = true ∨ s.rb Reg.sbCfg 31 = false → exec (.sbWrite m sl v) s = .next (s.reject (Reg.sbCmd sl))) ∧
  (∀ (s : State) (m sl : Nat) (v : Word), s.life.rails = true → sl < 2 → takes s m (Reg.sbCmd sl) v = true → bitOf v 31 = true → fld v 30 29 = 1 → sbBusy s sl = true ∨ s.rb Reg.sbCfg 31 = false → exec (.sbRead m sl v) s = .next (s.reject (Reg.sbCmd sl))) ∧
  (∀ (s : State) (m sl : Nat) (v : Word), s.life.rails = true → sl < 2 → takes s m (Reg.sbCmd sl) v = true → bitOf v 31 = true → sbBusy s sl = false → s.rb Reg.sbCfg 31 = true → sbState s ≠ 3 → fld v 30 29 = 0 → fld v 15 8 = 0 →
    ∃ t, exec (.sbWrite m sl v) s = .next t ∧ sbBusy t sl = false ∧ t.rf (Reg.sbStat sl) 7 0 = 6 ∧ t.sb = s.sb) ∧
  (∀ (s : State) (sl dt st : Nat) (d : List Byte), s.life.rails = true → sl < 2 → sbState s = 1 → s.sb.active = some sl → st < 4 ∨ st = 4 ∧ s.rb (Reg.sbCmd sl) 28 = true → st ≠ 0 ∨ d.length = (if s.rf (Reg.sbCmd sl) 30 29 = 0 then 0 else s.rf (Reg.sbCmd sl) 7 0) →
    ∃ t, exec (.sbDone sl dt st d) s = .next t ∧ sbBusy t sl = false ∧ t.rb (Reg.sbStat sl) 30 = true ∧ t.rf (Reg.sbStat sl) 7 0 = st ∧ t.sb.active ≠ some sl) ∧
  (∀ (s : State) (dt : Nat), s.life.rails = true → s.rb Reg.sbCfg 31 = true → sbState s = 2 → s.sb.tries < 2 → s.sb.triedAt + msUnit ≤ s.up + dt → ∃ t, exec (.sbRecovery dt false) s = .next t ∧ sbState t = 2 ∧ t.sb.tries = s.sb.tries + 1 ∧ t.sb.triedAt = s.up + dt ∧ t.sb.active = none) ∧
  (∀ (s : State) (dt : Nat), s.life.rails = true → s.rb Reg.sbCfg 31 = true → sbState s = 3 → s.sb.triedAt + secUnit ≤ s.up + dt → ∃ t, exec (.sbRecovery dt false) s = .next t ∧ sbState t = 3 ∧ t.sb.triedAt = s.up + dt) ∧
  (∀ (s : State) (dt : Nat), s.life.rails = true → s.rb Reg.sbCfg 31 = true → sbState s < 2 → s.sb.triedAt ≤ s.up + dt → ∃ t, exec (.sbRecovery dt false) s = .next t ∧ sbState t = 2 ∧ t.sb.tries = 1 ∧ t.sb.active = none) ∧
  (∀ (s : State) (n dt : Nat) (d : BitVec 16), s.life.rails = true → n < 4 → s.rb (Reg.mdioCmd n) 30 = true →
    ∃ t, exec (.mdioDone n dt 2 d) s = .next t ∧ t.rb (Reg.mdioCmd n) 30 = false ∧ t.rb (Reg.mdioCmd n) 29 = true ∧ t.rf (Reg.mdioCmd n) 28 27 = 2 ∧ t.reg (Reg.mdioData n) = s.reg (Reg.mdioData n)) ∧
  (∀ (s : State) (n dt : Nat) (d : BitVec 16), s.life.rails = true → n < 4 → s.rb (Reg.mdioCmd n) 30 = true → mdioReads (s.reg (Reg.mdioCmd n)) = false →
    ∃ t, exec (.mdioDone n dt 0 d) s = .next t ∧ t.rb (Reg.mdioCmd n) 30 = false ∧ t.rf (Reg.mdioCmd n) 28 27 = 0 ∧ t.reg (Reg.mdioData n) = s.reg (Reg.mdioData n)) ∧
  (∀ (s : State) (m n : Nat) (v : Word), s.life.rails = true → n < 4 → takes s m (Reg.mdioCmd n) v = true → bitOf v 31 = true → bitOf v 26 = false → fld v 25 24 = 1 → s.rb (Reg.mdioCmd n) 30 = true ∨ s.rb (Reg.mdioCfg n) 31 = false → exec (.mdioC22Write m n v) s = .next (s.reject (Reg.mdioCmd n))) ∧
  (∀ (s : State) (m n : Nat) (v : Word), s.life.rails = true → n < 4 → takes s m (Reg.mdioCmd n) v = true → bitOf v 31 = true → bitOf v 26 = false → fld v 25 24 = 2 → s.rb (Reg.mdioCmd n) 30 = true ∨ s.rb (Reg.mdioCfg n) 31 = false → exec (.mdioC22Read m n v) s = .next (s.reject (Reg.mdioCmd n))) ∧
  (∀ (s : State) (m n : Nat) (v : Word), s.life.rails = true → n < 4 → takes s m (Reg.mdioCmd n) v = true → bitOf v 31 = true → bitOf v 26 = true → fld v 25 24 = 0 → s.rb (Reg.mdioCmd n) 30 = true ∨ s.rb (Reg.mdioCfg n) 31 = false → exec (.mdioC45Address m n v) s = .next (s.reject (Reg.mdioCmd n))) ∧
  (∀ (s : State) (m n : Nat) (v : Word), s.life.rails = true → n < 4 → takes s m (Reg.mdioCmd n) v = true → bitOf v 31 = true → bitOf v 26 = true → fld v 25 24 = 1 → s.rb (Reg.mdioCmd n) 30 = true ∨ s.rb (Reg.mdioCfg n) 31 = false → exec (.mdioC45Write m n v) s = .next (s.reject (Reg.mdioCmd n))) ∧
  (∀ (s : State) (m n : Nat) (v : Word), s.life.rails = true → n < 4 → takes s m (Reg.mdioCmd n) v = true → bitOf v 31 = true → bitOf v 26 = true → fld v 25 24 = 2 → s.rb (Reg.mdioCmd n) 30 = true ∨ s.rb (Reg.mdioCfg n) 31 = false → exec (.mdioC45ReadIncrement m n v) s = .next (s.reject (Reg.mdioCmd n))) ∧
  (∀ (s : State) (m n : Nat) (v : Word), s.life.rails = true → n < 4 → takes s m (Reg.mdioCmd n) v = true → bitOf v 31 = true → bitOf v 26 = true → fld v 25 24 = 3 → s.rb (Reg.mdioCmd n) 30 = true ∨ s.rb (Reg.mdioCfg n) 31 = false → exec (.mdioC45Read m n v) s = .next (s.reject (Reg.mdioCmd n)))

/-- R584, R585, R586, R587, R588, R589, R590, R591: what is written through a window stands in the unit that the select registers name, and nothing else of it changes: instruction memory only while no thread of the
engine runs, local data and shared memory with the tag WTAG, an entry of the parse tables when its second word is written in SETUP, templates no port uses, the staging gate list, a MACsec entry when its first
word is written, the staging system block, and the strongbox; reads return what stands there with its tag. What a write of a word does at once is log entry 52. -/
def Obligations.WindowsReachTheirUnits : Prop :=
  (∀ (s : State) (m ofs : Nat) (v : Word), s.life.rails = true → ofs % 4 = 0 → delivers s m (0x200000 + ofs) v = true → ofs < 0x10000 → engFailed s (iwEngine s) = false → mayLoadCode s (iwEngine s) = true →
    ∃ t, exec (.engmemWrite m ofs v) s = .next t ∧ imemWord (t.eng (iwEngine s)) ofs = v.toNat ∧ (∀ a, a < ofs ∨ ofs + 4 ≤ a → memByte (t.eng (iwEngine s)).imem a = memByte (s.eng (iwEngine s)).imem a) ∧ (∀ e, e ≠ iwEngine s → t.eng e = s.eng e) ∧ t.regs = s.regs) ∧
  (∀ (s : State) (m ofs : Nat) (v : Word), s.life.rails = true → ofs % 4 = 0 → delivers s m (0x200000 + ofs) v = true → ofs < 0x10000 → mayLoadCode s (iwEngine s) = false → exec (.engmemWrite m ofs v) s = .next (s.setRf (engStatR (iwEngine s)) 31 31 1)) ∧
  (∀ (s : State) (m ofs : Nat) (v : Word), s.life.rails = true → ofs % 4 = 0 → delivers s m (0x200000 + ofs) v = true → 0x10000 ≤ ofs → ofs < 0x30000 → engFailed s (iwEngine s) = false →
    ∃ t, exec (.engmemWrite m ofs v) s = .next t ∧ mapGet TWord.zero (t.eng (iwEngine s)).local_ ((ofs - 0x10000) / 4) = ⟨BitVec.ofNat 4 (wTag s), v⟩ ∧
      (∀ k, k ≠ (ofs - 0x10000) / 4 → mapGet TWord.zero (t.eng (iwEngine s)).local_ k = mapGet TWord.zero (s.eng (iwEngine s)).local_ k) ∧ t.regs = s.regs) ∧
  (∀ (s : State) (m ofs : Nat), s.life.rails = true → ofs % 4 = 0 → reaches s m (0x200000 + ofs) = true → ofs < 0x10000 → engFailed s (iwEngine s) = false → ∃ t, exec (.engmemRead m ofs) s = .next t ∧ (mapGet 0 t.resp m).toNat = imemWord (s.eng (iwEngine s)) ofs ∧ t.engines = s.engines ∧ t.regs = s.regs) ∧
  (∀ (s : State) (m ofs : Nat) (w : TWord), s.life.rails = true → ofs % 4 = 0 → reaches s m (0x200000 + ofs) = true → 0x10000 ≤ ofs → ofs < 0x30000 → engFailed s (iwEngine s) = false → mapGet TWord.zero (s.eng (iwEngine s)).local_ ((ofs - 0x10000) / 4) = w → w.poison = false →
    (s.eng (iwEngine s)).localBad.contains ((ofs - 0x10000) / 4) = false →
    ∃ t, exec (.engmemRead m ofs) s = .next t ∧ mapGet 0 t.resp m = w.data ∧ t.rf Reg.iwTag 7 4 = w.tag.toNat ∧ t.engines = s.engines) ∧
  (∀ (s : State) (m ofs : Nat) (v : Word), s.life.rails = true → ofs % 4 = 0 → delivers s m (0x240000 + ofs) v = true → ofs < 0x40000 →
    ∃ t, exec (.shmemWrite m ofs v) s = .next t ∧ shmWord t (iwIsland s) (iwPage s + ofs) = ⟨BitVec.ofNat 4 (wTag s), v⟩ ∧ (∀ i a, i ≠ iwIsland s → shmWord t i a = shmWord s i a) ∧
      (∀ a, 0x100000 ≤ a → a % 4 = 0 → a ≠ iwPage s + ofs → shmWord t (iwIsland s) a = shmWord s (iwIsland s) a) ∧ t.regs = s.regs) ∧
  (∀ (s : State) (m ofs : Nat), s.life.rails = true → ofs % 4 = 0 → reaches s m (0x240000 + ofs) = true → ofs < 0x40000 → (shmWord s (iwIsland s) (iwPage s + ofs)).poison = false →
    ∃ t, exec (.shmemRead m ofs) s = .next t ∧ mapGet 0 t.resp m = (shmWord s (iwIsland s) (iwPage s + ofs)).data ∧ t.rf Reg.iwTag 7 4 = (shmWord s (iwIsland s) (iwPage s + ofs)).tag.toNat ∧ t.shared = s.shared) ∧
  (∀ (s : State) (m ofs : Nat), s.life.rails = true → ofs % 4 = 0 → reaches s m (0x240000 + ofs) = true → ofs < 0x40000 → (shmWord s (iwIsland s) (iwPage s + ofs)).poison = true →
    ∃ t, exec (.shmemRead m ofs) s = .next t ∧ mapGet 0 t.resp m = 0 ∧ t.rf Reg.iwTag 7 4 = 15 ∧ t.shared = s.shared) ∧
  (∀ (s : State) (m ofs : Nat) (v : Word), s.life.rails = true → ofs % 4 = 0 → delivers s m (0x280000 + ofs) v = true → s.mode = 1 → ofs < 0x7F8 → ofs % 8 = 0 → ∃ t, exec (.parseWrite m ofs v) s = .next t ∧ t.slices = s.slices ∧ t.held m 0x280000 = some v ∧ t.held m 0x280004 = some (BitVec.ofNat 32 (iwSl s * 0x10000 + ofs / 8))) ∧
  (∀ (s : State) (m ofs : Nat) (v x : Word), s.life.rails = true → ofs % 8 = 4 → delivers s m (0x280000 + ofs) v = true → s.mode = 1 → ofs < 0x7F8 → s.held m 0x280000 = some x → s.held m 0x280004 = some (BitVec.ofNat 32 (iwSl s * 0x10000 + ofs / 8)) → parseOk x v = true →
    ∃ t, exec (.parseWrite m ofs v) s = .next t ∧ parseState (t.slice (iwSl s)) (ofs / 8) = (x.toNat, v.toNat) ∧ (∀ k, k ≠ ofs / 8 → parseState (t.slice (iwSl s)) k = parseState (s.slice (iwSl s)) k) ∧ t.regs = s.regs) ∧
  (∀ (s : State) (m ofs : Nat) (v : Word), s.life.rails = true → ofs % 4 = 0 → delivers s m (0x280000 + ofs) v = true → s.mode ≠ 1 → ofs < 0x800 → exec (.parseWrite m ofs v) s = .next (s.setRf (Reg.sortStat (iwSl s)) 31 31 1)) ∧
  (∀ (s : State) (m ofs : Nat) (v : Word), s.life.rails = true → ofs % 4 = 0 → delivers s m (0x290000 + ofs) v = true → ofs < 0x1000 → ofs % 0x100 < 0x88 → tplUsed s (iwSl s) (ofs / 0x100) = false →
    ∃ t, exec (.edtplWrite m ofs v) s = .next t ∧ tplWord t (iwSl s) (ofs / 0x100) (ofs % 0x100 / 4) = v ∧ (∀ k, k ≠ iwSl s → t.slice k = s.slice k) ∧ t.regs = s.regs) ∧
  (∀ (s : State) (m ofs : Nat) (v : Word), s.life.rails = true → ofs % 4 = 0 → delivers s m (0x2A0000 + ofs) v = true → ofs < 0x80 → fld v 23 0 ≠ 0 → s.rb (Reg.portGateCtl (iwP s)) 29 = false →
    ∃ t, exec (.gclWrite m ofs v) s = .next t ∧ mapGet 0 (t.port (iwP s)).gclStaging (ofs / 4) = v ∧ (t.port (iwP s)).gclActive = (s.port (iwP s)).gclActive ∧ t.regs = s.regs) ∧
  (∀ (s : State) (m ofs : Nat) (v : Word), s.life.rails = true → ofs % 4 = 0 → delivers s m (0x2A0000 + ofs) v = true → ofs < 0x80 → fld v 23 0 = 0 ∨ s.rb (Reg.portGateCtl (iwP s)) 29 = true → exec (.gclWrite m ofs v) s = .next (s.setRf Reg.depotStat 31 31 1)) ∧
  (∀ (s : State) (m ofs : Nat) (v : Word), s.life.rails = true → ofs % 4 = 0 → delivers s m (0x2B0000 + ofs) v = true → ofs < 0x280 → saPort s (iwP s) = true → 0 < ofs % 0x40 → ofs % 0x40 < 0x24 → bitOf (saWord s (iwP s) (ofs / 0x40) 0) 31 = false →
    ∃ t, exec (.macsecWrite m ofs v) s = .next t ∧ t.held m (saHold (iwP s) (ofs / 0x40) (ofs % 0x40 / 4)) = some v ∧ t.ports = s.ports ∧ t.regs = s.regs) ∧
  (∀ (s : State) (m ofs : Nat) (v : Word), s.life.rails = true → ofs % 4 = 0 → delivers s m (0x2B0000 + ofs) v = true → ofs < 0x280 → saPort s (iwP s) = true → ofs % 0x40 = 0 → saRefused s (iwP s) (ofs / 0x40) v = false →
    ∃ t, exec (.macsecWrite m ofs v) s = .next t ∧ saWord t (iwP s) (ofs / 0x40) 0 = v ∧ t.regs = s.regs ∧
      (∀ i < 9, i ≠ 0 → saWord t (iwP s) (ofs / 0x40) i = (s.held m (saHold (iwP s) (ofs / 0x40) i)).getD (saWord s (iwP s) (ofs / 0x40) i))) ∧
  (∀ (s : State) (m ofs : Nat) (v : Word), s.life.rails = true → ofs % 4 = 0 → delivers s m (0x2B0000 + ofs) v = true → ofs < 0x280 → saPort s (iwP s) = true → ofs % 0x40 = 0 → saRefused s (iwP s) (ofs / 0x40) v = true → exec (.macsecWrite m ofs v) s = .next (s.setRf (Reg.laneStat (iwP s / 4)) 31 31 1)) ∧
  (∀ (s : State) (m ofs : Nat) (v : Word), s.life.rails = true → ofs % 4 = 0 → delivers s m (0x2C0000 + ofs) v = true → ofs < 0x1000 → stageHeld s = false →
    ∃ t, exec (.sysblkWrite m ofs v) s = .next t ∧ mapGet 0 t.epoch.sysS (ofs / 4) = v ∧ (∀ k, k ≠ ofs / 4 → mapGet 0 t.epoch.sysS k = mapGet 0 s.epoch.sysS k) ∧ t.epoch.sysA = s.epoch.sysA ∧ t.regs = s.regs) ∧
  (∀ (s : State) (m ofs : Nat) (v : Word), s.life.rails = true → ofs % 4 = 0 → reaches s m (0x2C0000 + ofs) = true → ofs < 0x1000 → stageHeld s = true → exec (.sysblkWrite m ofs v) s = .next (s.waitAt m (0x2C0000 + ofs) true v)) ∧
  (∀ (s : State) (m ofs : Nat) (v : Word), s.life.rails = true → ofs % 4 = 0 → delivers s m (0x300000 + ofs) v = true → ofs < 0x100000 → s.mode ≠ 5 →
    ∃ t, exec (.strongWrite m ofs v) s = .next t ∧ memRead t.cellar.strong (s.rf Reg.iwStrong 1 0 * 0x100000 + ofs) 4 = leBytes 4 v.toNat ∧
      (∀ a, a < s.rf Reg.iwStrong 1 0 * 0x100000 + ofs ∨ s.rf Reg.iwStrong 1 0 * 0x100000 + ofs + 4 ≤ a → memByte t.cellar.strong a = memByte s.cellar.strong a) ∧ t.regs = s.regs) ∧
  (∀ (s : State) (m ofs : Nat) (v : Word), s.life.rails = true → ofs % 4 = 0 → ofs < 0x40000 → delivers s m (0x200000 + ofs) v = true → ∃ t, exec (.engmemWrite m ofs v) s = .next t ∧ t.mode = s.mode ∧ t.pending = s.pending ∧ t.resp = s.resp) ∧
  (∀ (s : State) (m ofs : Nat) (v : Word), s.life.rails = true → ofs % 4 = 0 → ofs < 0x40000 → delivers s m (0x240000 + ofs) v = true → ∃ t, exec (.shmemWrite m ofs v) s = .next t ∧ t.mode = s.mode ∧ t.pending = s.pending ∧ t.resp = s.resp) ∧
  (∀ (s : State) (m ofs : Nat) (v : Word), s.life.rails = true → ofs % 4 = 0 → ofs < 0x10000 → delivers s m (0x280000 + ofs) v = true → ∃ t, exec (.parseWrite m ofs v) s = .next t ∧ t.mode = s.mode ∧ t.pending = s.pending ∧ t.resp = s.resp) ∧
  (∀ (s : State) (m ofs : Nat) (v : Word), s.life.rails = true → ofs % 4 = 0 → ofs < 0x10000 → delivers s m (0x290000 + ofs) v = true → ∃ t, exec (.edtplWrite m ofs v) s = .next t ∧ t.mode = s.mode ∧ t.pending = s.pending ∧ t.resp = s.resp) ∧
  (∀ (s : State) (m ofs : Nat) (v : Word), s.life.rails = true → ofs % 4 = 0 → ofs < 0x10000 → delivers s m (0x2A0000 + ofs) v = true → ∃ t, exec (.gclWrite m ofs v) s = .next t ∧ t.mode = s.mode ∧ t.pending = s.pending ∧ t.resp = s.resp) ∧
  (∀ (s : State) (m ofs : Nat) (v : Word), s.life.rails = true → ofs % 4 = 0 → ofs < 0x10000 → delivers s m (0x2B0000 + ofs) v = true → ∃ t, exec (.macsecWrite m ofs v) s = .next t ∧ t.mode = s.mode ∧ t.pending = s.pending ∧ t.resp = s.resp) ∧
  (∀ (s : State) (m ofs : Nat) (v : Word), s.life.rails = true → ofs % 4 = 0 → ofs < 0x10000 → delivers s m (0x2C0000 + ofs) v = true → ∃ t, exec (.sysblkWrite m ofs v) s = .next t ∧ t.mode = s.mode ∧ t.pending = s.pending ∧ t.resp = s.resp) ∧
  (∀ (s : State) (m ofs : Nat) (v : Word), s.life.rails = true → ofs % 4 = 0 → ofs < 0x100000 → delivers s m (0x300000 + ofs) v = true → ∃ t, exec (.strongWrite m ofs v) s = .next t ∧ t.mode = s.mode ∧ t.pending = s.pending ∧ t.resp = s.resp) ∧
  (∀ (s : State) (m ofs : Nat), s.life.rails = true → ofs % 4 = 0 → ofs < 0x40000 → reaches s m (0x200000 + ofs) = true → ∃ t, exec (.engmemRead m ofs) s = .next t ∧ t.mode = s.mode ∧ t.engines = s.engines ∧ t.shared = s.shared ∧ (∀ k, k ≠ m → mapGet 0 t.resp k = mapGet 0 s.resp k)) ∧
  (∀ (s : State) (m ofs : Nat), s.life.rails = true → ofs % 4 = 0 → ofs < 0x40000 → reaches s m (0x240000 + ofs) = true → ∃ t, exec (.shmemRead m ofs) s = .next t ∧ t.mode = s.mode ∧ t.engines = s.engines ∧ t.shared = s.shared ∧ (∀ k, k ≠ m → mapGet 0 t.resp k = mapGet 0 s.resp k)) ∧
  (∀ (s : State) (m ofs : Nat) (v : Word), s.life.rails = true → ofs % 4 = 0 → ofs < 0x40000 → reaches s m (0x200000 + ofs) = false → funcMay (funcOf m) (0x200000 + ofs) = true → s.mode ≠ 0 → exec (.engmemWrite m ofs v) s = .next (s.waitAt m (0x200000 + ofs) true v)) ∧
  (∀ (s : State) (m ofs : Nat) (v : Word), s.life.rails = true → ofs % 8 = 4 → delivers s m (0x280000 + ofs) v = true → s.mode = 1 → 0x1000 ≤ ofs → ofs < 0x3000 → s.held m 0x280004 ≠ some (BitVec.ofNat 32 (iwSl s * 0x10000 + ofs / 8)) →
    transOk (BitVec.ofNat 32 (transEntry (s.slice (iwSl s)) ((ofs - 0x1000) / 8)).1) = true →
    ∃ t, exec (.parseWrite m ofs v) s = .next t ∧ transEntry (t.slice (iwSl s)) ((ofs - 0x1000) / 8) = ((transEntry (s.slice (iwSl s)) ((ofs - 0x1000) / 8)).1 % 2 ^ 32, v.toNat) ∧ t.regs = s.regs) ∧
  (∀ (s : State) (m ofs : Nat) (v : Word), s.life.rails = true → ofs % 4 = 0 → delivers s m (0x290000 + ofs) v = true → ofs < 0x1000 → ofs % 0x100 < 0x88 → tplUsed s (iwSl s) (ofs / 0x100) = true → exec (.edtplWrite m ofs v) s = .next (s.setRf Reg.hallStat 31 31 1)) ∧
  (∀ (s : State) (m ofs : Nat) (v : Word), s.life.rails = true → ofs % 4 = 0 → delivers s m (0x2A0000 + ofs) v = true → 0x100 ≤ ofs → ofs < 0x180 → exec (.gclWrite m ofs v) s = .next s) ∧
  (∀ (s : State) (m ofs : Nat) (v : Word), s.life.rails = true → ofs % 4 = 0 → delivers s m (0x2C0000 + ofs) v = true → 0x1000 ≤ ofs → ofs < 0x2000 → exec (.sysblkWrite m ofs v) s = .next s)

/-- R479, R536, R543, R544, R571 to R577, R582: a write of a whole dword changes the writable fields of the register it reaches and, where no chapter says more, nothing else; one that breaks a range or a condition sets the REJECT bit
of its block; the LO word of a pair is held; a write that is a row of its own has that row's effect; bytes, reserved offsets and another function's page are not written; a read returns the readable bits,
latches the HI word of a pair, clears what is cleared by reading, and returns 0 where nothing answers. The reading of range conditions is log entry 15, BAR2's log entry 53. -/
def Obligations.RegistersAreWrittenAndRead : Prop :=
  (∀ (s : State) (m ofs k : Nat) (v : Word) (d : RegDesc), s.life.rails = true → ofs < 0x200000 → ofs % 4 = 0 → delivers s m ofs v = true → rowWrite m ofs v = none → regKey s ofs = k → findReg k = some d → inRanges d v = true →
    writeRefused s k v = false → noWrites d = false → writeNoEffect k = false → isPairLo k = false → pairLo k = none →
    [Reg.timeSrcCfg, Reg.trcCfg, Reg.trcRptr, Reg.logCfg, Reg.recCfg, Reg.spareCfg, Reg.courTimeCfg].contains k = false → ¬(0x1000 ≤ k ∧ k < 0x3000) → ¬(0x50400 ≤ k ∧ k < 0x50500) → ¬(0x80000 ≤ k ∧ k < 0x100000) →
    exec (.registerWrite m ofs v 15) s = .next (s.setReg k (writeFields d (s.reg k) v))) ∧
  (∀ (s : State) (m ofs : Nat) (v : Word) (d : RegDesc), s.life.rails = true → ofs < 0x200000 → ofs % 4 = 0 → delivers s m ofs v = true → rowWrite m ofs v = none → findReg (regKey s ofs) = some d →
    inRanges d v = false ∨ writeRefused s (regKey s ofs) v = true → writeNoEffect (regKey s ofs) = false → noWrites d = false → exec (.registerWrite m ofs v 15) s = .next (s.reject (regKey s ofs))) ∧
  (∀ (s : State) (m ofs : Nat) (v : Word), s.life.rails = true → ofs < 0x200000 → ofs % 4 = 0 → delivers s m ofs v = true → rowWrite m ofs v = none → findReg (regKey s ofs) = none →
    exec (.registerWrite m ofs v 15) s = .next (s.stray m ofs true)) ∧
  (∀ (s : State) (m ofs be : Nat) (v : Word), s.life.rails = true → ofs < 0x400000 → ofs % 4 = 0 → reaches s m ofs = true → be ≠ 15 → exec (.registerWrite m ofs v be) s = .next (s.stray m ofs true)) ∧
  (∀ (s : State) (m ofs be : Nat) (v : Word), s.life.rails = true → ofs < 0x400000 → ofs % 4 = 0 → funcMay (funcOf m) ofs = false → be ≠ 15 → exec (.registerWrite m ofs v be) s = .next (s.count Reg.tenDenyCnt)) ∧
  (∀ (s : State) (m : Nat) (v : Word), s.life.rails = true → takes s m Reg.recBaseLo v = true → s.rb Reg.recCfg 31 = false → fld v 19 0 = 0 →
    ∃ t, exec (.registerWrite m Reg.recBaseLo v 15) s = .next t ∧ t.held m Reg.recBaseLo = some v ∧ t.regs = s.regs) ∧
  (∀ (s : State) (m : Nat) (v lo : Word), s.life.rails = true → takes s m Reg.graphSrcHi v = true → s.held m Reg.graphSrcLo = some lo →
    ∃ t, exec (.registerWrite m Reg.graphSrcHi v 15) s = .next t ∧ t.reg Reg.graphSrcLo = lo ∧ t.held m Reg.graphSrcLo = none ∧ t.shared = s.shared) ∧
  (∀ (s : State) (m : Nat) (v : Word), s.life.rails = true → takes s m Reg.trcCfg v = true → s.rb Reg.trcCfg 31 = false → fld v 15 0 % 2 ^ fld v 19 16 = 0 → bitOf v 31 = true → s.evt.trcGap.count = 0 →
    ∃ t, exec (.registerWrite m Reg.trcCfg v 15) s = .next t ∧ t.reg Reg.trcWptr = 0 ∧ t.reg Reg.trcRptr = 0 ∧ t.rb Reg.trcCfg 31 = true ∧ t.evt = s.evt) ∧
  (∀ (s : State) (m ofs : Nat) (v : Word), s.life.rails = true → ofs < 0x40000 → ofs % 4 = 0 → exec (.registerWrite m (0x200000 + ofs) v 15) s = exec (.engmemWrite m ofs v) s) ∧
  (∀ (s : State) (m : Nat) (v : Word), s.life.rails = true → bitOf v 31 = true → exec (.registerWrite m Reg.cntClr v 15) s = exec (.cntClr m v) s ∧ exec (.registerWrite m Reg.lifeCtl v 15) s = exec (.svcArm m v) s ∧
    exec (.registerWrite m Reg.tenCtl v 15) s = exec (.tenReset m v) s) ∧
  (∀ (s : State) (m ofs k : Nat) (d : RegDesc), s.life.rails = true → ofs < 0x200000 → ofs % 4 = 0 → reaches s m ofs = true → ofs ≠ Reg.alqW 0 →
    ¬(0x80000 ≤ ofs ∧ ofs < 0x100000 ∧ 0x100 ≤ ofs % 0x1000 ∧ ofs % 0x1000 < 0x500 ∧ ofs % 0x100 = 0x20) → regKey s ofs = k → findReg k = some d → fromLatch k = false → readsLo k = false → clearsOnRead k = false →
    ∃ t, exec (.registerRead m ofs) s = .next t ∧ mapGet 0 t.resp m = shown s k &&& BitVec.ofNat 32 d.rd ∧ t.regs = s.regs ∧ t.latches = s.latches ∧ (∀ n, n ≠ m → mapGet 0 t.resp n = mapGet 0 s.resp n)) ∧
  (∀ (s : State) (m : Nat), s.life.rails = true → reaches s m Reg.recTrigLo = true →
    ∃ t, exec (.registerRead m Reg.recTrigLo) s = .next t ∧ mapGet 0 t.resp m = s.reg Reg.recTrigLo ∧ latched t m Reg.recTrigHi = some (s.reg Reg.recTrigHi) ∧ t.regs = s.regs) ∧
  (∀ (s : State) (m : Nat) (w : Word), s.life.rails = true → reaches s m Reg.recTrigHi = true → latched s m Reg.recTrigHi = some w →
    ∃ t, exec (.registerRead m Reg.recTrigHi) s = .next t ∧ mapGet 0 t.resp m = w ∧ t.regs = s.regs) ∧
  (∀ (s : State) (m p : Nat), s.life.rails = true → p < 512 → reaches s m (pReg Reg.portXlatMax p) = true →
    ∃ t, exec (.registerRead m (pReg Reg.portXlatMax p)) s = .next t ∧ mapGet 0 t.resp m = s.reg (pReg Reg.portXlatMax p) ∧ t.reg (pReg Reg.portXlatMax p) = 0) ∧
  (∀ (s : State) (m ofs : Nat), s.life.rails = true → ofs < 0x200000 → ofs % 4 = 0 → ofs ≠ Reg.alqW 0 → ¬(0x80000 ≤ ofs ∧ ofs < 0x100000 ∧ 0x100 ≤ ofs % 0x1000 ∧ ofs % 0x1000 < 0x500 ∧ ofs % 0x100 = 0x20) →
    funcMay (funcOf m) ofs = false → s.pathFree ofs = true →
    ∃ t, exec (.registerRead m ofs) s = .next t ∧ mapGet 0 t.resp m = 0 ∧ t.reg Reg.tenDenyCnt = (s.count Reg.tenDenyCnt).reg Reg.tenDenyCnt) ∧
  (∀ (s : State) (m : Nat), exec (.registerRead m (Reg.alqW 0)) s = exec (.alarmPop m) s) ∧
  (∀ (s : State) (m ofs : Nat) (v : Word) (d : RegDesc), s.life.rails = true → ofs < 0x200000 → ofs % 4 = 0 → delivers s m ofs v = true → rowWrite m ofs v = none → findReg (regKey s ofs) = some d →
    noWrites d = true ∨ writeNoEffect (regKey s ofs) = true → exec (.registerWrite m ofs v 15) s = .next s) ∧
  (∀ (s : State) (m ofs : Nat) (v : Word), s.life.rails = true → ofs < 0x200000 → ofs % 4 = 0 → rowWrite m ofs v = none → s.mustWait ofs true v = true → exec (.registerWrite m ofs v 15) s = .next (s.waitAt m ofs true v)) ∧
  (∀ (s t : State) (m ofs : Nat) (v : Word) (g : State → Host.Outcome State Fault Refusal), s.life.rails = true → ofs < 0x400000 → ofs % 4 = 0 → rowWrite m ofs v = some g → g s = .next t → exec (.registerWrite m ofs v 15) s = .next t) ∧
  (∀ (s : State) (m ofs : Nat), s.life.rails = true → ofs < 0x400000 → ofs % 4 = 0 → ofs ≠ Reg.alqW 0 → ¬(0x80000 ≤ ofs ∧ ofs < 0x100000 ∧ 0x100 ≤ ofs % 0x1000 ∧ ofs % 0x1000 < 0x500 ∧ ofs % 0x100 = 0x20) → s.pathFree ofs = true →
    ∃ t, exec (.registerRead m ofs) s = .next t ∧ t.mode = s.mode ∧ t.evt = s.evt ∧ t.shared = s.shared ∧ (∀ n, n ≠ m → mapGet 0 t.resp n = mapGet 0 s.resp n)) ∧
  (∀ (s : State) (m ofs : Nat), s.life.rails = true → ofs < 0x400000 → ofs % 4 = 0 → ofs ≠ Reg.alqW 0 → ¬(0x80000 ≤ ofs ∧ ofs < 0x100000 ∧ 0x100 ≤ ofs % 0x1000 ∧ ofs % 0x1000 < 0x500 ∧ ofs % 0x100 = 0x20) → s.pathFree ofs = false →
    exec (.registerRead m ofs) s = .next (s.waitAt m ofs false 0))

/-- R575: the first stray access after HALL_STRAY_ADDR.V was last cleared is captured, and each later one only increments HALL_STRAY_CNT: so do a write that does not enable all four bytes and a read of an
offset where no register stands, and so does every stray access. -/
def Obligations.StrayAccessesAreCaptured : Prop :=
  (∀ (s : State) (m ofs be : Nat) (v : Word), s.life.rails = true → ofs < 0x400000 → ofs % 4 = 0 → reaches s m ofs = true → be ≠ 15 → s.rb Reg.strayAddr 31 = false →
    ∃ t, exec (.registerWrite m ofs v be) s = .next t ∧ t.rb Reg.strayAddr 31 = true ∧ t.rb Reg.strayAddr 30 = true ∧ t.rf Reg.strayAddr 21 0 = ofs ∧ t.rf Reg.strayAddr 29 26 = funcOf m % 16 ∧
      t.reg Reg.strayCnt = (s.count Reg.strayCnt).reg Reg.strayCnt) ∧
  (∀ (s : State) (m ofs be : Nat) (v : Word), s.life.rails = true → ofs < 0x400000 → ofs % 4 = 0 → reaches s m ofs = true → be ≠ 15 → s.rb Reg.strayAddr 31 = true →
    exec (.registerWrite m ofs v be) s = .next (s.count Reg.strayCnt)) ∧
  (∀ (s : State) (m ofs : Nat), s.life.rails = true → ofs < 0x80000 → ofs % 4 = 0 → reaches s m ofs = true → findReg (regKey s ofs) = none → s.rb Reg.strayAddr 31 = false →
    ∃ t, exec (.registerRead m ofs) s = .next t ∧ mapGet 0 t.resp m = 0 ∧ t.rb Reg.strayAddr 31 = true ∧ t.rb Reg.strayAddr 30 = false ∧ t.rf Reg.strayAddr 21 0 = ofs) ∧
  (∀ (s : State) (m ofs : Nat), s.life.rails = true → ofs < 0x80000 → ofs % 4 = 0 → reaches s m ofs = true → findReg (regKey s ofs) = none → s.rb Reg.strayAddr 31 = true →
    ∃ t, exec (.registerRead m ofs) s = .next t ∧ mapGet 0 t.resp m = 0 ∧ t.reg Reg.strayAddr = s.reg Reg.strayAddr ∧ (∀ k, k ≠ Reg.strayCnt → t.reg k = s.reg k)) ∧
  (∀ (s : State) (m ofs : Nat) (w : Bool), s.rb Reg.strayAddr 31 = true → s.stray m ofs w = s.count Reg.strayCnt) ∧
  (∀ (s : State) (m ofs : Nat) (w : Bool), s.rb Reg.strayAddr 31 = false →
    ∃ t, t = s.stray m ofs w ∧ t.rb Reg.strayAddr 31 = true ∧ t.rb Reg.strayAddr 30 = w ∧ t.rf Reg.strayAddr 21 0 = ofs % 2 ^ 22 ∧ t.reg Reg.strayCnt = (s.count Reg.strayCnt).reg Reg.strayCnt)
end

