-- ==== Sys2Proof/Laws/State.lean ====
section
/-! SUPPORT. What each named update leaves as it was: every other field of the state, and every reading of the state that another field holds. -/

namespace Sys2Proof.Machine

/-- What setReg leaves as it was. -/
@[simp] theorem State.setReg_other (s : State) (o : Nat) (v : Word) :
    (s.setReg o v).pending = s.pending ∧ (s.setReg o v).up = s.up ∧ (s.setReg o v).now = s.now ∧ (s.setReg o v).draws = s.draws ∧
    (s.setReg o v).resp = s.resp ∧ (s.setReg o v).respEp = s.respEp ∧ (s.setReg o v).holds = s.holds ∧ (s.setReg o v).latches = s.latches ∧
    (s.setReg o v).stats = s.stats ∧ (s.setReg o v).evt = s.evt ∧ (s.setReg o v).hatches = s.hatches ∧ (s.setReg o v).hatchSince = s.hatchSince ∧
    (s.setReg o v).epoch = s.epoch ∧ (s.setReg o v).ports = s.ports ∧ (s.setReg o v).slices = s.slices ∧ (s.setReg o v).dirs = s.dirs ∧
    (s.setReg o v).stations = s.stations ∧ (s.setReg o v).frames = s.frames ∧ (s.setReg o v).depot = s.depot ∧ (s.setReg o v).time = s.time ∧
    (s.setReg o v).snapReq = s.snapReq ∧ (s.setReg o v).life = s.life ∧ (s.setReg o v).cellar = s.cellar ∧ (s.setReg o v).help = s.help ∧
    (s.setReg o v).otp = s.otp ∧ (s.setReg o v).flash = s.flash ∧ (s.setReg o v).keySlots = s.keySlots ∧ (s.setReg o v).sb = s.sb ∧
    (s.setReg o v).engines = s.engines ∧ (s.setReg o v).shared = s.shared ∧ (s.setReg o v).clks = s.clks ∧ (s.setReg o v).mbxQ = s.mbxQ ∧
    (s.setReg o v).mbxFw = s.mbxFw ∧ (s.setReg o v).mbxRung = s.mbxRung ∧ (s.setReg o v).mbxStored = s.mbxStored ∧ (s.setReg o v).keys = s.keys ∧
    (s.setReg o v).dram = s.dram ∧ (s.setReg o v).wshop = s.wshop ∧ (s.setReg o v).ledg = s.ledg ∧ (s.setReg o v).cour = s.cour ∧
    (∀ p1, (s.setReg o v).port p1 = s.port p1) ∧ (∀ i1, (s.setReg o v).slice i1 = s.slice i1) ∧ (∀ i1, (s.setReg o v).station i1 = s.station i1) ∧
    (∀ c1, (s.setReg o v).frame c1 = s.frame c1) ∧ (∀ h1, (s.setReg o v).hatch h1 = s.hatch h1) ∧ (∀ e1, (s.setReg o v).eng e1 = s.eng e1) ∧
    (∀ m1, (s.setReg o v).thr m1 = s.thr m1) ∧ (∀ i1, (s.setReg o v).shm i1 = s.shm i1) ∧ (∀ k1, (s.setReg o v).key k1 = s.key k1) ∧
    (∀ h1, (s.setReg o v).helper h1 = s.helper h1) ∧ (∀ k1, (s.setReg o v).link k1 = s.link k1) ∧ (∀ g1, (s.setReg o v).group g1 = s.group g1) ∧
    (∀ g1, (s.setReg o v).graph g1 = s.graph g1) ∧ (∀ m1 o1, (s.setReg o v).held m1 o1 = s.held m1 o1) ∧ (s.setReg o v).freeValue = s.freeValue := by
  and_intros <;> intros <;> rfl

/-- What setRf leaves as it was. -/
@[simp] theorem State.setRf_other (s : State) (o hi lo v : Nat) :
    (s.setRf o hi lo v).pending = s.pending ∧ (s.setRf o hi lo v).up = s.up ∧ (s.setRf o hi lo v).now = s.now ∧ (s.setRf o hi lo v).draws = s.draws ∧
    (s.setRf o hi lo v).resp = s.resp ∧ (s.setRf o hi lo v).respEp = s.respEp ∧ (s.setRf o hi lo v).holds = s.holds ∧
    (s.setRf o hi lo v).latches = s.latches ∧ (s.setRf o hi lo v).stats = s.stats ∧ (s.setRf o hi lo v).evt = s.evt ∧
    (s.setRf o hi lo v).hatches = s.hatches ∧ (s.setRf o hi lo v).hatchSince = s.hatchSince ∧ (s.setRf o hi lo v).epoch = s.epoch ∧
    (s.setRf o hi lo v).ports = s.ports ∧ (s.setRf o hi lo v).slices = s.slices ∧ (s.setRf o hi lo v).dirs = s.dirs ∧
    (s.setRf o hi lo v).stations = s.stations ∧ (s.setRf o hi lo v).frames = s.frames ∧ (s.setRf o hi lo v).depot = s.depot ∧
    (s.setRf o hi lo v).time = s.time ∧ (s.setRf o hi lo v).snapReq = s.snapReq ∧ (s.setRf o hi lo v).life = s.life ∧
    (s.setRf o hi lo v).cellar = s.cellar ∧ (s.setRf o hi lo v).help = s.help ∧ (s.setRf o hi lo v).otp = s.otp ∧
    (s.setRf o hi lo v).flash = s.flash ∧ (s.setRf o hi lo v).keySlots = s.keySlots ∧ (s.setRf o hi lo v).sb = s.sb ∧
    (s.setRf o hi lo v).engines = s.engines ∧ (s.setRf o hi lo v).shared = s.shared ∧ (s.setRf o hi lo v).clks = s.clks ∧
    (s.setRf o hi lo v).mbxQ = s.mbxQ ∧ (s.setRf o hi lo v).mbxFw = s.mbxFw ∧ (s.setRf o hi lo v).mbxRung = s.mbxRung ∧
    (s.setRf o hi lo v).mbxStored = s.mbxStored ∧ (s.setRf o hi lo v).keys = s.keys ∧ (s.setRf o hi lo v).dram = s.dram ∧
    (s.setRf o hi lo v).wshop = s.wshop ∧ (s.setRf o hi lo v).ledg = s.ledg ∧ (s.setRf o hi lo v).cour = s.cour ∧
    (∀ p1, (s.setRf o hi lo v).port p1 = s.port p1) ∧ (∀ i1, (s.setRf o hi lo v).slice i1 = s.slice i1) ∧
    (∀ i1, (s.setRf o hi lo v).station i1 = s.station i1) ∧ (∀ c1, (s.setRf o hi lo v).frame c1 = s.frame c1) ∧
    (∀ h1, (s.setRf o hi lo v).hatch h1 = s.hatch h1) ∧ (∀ e1, (s.setRf o hi lo v).eng e1 = s.eng e1) ∧
    (∀ m1, (s.setRf o hi lo v).thr m1 = s.thr m1) ∧ (∀ i1, (s.setRf o hi lo v).shm i1 = s.shm i1) ∧ (∀ k1, (s.setRf o hi lo v).key k1 = s.key k1) ∧
    (∀ h1, (s.setRf o hi lo v).helper h1 = s.helper h1) ∧ (∀ k1, (s.setRf o hi lo v).link k1 = s.link k1) ∧
    (∀ g1, (s.setRf o hi lo v).group g1 = s.group g1) ∧ (∀ g1, (s.setRf o hi lo v).graph g1 = s.graph g1) ∧
    (∀ m1 o1, (s.setRf o hi lo v).held m1 o1 = s.held m1 o1) ∧ (s.setRf o hi lo v).freeValue = s.freeValue := by
  and_intros <;> intros <;> rfl

/-- What setPort leaves as it was. -/
@[simp] theorem State.setPort_other (s : State) (p : Nat) (v : PortSt) :
    (s.setPort p v).pending = s.pending ∧ (s.setPort p v).up = s.up ∧ (s.setPort p v).now = s.now ∧ (s.setPort p v).draws = s.draws ∧
    (s.setPort p v).regs = s.regs ∧ (s.setPort p v).resp = s.resp ∧ (s.setPort p v).respEp = s.respEp ∧ (s.setPort p v).holds = s.holds ∧
    (s.setPort p v).latches = s.latches ∧ (s.setPort p v).stats = s.stats ∧ (s.setPort p v).evt = s.evt ∧ (s.setPort p v).hatches = s.hatches ∧
    (s.setPort p v).hatchSince = s.hatchSince ∧ (s.setPort p v).epoch = s.epoch ∧ (s.setPort p v).slices = s.slices ∧ (s.setPort p v).dirs = s.dirs ∧
    (s.setPort p v).stations = s.stations ∧ (s.setPort p v).frames = s.frames ∧ (s.setPort p v).depot = s.depot ∧ (s.setPort p v).time = s.time ∧
    (s.setPort p v).snapReq = s.snapReq ∧ (s.setPort p v).life = s.life ∧ (s.setPort p v).cellar = s.cellar ∧ (s.setPort p v).help = s.help ∧
    (s.setPort p v).otp = s.otp ∧ (s.setPort p v).flash = s.flash ∧ (s.setPort p v).keySlots = s.keySlots ∧ (s.setPort p v).sb = s.sb ∧
    (s.setPort p v).engines = s.engines ∧ (s.setPort p v).shared = s.shared ∧ (s.setPort p v).clks = s.clks ∧ (s.setPort p v).mbxQ = s.mbxQ ∧
    (s.setPort p v).mbxFw = s.mbxFw ∧ (s.setPort p v).mbxRung = s.mbxRung ∧ (s.setPort p v).mbxStored = s.mbxStored ∧ (s.setPort p v).keys = s.keys ∧
    (s.setPort p v).dram = s.dram ∧ (s.setPort p v).wshop = s.wshop ∧ (s.setPort p v).ledg = s.ledg ∧ (s.setPort p v).cour = s.cour ∧
    (∀ o1, (s.setPort p v).reg o1 = s.reg o1) ∧ (∀ o1 hi1 lo1, (s.setPort p v).rf o1 hi1 lo1 = s.rf o1 hi1 lo1) ∧
    (∀ o1 i1, (s.setPort p v).rb o1 i1 = s.rb o1 i1) ∧ (s.setPort p v).mode = s.mode ∧ (∀ i1, (s.setPort p v).slice i1 = s.slice i1) ∧
    (∀ i1, (s.setPort p v).station i1 = s.station i1) ∧ (∀ c1, (s.setPort p v).frame c1 = s.frame c1) ∧
    (∀ h1, (s.setPort p v).hatch h1 = s.hatch h1) ∧ (∀ e1, (s.setPort p v).eng e1 = s.eng e1) ∧ (∀ m1, (s.setPort p v).thr m1 = s.thr m1) ∧
    (∀ i1, (s.setPort p v).shm i1 = s.shm i1) ∧ (∀ k1, (s.setPort p v).key k1 = s.key k1) ∧ (∀ h1, (s.setPort p v).helper h1 = s.helper h1) ∧
    (∀ k1, (s.setPort p v).link k1 = s.link k1) ∧ (∀ g1, (s.setPort p v).group g1 = s.group g1) ∧ (∀ g1, (s.setPort p v).graph g1 = s.graph g1) ∧
    (∀ m1 o1, (s.setPort p v).held m1 o1 = s.held m1 o1) ∧ (s.setPort p v).freeValue = s.freeValue := by
  and_intros <;> intros <;> rfl

/-- What setSlice leaves as it was. -/
@[simp] theorem State.setSlice_other (s : State) (i : Nat) (v : SliceSt) :
    (s.setSlice i v).pending = s.pending ∧ (s.setSlice i v).up = s.up ∧ (s.setSlice i v).now = s.now ∧ (s.setSlice i v).draws = s.draws ∧
    (s.setSlice i v).regs = s.regs ∧ (s.setSlice i v).resp = s.resp ∧ (s.setSlice i v).respEp = s.respEp ∧ (s.setSlice i v).holds = s.holds ∧
    (s.setSlice i v).latches = s.latches ∧ (s.setSlice i v).stats = s.stats ∧ (s.setSlice i v).evt = s.evt ∧ (s.setSlice i v).hatches = s.hatches ∧
    (s.setSlice i v).hatchSince = s.hatchSince ∧ (s.setSlice i v).epoch = s.epoch ∧ (s.setSlice i v).ports = s.ports ∧
    (s.setSlice i v).dirs = s.dirs ∧ (s.setSlice i v).stations = s.stations ∧ (s.setSlice i v).frames = s.frames ∧ (s.setSlice i v).depot = s.depot ∧
    (s.setSlice i v).time = s.time ∧ (s.setSlice i v).snapReq = s.snapReq ∧ (s.setSlice i v).life = s.life ∧ (s.setSlice i v).cellar = s.cellar ∧
    (s.setSlice i v).help = s.help ∧ (s.setSlice i v).otp = s.otp ∧ (s.setSlice i v).flash = s.flash ∧ (s.setSlice i v).keySlots = s.keySlots ∧
    (s.setSlice i v).sb = s.sb ∧ (s.setSlice i v).engines = s.engines ∧ (s.setSlice i v).shared = s.shared ∧ (s.setSlice i v).clks = s.clks ∧
    (s.setSlice i v).mbxQ = s.mbxQ ∧ (s.setSlice i v).mbxFw = s.mbxFw ∧ (s.setSlice i v).mbxRung = s.mbxRung ∧
    (s.setSlice i v).mbxStored = s.mbxStored ∧ (s.setSlice i v).keys = s.keys ∧ (s.setSlice i v).dram = s.dram ∧ (s.setSlice i v).wshop = s.wshop ∧
    (s.setSlice i v).ledg = s.ledg ∧ (s.setSlice i v).cour = s.cour ∧ (∀ o1, (s.setSlice i v).reg o1 = s.reg o1) ∧
    (∀ o1 hi1 lo1, (s.setSlice i v).rf o1 hi1 lo1 = s.rf o1 hi1 lo1) ∧ (∀ o1 i1, (s.setSlice i v).rb o1 i1 = s.rb o1 i1) ∧
    (s.setSlice i v).mode = s.mode ∧ (∀ p1, (s.setSlice i v).port p1 = s.port p1) ∧ (∀ i1, (s.setSlice i v).station i1 = s.station i1) ∧
    (∀ c1, (s.setSlice i v).frame c1 = s.frame c1) ∧ (∀ h1, (s.setSlice i v).hatch h1 = s.hatch h1) ∧ (∀ e1, (s.setSlice i v).eng e1 = s.eng e1) ∧
    (∀ m1, (s.setSlice i v).thr m1 = s.thr m1) ∧ (∀ i1, (s.setSlice i v).shm i1 = s.shm i1) ∧ (∀ k1, (s.setSlice i v).key k1 = s.key k1) ∧
    (∀ h1, (s.setSlice i v).helper h1 = s.helper h1) ∧ (∀ k1, (s.setSlice i v).link k1 = s.link k1) ∧
    (∀ g1, (s.setSlice i v).group g1 = s.group g1) ∧ (∀ g1, (s.setSlice i v).graph g1 = s.graph g1) ∧
    (∀ m1 o1, (s.setSlice i v).held m1 o1 = s.held m1 o1) ∧ (s.setSlice i v).freeValue = s.freeValue := by
  and_intros <;> intros <;> rfl

/-- What setStation leaves as it was. -/
@[simp] theorem State.setStation_other (s : State) (i : Nat) (v : StationSt) :
    (s.setStation i v).pending = s.pending ∧ (s.setStation i v).up = s.up ∧ (s.setStation i v).now = s.now ∧ (s.setStation i v).draws = s.draws ∧
    (s.setStation i v).regs = s.regs ∧ (s.setStation i v).resp = s.resp ∧ (s.setStation i v).respEp = s.respEp ∧ (s.setStation i v).holds = s.holds ∧
    (s.setStation i v).latches = s.latches ∧ (s.setStation i v).stats = s.stats ∧ (s.setStation i v).evt = s.evt ∧
    (s.setStation i v).hatches = s.hatches ∧ (s.setStation i v).hatchSince = s.hatchSince ∧ (s.setStation i v).epoch = s.epoch ∧
    (s.setStation i v).ports = s.ports ∧ (s.setStation i v).slices = s.slices ∧ (s.setStation i v).dirs = s.dirs ∧
    (s.setStation i v).frames = s.frames ∧ (s.setStation i v).depot = s.depot ∧ (s.setStation i v).time = s.time ∧
    (s.setStation i v).snapReq = s.snapReq ∧ (s.setStation i v).life = s.life ∧ (s.setStation i v).cellar = s.cellar ∧
    (s.setStation i v).help = s.help ∧ (s.setStation i v).otp = s.otp ∧ (s.setStation i v).flash = s.flash ∧
    (s.setStation i v).keySlots = s.keySlots ∧ (s.setStation i v).sb = s.sb ∧ (s.setStation i v).engines = s.engines ∧
    (s.setStation i v).shared = s.shared ∧ (s.setStation i v).clks = s.clks ∧ (s.setStation i v).mbxQ = s.mbxQ ∧ (s.setStation i v).mbxFw = s.mbxFw ∧
    (s.setStation i v).mbxRung = s.mbxRung ∧ (s.setStation i v).mbxStored = s.mbxStored ∧ (s.setStation i v).keys = s.keys ∧
    (s.setStation i v).dram = s.dram ∧ (s.setStation i v).wshop = s.wshop ∧ (s.setStation i v).ledg = s.ledg ∧ (s.setStation i v).cour = s.cour ∧
    (∀ o1, (s.setStation i v).reg o1 = s.reg o1) ∧ (∀ o1 hi1 lo1, (s.setStation i v).rf o1 hi1 lo1 = s.rf o1 hi1 lo1) ∧
    (∀ o1 i1, (s.setStation i v).rb o1 i1 = s.rb o1 i1) ∧ (s.setStation i v).mode = s.mode ∧ (∀ p1, (s.setStation i v).port p1 = s.port p1) ∧
    (∀ i1, (s.setStation i v).slice i1 = s.slice i1) ∧ (∀ c1, (s.setStation i v).frame c1 = s.frame c1) ∧
    (∀ h1, (s.setStation i v).hatch h1 = s.hatch h1) ∧ (∀ e1, (s.setStation i v).eng e1 = s.eng e1) ∧ (∀ m1, (s.setStation i v).thr m1 = s.thr m1) ∧
    (∀ i1, (s.setStation i v).shm i1 = s.shm i1) ∧ (∀ k1, (s.setStation i v).key k1 = s.key k1) ∧
    (∀ h1, (s.setStation i v).helper h1 = s.helper h1) ∧ (∀ k1, (s.setStation i v).link k1 = s.link k1) ∧
    (∀ g1, (s.setStation i v).group g1 = s.group g1) ∧ (∀ g1, (s.setStation i v).graph g1 = s.graph g1) ∧
    (∀ m1 o1, (s.setStation i v).held m1 o1 = s.held m1 o1) ∧ (s.setStation i v).freeValue = s.freeValue := by
  and_intros <;> intros <;> rfl

/-- What setFrame leaves as it was. -/
@[simp] theorem State.setFrame_other (s : State) (c : Nat) (v : Frame) :
    (s.setFrame c v).pending = s.pending ∧ (s.setFrame c v).up = s.up ∧ (s.setFrame c v).now = s.now ∧ (s.setFrame c v).draws = s.draws ∧
    (s.setFrame c v).regs = s.regs ∧ (s.setFrame c v).resp = s.resp ∧ (s.setFrame c v).respEp = s.respEp ∧ (s.setFrame c v).holds = s.holds ∧
    (s.setFrame c v).latches = s.latches ∧ (s.setFrame c v).stats = s.stats ∧ (s.setFrame c v).evt = s.evt ∧ (s.setFrame c v).hatches = s.hatches ∧
    (s.setFrame c v).hatchSince = s.hatchSince ∧ (s.setFrame c v).epoch = s.epoch ∧ (s.setFrame c v).ports = s.ports ∧
    (s.setFrame c v).slices = s.slices ∧ (s.setFrame c v).dirs = s.dirs ∧ (s.setFrame c v).stations = s.stations ∧ (s.setFrame c v).depot = s.depot ∧
    (s.setFrame c v).time = s.time ∧ (s.setFrame c v).snapReq = s.snapReq ∧ (s.setFrame c v).life = s.life ∧ (s.setFrame c v).cellar = s.cellar ∧
    (s.setFrame c v).help = s.help ∧ (s.setFrame c v).otp = s.otp ∧ (s.setFrame c v).flash = s.flash ∧ (s.setFrame c v).keySlots = s.keySlots ∧
    (s.setFrame c v).sb = s.sb ∧ (s.setFrame c v).engines = s.engines ∧ (s.setFrame c v).shared = s.shared ∧ (s.setFrame c v).clks = s.clks ∧
    (s.setFrame c v).mbxQ = s.mbxQ ∧ (s.setFrame c v).mbxFw = s.mbxFw ∧ (s.setFrame c v).mbxRung = s.mbxRung ∧
    (s.setFrame c v).mbxStored = s.mbxStored ∧ (s.setFrame c v).keys = s.keys ∧ (s.setFrame c v).dram = s.dram ∧ (s.setFrame c v).wshop = s.wshop ∧
    (s.setFrame c v).ledg = s.ledg ∧ (s.setFrame c v).cour = s.cour ∧ (∀ o1, (s.setFrame c v).reg o1 = s.reg o1) ∧
    (∀ o1 hi1 lo1, (s.setFrame c v).rf o1 hi1 lo1 = s.rf o1 hi1 lo1) ∧ (∀ o1 i1, (s.setFrame c v).rb o1 i1 = s.rb o1 i1) ∧
    (s.setFrame c v).mode = s.mode ∧ (∀ p1, (s.setFrame c v).port p1 = s.port p1) ∧ (∀ i1, (s.setFrame c v).slice i1 = s.slice i1) ∧
    (∀ i1, (s.setFrame c v).station i1 = s.station i1) ∧ (∀ h1, (s.setFrame c v).hatch h1 = s.hatch h1) ∧
    (∀ e1, (s.setFrame c v).eng e1 = s.eng e1) ∧ (∀ m1, (s.setFrame c v).thr m1 = s.thr m1) ∧ (∀ i1, (s.setFrame c v).shm i1 = s.shm i1) ∧
    (∀ k1, (s.setFrame c v).key k1 = s.key k1) ∧ (∀ h1, (s.setFrame c v).helper h1 = s.helper h1) ∧ (∀ k1, (s.setFrame c v).link k1 = s.link k1) ∧
    (∀ g1, (s.setFrame c v).group g1 = s.group g1) ∧ (∀ g1, (s.setFrame c v).graph g1 = s.graph g1) ∧
    (∀ m1 o1, (s.setFrame c v).held m1 o1 = s.held m1 o1) ∧ (s.setFrame c v).freeValue = s.freeValue := by
  and_intros <;> intros <;> rfl

/-- What setHatch leaves as it was. -/
@[simp] theorem State.setHatch_other (s : State) (h : Nat) (v : Hatch) :
    (s.setHatch h v).pending = s.pending ∧ (s.setHatch h v).up = s.up ∧ (s.setHatch h v).now = s.now ∧ (s.setHatch h v).draws = s.draws ∧
    (s.setHatch h v).regs = s.regs ∧ (s.setHatch h v).resp = s.resp ∧ (s.setHatch h v).respEp = s.respEp ∧ (s.setHatch h v).holds = s.holds ∧
    (s.setHatch h v).latches = s.latches ∧ (s.setHatch h v).stats = s.stats ∧ (s.setHatch h v).evt = s.evt ∧
    (s.setHatch h v).hatchSince = s.hatchSince ∧ (s.setHatch h v).epoch = s.epoch ∧ (s.setHatch h v).ports = s.ports ∧
    (s.setHatch h v).slices = s.slices ∧ (s.setHatch h v).dirs = s.dirs ∧ (s.setHatch h v).stations = s.stations ∧
    (s.setHatch h v).frames = s.frames ∧ (s.setHatch h v).depot = s.depot ∧ (s.setHatch h v).time = s.time ∧ (s.setHatch h v).snapReq = s.snapReq ∧
    (s.setHatch h v).life = s.life ∧ (s.setHatch h v).cellar = s.cellar ∧ (s.setHatch h v).help = s.help ∧ (s.setHatch h v).otp = s.otp ∧
    (s.setHatch h v).flash = s.flash ∧ (s.setHatch h v).keySlots = s.keySlots ∧ (s.setHatch h v).sb = s.sb ∧ (s.setHatch h v).engines = s.engines ∧
    (s.setHatch h v).shared = s.shared ∧ (s.setHatch h v).clks = s.clks ∧ (s.setHatch h v).mbxQ = s.mbxQ ∧ (s.setHatch h v).mbxFw = s.mbxFw ∧
    (s.setHatch h v).mbxRung = s.mbxRung ∧ (s.setHatch h v).mbxStored = s.mbxStored ∧ (s.setHatch h v).keys = s.keys ∧
    (s.setHatch h v).dram = s.dram ∧ (s.setHatch h v).wshop = s.wshop ∧ (s.setHatch h v).ledg = s.ledg ∧ (s.setHatch h v).cour = s.cour ∧
    (∀ o1, (s.setHatch h v).reg o1 = s.reg o1) ∧ (∀ o1 hi1 lo1, (s.setHatch h v).rf o1 hi1 lo1 = s.rf o1 hi1 lo1) ∧
    (∀ o1 i1, (s.setHatch h v).rb o1 i1 = s.rb o1 i1) ∧ (s.setHatch h v).mode = s.mode ∧ (∀ p1, (s.setHatch h v).port p1 = s.port p1) ∧
    (∀ i1, (s.setHatch h v).slice i1 = s.slice i1) ∧ (∀ i1, (s.setHatch h v).station i1 = s.station i1) ∧
    (∀ c1, (s.setHatch h v).frame c1 = s.frame c1) ∧ (∀ e1, (s.setHatch h v).eng e1 = s.eng e1) ∧ (∀ m1, (s.setHatch h v).thr m1 = s.thr m1) ∧
    (∀ i1, (s.setHatch h v).shm i1 = s.shm i1) ∧ (∀ k1, (s.setHatch h v).key k1 = s.key k1) ∧ (∀ h1, (s.setHatch h v).helper h1 = s.helper h1) ∧
    (∀ k1, (s.setHatch h v).link k1 = s.link k1) ∧ (∀ g1, (s.setHatch h v).group g1 = s.group g1) ∧ (∀ g1, (s.setHatch h v).graph g1 = s.graph g1) ∧
    (∀ m1 o1, (s.setHatch h v).held m1 o1 = s.held m1 o1) ∧ (s.setHatch h v).freeValue = s.freeValue := by
  and_intros <;> intros <;> rfl

/-- What setEng leaves as it was. -/
@[simp] theorem State.setEng_other (s : State) (e : Nat) (v : Engine) :
    (s.setEng e v).pending = s.pending ∧ (s.setEng e v).up = s.up ∧ (s.setEng e v).now = s.now ∧ (s.setEng e v).draws = s.draws ∧
    (s.setEng e v).regs = s.regs ∧ (s.setEng e v).resp = s.resp ∧ (s.setEng e v).respEp = s.respEp ∧ (s.setEng e v).holds = s.holds ∧
    (s.setEng e v).latches = s.latches ∧ (s.setEng e v).stats = s.stats ∧ (s.setEng e v).evt = s.evt ∧ (s.setEng e v).hatches = s.hatches ∧
    (s.setEng e v).hatchSince = s.hatchSince ∧ (s.setEng e v).epoch = s.epoch ∧ (s.setEng e v).ports = s.ports ∧ (s.setEng e v).slices = s.slices ∧
    (s.setEng e v).dirs = s.dirs ∧ (s.setEng e v).stations = s.stations ∧ (s.setEng e v).frames = s.frames ∧ (s.setEng e v).depot = s.depot ∧
    (s.setEng e v).time = s.time ∧ (s.setEng e v).snapReq = s.snapReq ∧ (s.setEng e v).life = s.life ∧ (s.setEng e v).cellar = s.cellar ∧
    (s.setEng e v).help = s.help ∧ (s.setEng e v).otp = s.otp ∧ (s.setEng e v).flash = s.flash ∧ (s.setEng e v).keySlots = s.keySlots ∧
    (s.setEng e v).sb = s.sb ∧ (s.setEng e v).shared = s.shared ∧ (s.setEng e v).clks = s.clks ∧ (s.setEng e v).mbxQ = s.mbxQ ∧
    (s.setEng e v).mbxFw = s.mbxFw ∧ (s.setEng e v).mbxRung = s.mbxRung ∧ (s.setEng e v).mbxStored = s.mbxStored ∧ (s.setEng e v).keys = s.keys ∧
    (s.setEng e v).dram = s.dram ∧ (s.setEng e v).wshop = s.wshop ∧ (s.setEng e v).ledg = s.ledg ∧ (s.setEng e v).cour = s.cour ∧
    (∀ o1, (s.setEng e v).reg o1 = s.reg o1) ∧ (∀ o1 hi1 lo1, (s.setEng e v).rf o1 hi1 lo1 = s.rf o1 hi1 lo1) ∧
    (∀ o1 i1, (s.setEng e v).rb o1 i1 = s.rb o1 i1) ∧ (s.setEng e v).mode = s.mode ∧ (∀ p1, (s.setEng e v).port p1 = s.port p1) ∧
    (∀ i1, (s.setEng e v).slice i1 = s.slice i1) ∧ (∀ i1, (s.setEng e v).station i1 = s.station i1) ∧ (∀ c1, (s.setEng e v).frame c1 = s.frame c1) ∧
    (∀ h1, (s.setEng e v).hatch h1 = s.hatch h1) ∧ (∀ i1, (s.setEng e v).shm i1 = s.shm i1) ∧ (∀ k1, (s.setEng e v).key k1 = s.key k1) ∧
    (∀ h1, (s.setEng e v).helper h1 = s.helper h1) ∧ (∀ k1, (s.setEng e v).link k1 = s.link k1) ∧ (∀ g1, (s.setEng e v).group g1 = s.group g1) ∧
    (∀ g1, (s.setEng e v).graph g1 = s.graph g1) ∧ (∀ m1 o1, (s.setEng e v).held m1 o1 = s.held m1 o1) ∧ (s.setEng e v).freeValue = s.freeValue := by
  and_intros <;> intros <;> rfl

/-- What withEng leaves as it was. -/
@[simp] theorem State.withEng_other (s : State) (e : Nat) (f : Engine → Engine) :
    (s.withEng e f).pending = s.pending ∧ (s.withEng e f).up = s.up ∧ (s.withEng e f).now = s.now ∧ (s.withEng e f).draws = s.draws ∧
    (s.withEng e f).regs = s.regs ∧ (s.withEng e f).resp = s.resp ∧ (s.withEng e f).respEp = s.respEp ∧ (s.withEng e f).holds = s.holds ∧
    (s.withEng e f).latches = s.latches ∧ (s.withEng e f).stats = s.stats ∧ (s.withEng e f).evt = s.evt ∧ (s.withEng e f).hatches = s.hatches ∧
    (s.withEng e f).hatchSince = s.hatchSince ∧ (s.withEng e f).epoch = s.epoch ∧ (s.withEng e f).ports = s.ports ∧
    (s.withEng e f).slices = s.slices ∧ (s.withEng e f).dirs = s.dirs ∧ (s.withEng e f).stations = s.stations ∧ (s.withEng e f).frames = s.frames ∧
    (s.withEng e f).depot = s.depot ∧ (s.withEng e f).time = s.time ∧ (s.withEng e f).snapReq = s.snapReq ∧ (s.withEng e f).life = s.life ∧
    (s.withEng e f).cellar = s.cellar ∧ (s.withEng e f).help = s.help ∧ (s.withEng e f).otp = s.otp ∧ (s.withEng e f).flash = s.flash ∧
    (s.withEng e f).keySlots = s.keySlots ∧ (s.withEng e f).sb = s.sb ∧ (s.withEng e f).shared = s.shared ∧ (s.withEng e f).clks = s.clks ∧
    (s.withEng e f).mbxQ = s.mbxQ ∧ (s.withEng e f).mbxFw = s.mbxFw ∧ (s.withEng e f).mbxRung = s.mbxRung ∧ (s.withEng e f).mbxStored = s.mbxStored ∧
    (s.withEng e f).keys = s.keys ∧ (s.withEng e f).dram = s.dram ∧ (s.withEng e f).wshop = s.wshop ∧ (s.withEng e f).ledg = s.ledg ∧
    (s.withEng e f).cour = s.cour ∧ (∀ o1, (s.withEng e f).reg o1 = s.reg o1) ∧ (∀ o1 hi1 lo1, (s.withEng e f).rf o1 hi1 lo1 = s.rf o1 hi1 lo1) ∧
    (∀ o1 i1, (s.withEng e f).rb o1 i1 = s.rb o1 i1) ∧ (s.withEng e f).mode = s.mode ∧ (∀ p1, (s.withEng e f).port p1 = s.port p1) ∧
    (∀ i1, (s.withEng e f).slice i1 = s.slice i1) ∧ (∀ i1, (s.withEng e f).station i1 = s.station i1) ∧
    (∀ c1, (s.withEng e f).frame c1 = s.frame c1) ∧ (∀ h1, (s.withEng e f).hatch h1 = s.hatch h1) ∧ (∀ i1, (s.withEng e f).shm i1 = s.shm i1) ∧
    (∀ k1, (s.withEng e f).key k1 = s.key k1) ∧ (∀ h1, (s.withEng e f).helper h1 = s.helper h1) ∧ (∀ k1, (s.withEng e f).link k1 = s.link k1) ∧
    (∀ g1, (s.withEng e f).group g1 = s.group g1) ∧ (∀ g1, (s.withEng e f).graph g1 = s.graph g1) ∧
    (∀ m1 o1, (s.withEng e f).held m1 o1 = s.held m1 o1) ∧ (s.withEng e f).freeValue = s.freeValue := by
  and_intros <;> intros <;> rfl

/-- What setThr leaves as it was. -/
@[simp] theorem State.setThr_other (s : State) (m : Nat) (v : Thread) :
    (s.setThr m v).pending = s.pending ∧ (s.setThr m v).up = s.up ∧ (s.setThr m v).now = s.now ∧ (s.setThr m v).draws = s.draws ∧
    (s.setThr m v).regs = s.regs ∧ (s.setThr m v).resp = s.resp ∧ (s.setThr m v).respEp = s.respEp ∧ (s.setThr m v).holds = s.holds ∧
    (s.setThr m v).latches = s.latches ∧ (s.setThr m v).stats = s.stats ∧ (s.setThr m v).evt = s.evt ∧ (s.setThr m v).hatches = s.hatches ∧
    (s.setThr m v).hatchSince = s.hatchSince ∧ (s.setThr m v).epoch = s.epoch ∧ (s.setThr m v).ports = s.ports ∧ (s.setThr m v).slices = s.slices ∧
    (s.setThr m v).dirs = s.dirs ∧ (s.setThr m v).stations = s.stations ∧ (s.setThr m v).frames = s.frames ∧ (s.setThr m v).depot = s.depot ∧
    (s.setThr m v).time = s.time ∧ (s.setThr m v).snapReq = s.snapReq ∧ (s.setThr m v).life = s.life ∧ (s.setThr m v).cellar = s.cellar ∧
    (s.setThr m v).help = s.help ∧ (s.setThr m v).otp = s.otp ∧ (s.setThr m v).flash = s.flash ∧ (s.setThr m v).keySlots = s.keySlots ∧
    (s.setThr m v).sb = s.sb ∧ (s.setThr m v).shared = s.shared ∧ (s.setThr m v).clks = s.clks ∧ (s.setThr m v).mbxQ = s.mbxQ ∧
    (s.setThr m v).mbxFw = s.mbxFw ∧ (s.setThr m v).mbxRung = s.mbxRung ∧ (s.setThr m v).mbxStored = s.mbxStored ∧ (s.setThr m v).keys = s.keys ∧
    (s.setThr m v).dram = s.dram ∧ (s.setThr m v).wshop = s.wshop ∧ (s.setThr m v).ledg = s.ledg ∧ (s.setThr m v).cour = s.cour ∧
    (∀ o1, (s.setThr m v).reg o1 = s.reg o1) ∧ (∀ o1 hi1 lo1, (s.setThr m v).rf o1 hi1 lo1 = s.rf o1 hi1 lo1) ∧
    (∀ o1 i1, (s.setThr m v).rb o1 i1 = s.rb o1 i1) ∧ (s.setThr m v).mode = s.mode ∧ (∀ p1, (s.setThr m v).port p1 = s.port p1) ∧
    (∀ i1, (s.setThr m v).slice i1 = s.slice i1) ∧ (∀ i1, (s.setThr m v).station i1 = s.station i1) ∧ (∀ c1, (s.setThr m v).frame c1 = s.frame c1) ∧
    (∀ h1, (s.setThr m v).hatch h1 = s.hatch h1) ∧ (∀ i1, (s.setThr m v).shm i1 = s.shm i1) ∧ (∀ k1, (s.setThr m v).key k1 = s.key k1) ∧
    (∀ h1, (s.setThr m v).helper h1 = s.helper h1) ∧ (∀ k1, (s.setThr m v).link k1 = s.link k1) ∧ (∀ g1, (s.setThr m v).group g1 = s.group g1) ∧
    (∀ g1, (s.setThr m v).graph g1 = s.graph g1) ∧ (∀ m1 o1, (s.setThr m v).held m1 o1 = s.held m1 o1) ∧ (s.setThr m v).freeValue = s.freeValue := by
  and_intros <;> intros <;> rfl

/-- What withThr leaves as it was. -/
@[simp] theorem State.withThr_other (s : State) (m : Nat) (f : Thread → Thread) :
    (s.withThr m f).pending = s.pending ∧ (s.withThr m f).up = s.up ∧ (s.withThr m f).now = s.now ∧ (s.withThr m f).draws = s.draws ∧
    (s.withThr m f).regs = s.regs ∧ (s.withThr m f).resp = s.resp ∧ (s.withThr m f).respEp = s.respEp ∧ (s.withThr m f).holds = s.holds ∧
    (s.withThr m f).latches = s.latches ∧ (s.withThr m f).stats = s.stats ∧ (s.withThr m f).evt = s.evt ∧ (s.withThr m f).hatches = s.hatches ∧
    (s.withThr m f).hatchSince = s.hatchSince ∧ (s.withThr m f).epoch = s.epoch ∧ (s.withThr m f).ports = s.ports ∧
    (s.withThr m f).slices = s.slices ∧ (s.withThr m f).dirs = s.dirs ∧ (s.withThr m f).stations = s.stations ∧ (s.withThr m f).frames = s.frames ∧
    (s.withThr m f).depot = s.depot ∧ (s.withThr m f).time = s.time ∧ (s.withThr m f).snapReq = s.snapReq ∧ (s.withThr m f).life = s.life ∧
    (s.withThr m f).cellar = s.cellar ∧ (s.withThr m f).help = s.help ∧ (s.withThr m f).otp = s.otp ∧ (s.withThr m f).flash = s.flash ∧
    (s.withThr m f).keySlots = s.keySlots ∧ (s.withThr m f).sb = s.sb ∧ (s.withThr m f).shared = s.shared ∧ (s.withThr m f).clks = s.clks ∧
    (s.withThr m f).mbxQ = s.mbxQ ∧ (s.withThr m f).mbxFw = s.mbxFw ∧ (s.withThr m f).mbxRung = s.mbxRung ∧ (s.withThr m f).mbxStored = s.mbxStored ∧
    (s.withThr m f).keys = s.keys ∧ (s.withThr m f).dram = s.dram ∧ (s.withThr m f).wshop = s.wshop ∧ (s.withThr m f).ledg = s.ledg ∧
    (s.withThr m f).cour = s.cour ∧ (∀ o1, (s.withThr m f).reg o1 = s.reg o1) ∧ (∀ o1 hi1 lo1, (s.withThr m f).rf o1 hi1 lo1 = s.rf o1 hi1 lo1) ∧
    (∀ o1 i1, (s.withThr m f).rb o1 i1 = s.rb o1 i1) ∧ (s.withThr m f).mode = s.mode ∧ (∀ p1, (s.withThr m f).port p1 = s.port p1) ∧
    (∀ i1, (s.withThr m f).slice i1 = s.slice i1) ∧ (∀ i1, (s.withThr m f).station i1 = s.station i1) ∧
    (∀ c1, (s.withThr m f).frame c1 = s.frame c1) ∧ (∀ h1, (s.withThr m f).hatch h1 = s.hatch h1) ∧ (∀ i1, (s.withThr m f).shm i1 = s.shm i1) ∧
    (∀ k1, (s.withThr m f).key k1 = s.key k1) ∧ (∀ h1, (s.withThr m f).helper h1 = s.helper h1) ∧ (∀ k1, (s.withThr m f).link k1 = s.link k1) ∧
    (∀ g1, (s.withThr m f).group g1 = s.group g1) ∧ (∀ g1, (s.withThr m f).graph g1 = s.graph g1) ∧
    (∀ m1 o1, (s.withThr m f).held m1 o1 = s.held m1 o1) ∧ (s.withThr m f).freeValue = s.freeValue := by
  and_intros <;> intros <;> rfl

/-- What setShm leaves as it was. -/
@[simp] theorem State.setShm_other (s : State) (i : Nat) (v : Shared) :
    (s.setShm i v).pending = s.pending ∧ (s.setShm i v).up = s.up ∧ (s.setShm i v).now = s.now ∧ (s.setShm i v).draws = s.draws ∧
    (s.setShm i v).regs = s.regs ∧ (s.setShm i v).resp = s.resp ∧ (s.setShm i v).respEp = s.respEp ∧ (s.setShm i v).holds = s.holds ∧
    (s.setShm i v).latches = s.latches ∧ (s.setShm i v).stats = s.stats ∧ (s.setShm i v).evt = s.evt ∧ (s.setShm i v).hatches = s.hatches ∧
    (s.setShm i v).hatchSince = s.hatchSince ∧ (s.setShm i v).epoch = s.epoch ∧ (s.setShm i v).ports = s.ports ∧ (s.setShm i v).slices = s.slices ∧
    (s.setShm i v).dirs = s.dirs ∧ (s.setShm i v).stations = s.stations ∧ (s.setShm i v).frames = s.frames ∧ (s.setShm i v).depot = s.depot ∧
    (s.setShm i v).time = s.time ∧ (s.setShm i v).snapReq = s.snapReq ∧ (s.setShm i v).life = s.life ∧ (s.setShm i v).cellar = s.cellar ∧
    (s.setShm i v).help = s.help ∧ (s.setShm i v).otp = s.otp ∧ (s.setShm i v).flash = s.flash ∧ (s.setShm i v).keySlots = s.keySlots ∧
    (s.setShm i v).sb = s.sb ∧ (s.setShm i v).engines = s.engines ∧ (s.setShm i v).clks = s.clks ∧ (s.setShm i v).mbxQ = s.mbxQ ∧
    (s.setShm i v).mbxFw = s.mbxFw ∧ (s.setShm i v).mbxRung = s.mbxRung ∧ (s.setShm i v).mbxStored = s.mbxStored ∧ (s.setShm i v).keys = s.keys ∧
    (s.setShm i v).dram = s.dram ∧ (s.setShm i v).wshop = s.wshop ∧ (s.setShm i v).ledg = s.ledg ∧ (s.setShm i v).cour = s.cour ∧
    (∀ o1, (s.setShm i v).reg o1 = s.reg o1) ∧ (∀ o1 hi1 lo1, (s.setShm i v).rf o1 hi1 lo1 = s.rf o1 hi1 lo1) ∧
    (∀ o1 i1, (s.setShm i v).rb o1 i1 = s.rb o1 i1) ∧ (s.setShm i v).mode = s.mode ∧ (∀ p1, (s.setShm i v).port p1 = s.port p1) ∧
    (∀ i1, (s.setShm i v).slice i1 = s.slice i1) ∧ (∀ i1, (s.setShm i v).station i1 = s.station i1) ∧ (∀ c1, (s.setShm i v).frame c1 = s.frame c1) ∧
    (∀ h1, (s.setShm i v).hatch h1 = s.hatch h1) ∧ (∀ e1, (s.setShm i v).eng e1 = s.eng e1) ∧ (∀ m1, (s.setShm i v).thr m1 = s.thr m1) ∧
    (∀ k1, (s.setShm i v).key k1 = s.key k1) ∧ (∀ h1, (s.setShm i v).helper h1 = s.helper h1) ∧ (∀ k1, (s.setShm i v).link k1 = s.link k1) ∧
    (∀ g1, (s.setShm i v).group g1 = s.group g1) ∧ (∀ g1, (s.setShm i v).graph g1 = s.graph g1) ∧
    (∀ m1 o1, (s.setShm i v).held m1 o1 = s.held m1 o1) ∧ (s.setShm i v).freeValue = s.freeValue := by
  and_intros <;> intros <;> rfl

/-- What setKey leaves as it was. -/
@[simp] theorem State.setKey_other (s : State) (k : Nat) (v : KeySt) :
    (s.setKey k v).pending = s.pending ∧ (s.setKey k v).up = s.up ∧ (s.setKey k v).now = s.now ∧ (s.setKey k v).draws = s.draws ∧
    (s.setKey k v).regs = s.regs ∧ (s.setKey k v).resp = s.resp ∧ (s.setKey k v).respEp = s.respEp ∧ (s.setKey k v).holds = s.holds ∧
    (s.setKey k v).latches = s.latches ∧ (s.setKey k v).stats = s.stats ∧ (s.setKey k v).evt = s.evt ∧ (s.setKey k v).hatches = s.hatches ∧
    (s.setKey k v).hatchSince = s.hatchSince ∧ (s.setKey k v).epoch = s.epoch ∧ (s.setKey k v).ports = s.ports ∧ (s.setKey k v).slices = s.slices ∧
    (s.setKey k v).dirs = s.dirs ∧ (s.setKey k v).stations = s.stations ∧ (s.setKey k v).frames = s.frames ∧ (s.setKey k v).depot = s.depot ∧
    (s.setKey k v).time = s.time ∧ (s.setKey k v).snapReq = s.snapReq ∧ (s.setKey k v).life = s.life ∧ (s.setKey k v).cellar = s.cellar ∧
    (s.setKey k v).help = s.help ∧ (s.setKey k v).otp = s.otp ∧ (s.setKey k v).flash = s.flash ∧ (s.setKey k v).keySlots = s.keySlots ∧
    (s.setKey k v).sb = s.sb ∧ (s.setKey k v).engines = s.engines ∧ (s.setKey k v).shared = s.shared ∧ (s.setKey k v).clks = s.clks ∧
    (s.setKey k v).mbxQ = s.mbxQ ∧ (s.setKey k v).mbxFw = s.mbxFw ∧ (s.setKey k v).mbxRung = s.mbxRung ∧ (s.setKey k v).mbxStored = s.mbxStored ∧
    (s.setKey k v).dram = s.dram ∧ (s.setKey k v).wshop = s.wshop ∧ (s.setKey k v).ledg = s.ledg ∧ (s.setKey k v).cour = s.cour ∧
    (∀ o1, (s.setKey k v).reg o1 = s.reg o1) ∧ (∀ o1 hi1 lo1, (s.setKey k v).rf o1 hi1 lo1 = s.rf o1 hi1 lo1) ∧
    (∀ o1 i1, (s.setKey k v).rb o1 i1 = s.rb o1 i1) ∧ (s.setKey k v).mode = s.mode ∧ (∀ p1, (s.setKey k v).port p1 = s.port p1) ∧
    (∀ i1, (s.setKey k v).slice i1 = s.slice i1) ∧ (∀ i1, (s.setKey k v).station i1 = s.station i1) ∧ (∀ c1, (s.setKey k v).frame c1 = s.frame c1) ∧
    (∀ h1, (s.setKey k v).hatch h1 = s.hatch h1) ∧ (∀ e1, (s.setKey k v).eng e1 = s.eng e1) ∧ (∀ m1, (s.setKey k v).thr m1 = s.thr m1) ∧
    (∀ i1, (s.setKey k v).shm i1 = s.shm i1) ∧ (∀ h1, (s.setKey k v).helper h1 = s.helper h1) ∧ (∀ k1, (s.setKey k v).link k1 = s.link k1) ∧
    (∀ g1, (s.setKey k v).group g1 = s.group g1) ∧ (∀ g1, (s.setKey k v).graph g1 = s.graph g1) ∧
    (∀ m1 o1, (s.setKey k v).held m1 o1 = s.held m1 o1) ∧ (s.setKey k v).freeValue = s.freeValue := by
  and_intros <;> intros <;> rfl

/-- What setHelper leaves as it was. -/
@[simp] theorem State.setHelper_other (s : State) (h : Nat) (v : Helper) :
    (s.setHelper h v).pending = s.pending ∧ (s.setHelper h v).up = s.up ∧ (s.setHelper h v).now = s.now ∧ (s.setHelper h v).draws = s.draws ∧
    (s.setHelper h v).regs = s.regs ∧ (s.setHelper h v).resp = s.resp ∧ (s.setHelper h v).respEp = s.respEp ∧ (s.setHelper h v).holds = s.holds ∧
    (s.setHelper h v).latches = s.latches ∧ (s.setHelper h v).stats = s.stats ∧ (s.setHelper h v).evt = s.evt ∧
    (s.setHelper h v).hatches = s.hatches ∧ (s.setHelper h v).hatchSince = s.hatchSince ∧ (s.setHelper h v).epoch = s.epoch ∧
    (s.setHelper h v).ports = s.ports ∧ (s.setHelper h v).slices = s.slices ∧ (s.setHelper h v).dirs = s.dirs ∧
    (s.setHelper h v).stations = s.stations ∧ (s.setHelper h v).frames = s.frames ∧ (s.setHelper h v).depot = s.depot ∧
    (s.setHelper h v).time = s.time ∧ (s.setHelper h v).snapReq = s.snapReq ∧ (s.setHelper h v).life = s.life ∧ (s.setHelper h v).cellar = s.cellar ∧
    (s.setHelper h v).otp = s.otp ∧ (s.setHelper h v).flash = s.flash ∧ (s.setHelper h v).keySlots = s.keySlots ∧ (s.setHelper h v).sb = s.sb ∧
    (s.setHelper h v).engines = s.engines ∧ (s.setHelper h v).shared = s.shared ∧ (s.setHelper h v).clks = s.clks ∧ (s.setHelper h v).mbxQ = s.mbxQ ∧
    (s.setHelper h v).mbxFw = s.mbxFw ∧ (s.setHelper h v).mbxRung = s.mbxRung ∧ (s.setHelper h v).mbxStored = s.mbxStored ∧
    (s.setHelper h v).keys = s.keys ∧ (s.setHelper h v).dram = s.dram ∧ (s.setHelper h v).wshop = s.wshop ∧ (s.setHelper h v).ledg = s.ledg ∧
    (s.setHelper h v).cour = s.cour ∧ (∀ o1, (s.setHelper h v).reg o1 = s.reg o1) ∧
    (∀ o1 hi1 lo1, (s.setHelper h v).rf o1 hi1 lo1 = s.rf o1 hi1 lo1) ∧ (∀ o1 i1, (s.setHelper h v).rb o1 i1 = s.rb o1 i1) ∧
    (s.setHelper h v).mode = s.mode ∧ (∀ p1, (s.setHelper h v).port p1 = s.port p1) ∧ (∀ i1, (s.setHelper h v).slice i1 = s.slice i1) ∧
    (∀ i1, (s.setHelper h v).station i1 = s.station i1) ∧ (∀ c1, (s.setHelper h v).frame c1 = s.frame c1) ∧
    (∀ h1, (s.setHelper h v).hatch h1 = s.hatch h1) ∧ (∀ e1, (s.setHelper h v).eng e1 = s.eng e1) ∧ (∀ m1, (s.setHelper h v).thr m1 = s.thr m1) ∧
    (∀ i1, (s.setHelper h v).shm i1 = s.shm i1) ∧ (∀ k1, (s.setHelper h v).key k1 = s.key k1) ∧ (∀ k1, (s.setHelper h v).link k1 = s.link k1) ∧
    (∀ g1, (s.setHelper h v).group g1 = s.group g1) ∧ (∀ g1, (s.setHelper h v).graph g1 = s.graph g1) ∧
    (∀ m1 o1, (s.setHelper h v).held m1 o1 = s.held m1 o1) ∧ (s.setHelper h v).freeValue = s.freeValue := by
  and_intros <;> intros <;> rfl

/-- What withLife leaves as it was. -/
@[simp] theorem State.withLife_other (s : State) (f : LifeSt → LifeSt) :
    (s.withLife f).pending = s.pending ∧ (s.withLife f).up = s.up ∧ (s.withLife f).now = s.now ∧ (s.withLife f).draws = s.draws ∧
    (s.withLife f).regs = s.regs ∧ (s.withLife f).resp = s.resp ∧ (s.withLife f).respEp = s.respEp ∧ (s.withLife f).holds = s.holds ∧
    (s.withLife f).latches = s.latches ∧ (s.withLife f).stats = s.stats ∧ (s.withLife f).evt = s.evt ∧ (s.withLife f).hatches = s.hatches ∧
    (s.withLife f).hatchSince = s.hatchSince ∧ (s.withLife f).epoch = s.epoch ∧ (s.withLife f).ports = s.ports ∧ (s.withLife f).slices = s.slices ∧
    (s.withLife f).dirs = s.dirs ∧ (s.withLife f).stations = s.stations ∧ (s.withLife f).frames = s.frames ∧ (s.withLife f).depot = s.depot ∧
    (s.withLife f).time = s.time ∧ (s.withLife f).snapReq = s.snapReq ∧ (s.withLife f).cellar = s.cellar ∧ (s.withLife f).help = s.help ∧
    (s.withLife f).otp = s.otp ∧ (s.withLife f).flash = s.flash ∧ (s.withLife f).keySlots = s.keySlots ∧ (s.withLife f).sb = s.sb ∧
    (s.withLife f).engines = s.engines ∧ (s.withLife f).shared = s.shared ∧ (s.withLife f).clks = s.clks ∧ (s.withLife f).mbxQ = s.mbxQ ∧
    (s.withLife f).mbxFw = s.mbxFw ∧ (s.withLife f).mbxRung = s.mbxRung ∧ (s.withLife f).mbxStored = s.mbxStored ∧ (s.withLife f).keys = s.keys ∧
    (s.withLife f).dram = s.dram ∧ (s.withLife f).wshop = s.wshop ∧ (s.withLife f).ledg = s.ledg ∧ (s.withLife f).cour = s.cour ∧
    (∀ o1, (s.withLife f).reg o1 = s.reg o1) ∧ (∀ o1 hi1 lo1, (s.withLife f).rf o1 hi1 lo1 = s.rf o1 hi1 lo1) ∧
    (∀ o1 i1, (s.withLife f).rb o1 i1 = s.rb o1 i1) ∧ (s.withLife f).mode = s.mode ∧ (∀ p1, (s.withLife f).port p1 = s.port p1) ∧
    (∀ i1, (s.withLife f).slice i1 = s.slice i1) ∧ (∀ i1, (s.withLife f).station i1 = s.station i1) ∧ (∀ c1, (s.withLife f).frame c1 = s.frame c1) ∧
    (∀ h1, (s.withLife f).hatch h1 = s.hatch h1) ∧ (∀ e1, (s.withLife f).eng e1 = s.eng e1) ∧ (∀ m1, (s.withLife f).thr m1 = s.thr m1) ∧
    (∀ i1, (s.withLife f).shm i1 = s.shm i1) ∧ (∀ k1, (s.withLife f).key k1 = s.key k1) ∧ (∀ h1, (s.withLife f).helper h1 = s.helper h1) ∧
    (∀ k1, (s.withLife f).link k1 = s.link k1) ∧ (∀ g1, (s.withLife f).group g1 = s.group g1) ∧ (∀ g1, (s.withLife f).graph g1 = s.graph g1) ∧
    (∀ m1 o1, (s.withLife f).held m1 o1 = s.held m1 o1) ∧ (s.withLife f).freeValue = s.freeValue := by
  and_intros <;> intros <;> rfl

/-- What withEvt leaves as it was. -/
@[simp] theorem State.withEvt_other (s : State) (f : EvtSt → EvtSt) :
    (s.withEvt f).pending = s.pending ∧ (s.withEvt f).up = s.up ∧ (s.withEvt f).now = s.now ∧ (s.withEvt f).draws = s.draws ∧
    (s.withEvt f).regs = s.regs ∧ (s.withEvt f).resp = s.resp ∧ (s.withEvt f).respEp = s.respEp ∧ (s.withEvt f).holds = s.holds ∧
    (s.withEvt f).latches = s.latches ∧ (s.withEvt f).stats = s.stats ∧ (s.withEvt f).hatches = s.hatches ∧ (s.withEvt f).hatchSince = s.hatchSince ∧
    (s.withEvt f).epoch = s.epoch ∧ (s.withEvt f).ports = s.ports ∧ (s.withEvt f).slices = s.slices ∧ (s.withEvt f).dirs = s.dirs ∧
    (s.withEvt f).stations = s.stations ∧ (s.withEvt f).frames = s.frames ∧ (s.withEvt f).depot = s.depot ∧ (s.withEvt f).time = s.time ∧
    (s.withEvt f).snapReq = s.snapReq ∧ (s.withEvt f).life = s.life ∧ (s.withEvt f).cellar = s.cellar ∧ (s.withEvt f).help = s.help ∧
    (s.withEvt f).otp = s.otp ∧ (s.withEvt f).flash = s.flash ∧ (s.withEvt f).keySlots = s.keySlots ∧ (s.withEvt f).sb = s.sb ∧
    (s.withEvt f).engines = s.engines ∧ (s.withEvt f).shared = s.shared ∧ (s.withEvt f).clks = s.clks ∧ (s.withEvt f).mbxQ = s.mbxQ ∧
    (s.withEvt f).mbxFw = s.mbxFw ∧ (s.withEvt f).mbxRung = s.mbxRung ∧ (s.withEvt f).mbxStored = s.mbxStored ∧ (s.withEvt f).keys = s.keys ∧
    (s.withEvt f).dram = s.dram ∧ (s.withEvt f).wshop = s.wshop ∧ (s.withEvt f).ledg = s.ledg ∧ (s.withEvt f).cour = s.cour ∧
    (∀ o1, (s.withEvt f).reg o1 = s.reg o1) ∧ (∀ o1 hi1 lo1, (s.withEvt f).rf o1 hi1 lo1 = s.rf o1 hi1 lo1) ∧
    (∀ o1 i1, (s.withEvt f).rb o1 i1 = s.rb o1 i1) ∧ (s.withEvt f).mode = s.mode ∧ (∀ p1, (s.withEvt f).port p1 = s.port p1) ∧
    (∀ i1, (s.withEvt f).slice i1 = s.slice i1) ∧ (∀ i1, (s.withEvt f).station i1 = s.station i1) ∧ (∀ c1, (s.withEvt f).frame c1 = s.frame c1) ∧
    (∀ h1, (s.withEvt f).hatch h1 = s.hatch h1) ∧ (∀ e1, (s.withEvt f).eng e1 = s.eng e1) ∧ (∀ m1, (s.withEvt f).thr m1 = s.thr m1) ∧
    (∀ i1, (s.withEvt f).shm i1 = s.shm i1) ∧ (∀ k1, (s.withEvt f).key k1 = s.key k1) ∧ (∀ h1, (s.withEvt f).helper h1 = s.helper h1) ∧
    (∀ k1, (s.withEvt f).link k1 = s.link k1) ∧ (∀ g1, (s.withEvt f).group g1 = s.group g1) ∧ (∀ g1, (s.withEvt f).graph g1 = s.graph g1) ∧
    (∀ m1 o1, (s.withEvt f).held m1 o1 = s.held m1 o1) ∧ (s.withEvt f).freeValue = s.freeValue := by
  and_intros <;> intros <;> rfl

/-- What withDram leaves as it was. -/
@[simp] theorem State.withDram_other (s : State) (f : DramSt → DramSt) :
    (s.withDram f).pending = s.pending ∧ (s.withDram f).up = s.up ∧ (s.withDram f).now = s.now ∧ (s.withDram f).draws = s.draws ∧
    (s.withDram f).regs = s.regs ∧ (s.withDram f).resp = s.resp ∧ (s.withDram f).respEp = s.respEp ∧ (s.withDram f).holds = s.holds ∧
    (s.withDram f).latches = s.latches ∧ (s.withDram f).stats = s.stats ∧ (s.withDram f).evt = s.evt ∧ (s.withDram f).hatches = s.hatches ∧
    (s.withDram f).hatchSince = s.hatchSince ∧ (s.withDram f).epoch = s.epoch ∧ (s.withDram f).ports = s.ports ∧ (s.withDram f).slices = s.slices ∧
    (s.withDram f).dirs = s.dirs ∧ (s.withDram f).stations = s.stations ∧ (s.withDram f).frames = s.frames ∧ (s.withDram f).depot = s.depot ∧
    (s.withDram f).time = s.time ∧ (s.withDram f).snapReq = s.snapReq ∧ (s.withDram f).life = s.life ∧ (s.withDram f).cellar = s.cellar ∧
    (s.withDram f).help = s.help ∧ (s.withDram f).otp = s.otp ∧ (s.withDram f).flash = s.flash ∧ (s.withDram f).keySlots = s.keySlots ∧
    (s.withDram f).sb = s.sb ∧ (s.withDram f).engines = s.engines ∧ (s.withDram f).shared = s.shared ∧ (s.withDram f).clks = s.clks ∧
    (s.withDram f).mbxQ = s.mbxQ ∧ (s.withDram f).mbxFw = s.mbxFw ∧ (s.withDram f).mbxRung = s.mbxRung ∧ (s.withDram f).mbxStored = s.mbxStored ∧
    (s.withDram f).keys = s.keys ∧ (s.withDram f).wshop = s.wshop ∧ (s.withDram f).ledg = s.ledg ∧ (s.withDram f).cour = s.cour ∧
    (∀ o1, (s.withDram f).reg o1 = s.reg o1) ∧ (∀ o1 hi1 lo1, (s.withDram f).rf o1 hi1 lo1 = s.rf o1 hi1 lo1) ∧
    (∀ o1 i1, (s.withDram f).rb o1 i1 = s.rb o1 i1) ∧ (s.withDram f).mode = s.mode ∧ (∀ p1, (s.withDram f).port p1 = s.port p1) ∧
    (∀ i1, (s.withDram f).slice i1 = s.slice i1) ∧ (∀ i1, (s.withDram f).station i1 = s.station i1) ∧ (∀ c1, (s.withDram f).frame c1 = s.frame c1) ∧
    (∀ h1, (s.withDram f).hatch h1 = s.hatch h1) ∧ (∀ e1, (s.withDram f).eng e1 = s.eng e1) ∧ (∀ m1, (s.withDram f).thr m1 = s.thr m1) ∧
    (∀ i1, (s.withDram f).shm i1 = s.shm i1) ∧ (∀ k1, (s.withDram f).key k1 = s.key k1) ∧ (∀ h1, (s.withDram f).helper h1 = s.helper h1) ∧
    (∀ k1, (s.withDram f).link k1 = s.link k1) ∧ (∀ g1, (s.withDram f).group g1 = s.group g1) ∧ (∀ g1, (s.withDram f).graph g1 = s.graph g1) ∧
    (∀ m1 o1, (s.withDram f).held m1 o1 = s.held m1 o1) ∧ (s.withDram f).freeValue = s.freeValue := by
  and_intros <;> intros <;> rfl

/-- What withWshop leaves as it was. -/
@[simp] theorem State.withWshop_other (s : State) (f : WshopSt → WshopSt) :
    (s.withWshop f).pending = s.pending ∧ (s.withWshop f).up = s.up ∧ (s.withWshop f).now = s.now ∧ (s.withWshop f).draws = s.draws ∧
    (s.withWshop f).regs = s.regs ∧ (s.withWshop f).resp = s.resp ∧ (s.withWshop f).respEp = s.respEp ∧ (s.withWshop f).holds = s.holds ∧
    (s.withWshop f).latches = s.latches ∧ (s.withWshop f).stats = s.stats ∧ (s.withWshop f).evt = s.evt ∧ (s.withWshop f).hatches = s.hatches ∧
    (s.withWshop f).hatchSince = s.hatchSince ∧ (s.withWshop f).epoch = s.epoch ∧ (s.withWshop f).ports = s.ports ∧
    (s.withWshop f).slices = s.slices ∧ (s.withWshop f).dirs = s.dirs ∧ (s.withWshop f).stations = s.stations ∧ (s.withWshop f).frames = s.frames ∧
    (s.withWshop f).depot = s.depot ∧ (s.withWshop f).time = s.time ∧ (s.withWshop f).snapReq = s.snapReq ∧ (s.withWshop f).life = s.life ∧
    (s.withWshop f).cellar = s.cellar ∧ (s.withWshop f).help = s.help ∧ (s.withWshop f).otp = s.otp ∧ (s.withWshop f).flash = s.flash ∧
    (s.withWshop f).keySlots = s.keySlots ∧ (s.withWshop f).sb = s.sb ∧ (s.withWshop f).engines = s.engines ∧ (s.withWshop f).shared = s.shared ∧
    (s.withWshop f).clks = s.clks ∧ (s.withWshop f).mbxQ = s.mbxQ ∧ (s.withWshop f).mbxFw = s.mbxFw ∧ (s.withWshop f).mbxRung = s.mbxRung ∧
    (s.withWshop f).mbxStored = s.mbxStored ∧ (s.withWshop f).keys = s.keys ∧ (s.withWshop f).dram = s.dram ∧ (s.withWshop f).ledg = s.ledg ∧
    (s.withWshop f).cour = s.cour ∧ (∀ o1, (s.withWshop f).reg o1 = s.reg o1) ∧ (∀ o1 hi1 lo1, (s.withWshop f).rf o1 hi1 lo1 = s.rf o1 hi1 lo1) ∧
    (∀ o1 i1, (s.withWshop f).rb o1 i1 = s.rb o1 i1) ∧ (s.withWshop f).mode = s.mode ∧ (∀ p1, (s.withWshop f).port p1 = s.port p1) ∧
    (∀ i1, (s.withWshop f).slice i1 = s.slice i1) ∧ (∀ i1, (s.withWshop f).station i1 = s.station i1) ∧
    (∀ c1, (s.withWshop f).frame c1 = s.frame c1) ∧ (∀ h1, (s.withWshop f).hatch h1 = s.hatch h1) ∧ (∀ e1, (s.withWshop f).eng e1 = s.eng e1) ∧
    (∀ m1, (s.withWshop f).thr m1 = s.thr m1) ∧ (∀ i1, (s.withWshop f).shm i1 = s.shm i1) ∧ (∀ k1, (s.withWshop f).key k1 = s.key k1) ∧
    (∀ h1, (s.withWshop f).helper h1 = s.helper h1) ∧ (∀ k1, (s.withWshop f).link k1 = s.link k1) ∧ (∀ g1, (s.withWshop f).group g1 = s.group g1) ∧
    (∀ m1 o1, (s.withWshop f).held m1 o1 = s.held m1 o1) ∧ (s.withWshop f).freeValue = s.freeValue := by
  and_intros <;> intros <;> rfl

/-- What withLedg leaves as it was. -/
@[simp] theorem State.withLedg_other (s : State) (f : LedgSt → LedgSt) :
    (s.withLedg f).pending = s.pending ∧ (s.withLedg f).up = s.up ∧ (s.withLedg f).now = s.now ∧ (s.withLedg f).draws = s.draws ∧
    (s.withLedg f).regs = s.regs ∧ (s.withLedg f).resp = s.resp ∧ (s.withLedg f).respEp = s.respEp ∧ (s.withLedg f).holds = s.holds ∧
    (s.withLedg f).latches = s.latches ∧ (s.withLedg f).stats = s.stats ∧ (s.withLedg f).evt = s.evt ∧ (s.withLedg f).hatches = s.hatches ∧
    (s.withLedg f).hatchSince = s.hatchSince ∧ (s.withLedg f).epoch = s.epoch ∧ (s.withLedg f).ports = s.ports ∧ (s.withLedg f).slices = s.slices ∧
    (s.withLedg f).dirs = s.dirs ∧ (s.withLedg f).stations = s.stations ∧ (s.withLedg f).frames = s.frames ∧ (s.withLedg f).depot = s.depot ∧
    (s.withLedg f).time = s.time ∧ (s.withLedg f).snapReq = s.snapReq ∧ (s.withLedg f).life = s.life ∧ (s.withLedg f).cellar = s.cellar ∧
    (s.withLedg f).help = s.help ∧ (s.withLedg f).otp = s.otp ∧ (s.withLedg f).flash = s.flash ∧ (s.withLedg f).keySlots = s.keySlots ∧
    (s.withLedg f).sb = s.sb ∧ (s.withLedg f).engines = s.engines ∧ (s.withLedg f).shared = s.shared ∧ (s.withLedg f).clks = s.clks ∧
    (s.withLedg f).mbxQ = s.mbxQ ∧ (s.withLedg f).mbxFw = s.mbxFw ∧ (s.withLedg f).mbxRung = s.mbxRung ∧ (s.withLedg f).mbxStored = s.mbxStored ∧
    (s.withLedg f).keys = s.keys ∧ (s.withLedg f).dram = s.dram ∧ (s.withLedg f).wshop = s.wshop ∧ (s.withLedg f).cour = s.cour ∧
    (∀ o1, (s.withLedg f).reg o1 = s.reg o1) ∧ (∀ o1 hi1 lo1, (s.withLedg f).rf o1 hi1 lo1 = s.rf o1 hi1 lo1) ∧
    (∀ o1 i1, (s.withLedg f).rb o1 i1 = s.rb o1 i1) ∧ (s.withLedg f).mode = s.mode ∧ (∀ p1, (s.withLedg f).port p1 = s.port p1) ∧
    (∀ i1, (s.withLedg f).slice i1 = s.slice i1) ∧ (∀ i1, (s.withLedg f).station i1 = s.station i1) ∧ (∀ c1, (s.withLedg f).frame c1 = s.frame c1) ∧
    (∀ h1, (s.withLedg f).hatch h1 = s.hatch h1) ∧ (∀ e1, (s.withLedg f).eng e1 = s.eng e1) ∧ (∀ m1, (s.withLedg f).thr m1 = s.thr m1) ∧
    (∀ i1, (s.withLedg f).shm i1 = s.shm i1) ∧ (∀ k1, (s.withLedg f).key k1 = s.key k1) ∧ (∀ h1, (s.withLedg f).helper h1 = s.helper h1) ∧
    (∀ k1, (s.withLedg f).link k1 = s.link k1) ∧ (∀ g1, (s.withLedg f).group g1 = s.group g1) ∧ (∀ g1, (s.withLedg f).graph g1 = s.graph g1) ∧
    (∀ m1 o1, (s.withLedg f).held m1 o1 = s.held m1 o1) ∧ (s.withLedg f).freeValue = s.freeValue := by
  and_intros <;> intros <;> rfl

/-- What withCour leaves as it was. -/
@[simp] theorem State.withCour_other (s : State) (f : CourSt → CourSt) :
    (s.withCour f).pending = s.pending ∧ (s.withCour f).up = s.up ∧ (s.withCour f).now = s.now ∧ (s.withCour f).draws = s.draws ∧
    (s.withCour f).regs = s.regs ∧ (s.withCour f).resp = s.resp ∧ (s.withCour f).respEp = s.respEp ∧ (s.withCour f).holds = s.holds ∧
    (s.withCour f).latches = s.latches ∧ (s.withCour f).stats = s.stats ∧ (s.withCour f).evt = s.evt ∧ (s.withCour f).hatches = s.hatches ∧
    (s.withCour f).hatchSince = s.hatchSince ∧ (s.withCour f).epoch = s.epoch ∧ (s.withCour f).ports = s.ports ∧ (s.withCour f).slices = s.slices ∧
    (s.withCour f).dirs = s.dirs ∧ (s.withCour f).stations = s.stations ∧ (s.withCour f).frames = s.frames ∧ (s.withCour f).depot = s.depot ∧
    (s.withCour f).time = s.time ∧ (s.withCour f).snapReq = s.snapReq ∧ (s.withCour f).life = s.life ∧ (s.withCour f).cellar = s.cellar ∧
    (s.withCour f).help = s.help ∧ (s.withCour f).otp = s.otp ∧ (s.withCour f).flash = s.flash ∧ (s.withCour f).keySlots = s.keySlots ∧
    (s.withCour f).sb = s.sb ∧ (s.withCour f).engines = s.engines ∧ (s.withCour f).shared = s.shared ∧ (s.withCour f).clks = s.clks ∧
    (s.withCour f).mbxQ = s.mbxQ ∧ (s.withCour f).mbxFw = s.mbxFw ∧ (s.withCour f).mbxRung = s.mbxRung ∧ (s.withCour f).mbxStored = s.mbxStored ∧
    (s.withCour f).keys = s.keys ∧ (s.withCour f).dram = s.dram ∧ (s.withCour f).wshop = s.wshop ∧ (s.withCour f).ledg = s.ledg ∧
    (∀ o1, (s.withCour f).reg o1 = s.reg o1) ∧ (∀ o1 hi1 lo1, (s.withCour f).rf o1 hi1 lo1 = s.rf o1 hi1 lo1) ∧
    (∀ o1 i1, (s.withCour f).rb o1 i1 = s.rb o1 i1) ∧ (s.withCour f).mode = s.mode ∧ (∀ p1, (s.withCour f).port p1 = s.port p1) ∧
    (∀ i1, (s.withCour f).slice i1 = s.slice i1) ∧ (∀ i1, (s.withCour f).station i1 = s.station i1) ∧ (∀ c1, (s.withCour f).frame c1 = s.frame c1) ∧
    (∀ h1, (s.withCour f).hatch h1 = s.hatch h1) ∧ (∀ e1, (s.withCour f).eng e1 = s.eng e1) ∧ (∀ m1, (s.withCour f).thr m1 = s.thr m1) ∧
    (∀ i1, (s.withCour f).shm i1 = s.shm i1) ∧ (∀ k1, (s.withCour f).key k1 = s.key k1) ∧ (∀ h1, (s.withCour f).helper h1 = s.helper h1) ∧
    (∀ g1, (s.withCour f).graph g1 = s.graph g1) ∧ (∀ m1 o1, (s.withCour f).held m1 o1 = s.held m1 o1) ∧ (s.withCour f).freeValue = s.freeValue := by
  and_intros <;> intros <;> rfl

/-- What withLink leaves as it was. -/
@[simp] theorem State.withLink_other (s : State) (k : Nat) (f : CourLink → CourLink) :
    (s.withLink k f).pending = s.pending ∧ (s.withLink k f).up = s.up ∧ (s.withLink k f).now = s.now ∧ (s.withLink k f).draws = s.draws ∧
    (s.withLink k f).regs = s.regs ∧ (s.withLink k f).resp = s.resp ∧ (s.withLink k f).respEp = s.respEp ∧ (s.withLink k f).holds = s.holds ∧
    (s.withLink k f).latches = s.latches ∧ (s.withLink k f).stats = s.stats ∧ (s.withLink k f).evt = s.evt ∧ (s.withLink k f).hatches = s.hatches ∧
    (s.withLink k f).hatchSince = s.hatchSince ∧ (s.withLink k f).epoch = s.epoch ∧ (s.withLink k f).ports = s.ports ∧
    (s.withLink k f).slices = s.slices ∧ (s.withLink k f).dirs = s.dirs ∧ (s.withLink k f).stations = s.stations ∧
    (s.withLink k f).frames = s.frames ∧ (s.withLink k f).depot = s.depot ∧ (s.withLink k f).time = s.time ∧ (s.withLink k f).snapReq = s.snapReq ∧
    (s.withLink k f).life = s.life ∧ (s.withLink k f).cellar = s.cellar ∧ (s.withLink k f).help = s.help ∧ (s.withLink k f).otp = s.otp ∧
    (s.withLink k f).flash = s.flash ∧ (s.withLink k f).keySlots = s.keySlots ∧ (s.withLink k f).sb = s.sb ∧ (s.withLink k f).engines = s.engines ∧
    (s.withLink k f).shared = s.shared ∧ (s.withLink k f).clks = s.clks ∧ (s.withLink k f).mbxQ = s.mbxQ ∧ (s.withLink k f).mbxFw = s.mbxFw ∧
    (s.withLink k f).mbxRung = s.mbxRung ∧ (s.withLink k f).mbxStored = s.mbxStored ∧ (s.withLink k f).keys = s.keys ∧
    (s.withLink k f).dram = s.dram ∧ (s.withLink k f).wshop = s.wshop ∧ (s.withLink k f).ledg = s.ledg ∧ (∀ o1, (s.withLink k f).reg o1 = s.reg o1) ∧
    (∀ o1 hi1 lo1, (s.withLink k f).rf o1 hi1 lo1 = s.rf o1 hi1 lo1) ∧ (∀ o1 i1, (s.withLink k f).rb o1 i1 = s.rb o1 i1) ∧
    (s.withLink k f).mode = s.mode ∧ (∀ p1, (s.withLink k f).port p1 = s.port p1) ∧ (∀ i1, (s.withLink k f).slice i1 = s.slice i1) ∧
    (∀ i1, (s.withLink k f).station i1 = s.station i1) ∧ (∀ c1, (s.withLink k f).frame c1 = s.frame c1) ∧
    (∀ h1, (s.withLink k f).hatch h1 = s.hatch h1) ∧ (∀ e1, (s.withLink k f).eng e1 = s.eng e1) ∧ (∀ m1, (s.withLink k f).thr m1 = s.thr m1) ∧
    (∀ i1, (s.withLink k f).shm i1 = s.shm i1) ∧ (∀ k1, (s.withLink k f).key k1 = s.key k1) ∧ (∀ h1, (s.withLink k f).helper h1 = s.helper h1) ∧
    (∀ g1, (s.withLink k f).graph g1 = s.graph g1) ∧ (∀ m1 o1, (s.withLink k f).held m1 o1 = s.held m1 o1) ∧ (s.withLink k f).freeValue = s.freeValue := by
  and_intros <;> intros <;> rfl

/-- What withGroup leaves as it was. -/
@[simp] theorem State.withGroup_other (s : State) (g : Nat) (f : CourGroup → CourGroup) :
    (s.withGroup g f).pending = s.pending ∧ (s.withGroup g f).up = s.up ∧ (s.withGroup g f).now = s.now ∧ (s.withGroup g f).draws = s.draws ∧
    (s.withGroup g f).regs = s.regs ∧ (s.withGroup g f).resp = s.resp ∧ (s.withGroup g f).respEp = s.respEp ∧ (s.withGroup g f).holds = s.holds ∧
    (s.withGroup g f).latches = s.latches ∧ (s.withGroup g f).stats = s.stats ∧ (s.withGroup g f).evt = s.evt ∧
    (s.withGroup g f).hatches = s.hatches ∧ (s.withGroup g f).hatchSince = s.hatchSince ∧ (s.withGroup g f).epoch = s.epoch ∧
    (s.withGroup g f).ports = s.ports ∧ (s.withGroup g f).slices = s.slices ∧ (s.withGroup g f).dirs = s.dirs ∧
    (s.withGroup g f).stations = s.stations ∧ (s.withGroup g f).frames = s.frames ∧ (s.withGroup g f).depot = s.depot ∧
    (s.withGroup g f).time = s.time ∧ (s.withGroup g f).snapReq = s.snapReq ∧ (s.withGroup g f).life = s.life ∧ (s.withGroup g f).cellar = s.cellar ∧
    (s.withGroup g f).help = s.help ∧ (s.withGroup g f).otp = s.otp ∧ (s.withGroup g f).flash = s.flash ∧ (s.withGroup g f).keySlots = s.keySlots ∧
    (s.withGroup g f).sb = s.sb ∧ (s.withGroup g f).engines = s.engines ∧ (s.withGroup g f).shared = s.shared ∧ (s.withGroup g f).clks = s.clks ∧
    (s.withGroup g f).mbxQ = s.mbxQ ∧ (s.withGroup g f).mbxFw = s.mbxFw ∧ (s.withGroup g f).mbxRung = s.mbxRung ∧
    (s.withGroup g f).mbxStored = s.mbxStored ∧ (s.withGroup g f).keys = s.keys ∧ (s.withGroup g f).dram = s.dram ∧
    (s.withGroup g f).wshop = s.wshop ∧ (s.withGroup g f).ledg = s.ledg ∧ (∀ o1, (s.withGroup g f).reg o1 = s.reg o1) ∧
    (∀ o1 hi1 lo1, (s.withGroup g f).rf o1 hi1 lo1 = s.rf o1 hi1 lo1) ∧ (∀ o1 i1, (s.withGroup g f).rb o1 i1 = s.rb o1 i1) ∧
    (s.withGroup g f).mode = s.mode ∧ (∀ p1, (s.withGroup g f).port p1 = s.port p1) ∧ (∀ i1, (s.withGroup g f).slice i1 = s.slice i1) ∧
    (∀ i1, (s.withGroup g f).station i1 = s.station i1) ∧ (∀ c1, (s.withGroup g f).frame c1 = s.frame c1) ∧
    (∀ h1, (s.withGroup g f).hatch h1 = s.hatch h1) ∧ (∀ e1, (s.withGroup g f).eng e1 = s.eng e1) ∧ (∀ m1, (s.withGroup g f).thr m1 = s.thr m1) ∧
    (∀ i1, (s.withGroup g f).shm i1 = s.shm i1) ∧ (∀ k1, (s.withGroup g f).key k1 = s.key k1) ∧ (∀ h1, (s.withGroup g f).helper h1 = s.helper h1) ∧
    (∀ g1, (s.withGroup g f).graph g1 = s.graph g1) ∧ (∀ m1 o1, (s.withGroup g f).held m1 o1 = s.held m1 o1) ∧
    (s.withGroup g f).freeValue = s.freeValue := by
  and_intros <;> intros <;> rfl

/-- What withSb leaves as it was. -/
@[simp] theorem State.withSb_other (s : State) (f : SbSt → SbSt) :
    (s.withSb f).pending = s.pending ∧ (s.withSb f).up = s.up ∧ (s.withSb f).now = s.now ∧ (s.withSb f).draws = s.draws ∧
    (s.withSb f).regs = s.regs ∧ (s.withSb f).resp = s.resp ∧ (s.withSb f).respEp = s.respEp ∧ (s.withSb f).holds = s.holds ∧
    (s.withSb f).latches = s.latches ∧ (s.withSb f).stats = s.stats ∧ (s.withSb f).evt = s.evt ∧ (s.withSb f).hatches = s.hatches ∧
    (s.withSb f).hatchSince = s.hatchSince ∧ (s.withSb f).epoch = s.epoch ∧ (s.withSb f).ports = s.ports ∧ (s.withSb f).slices = s.slices ∧
    (s.withSb f).dirs = s.dirs ∧ (s.withSb f).stations = s.stations ∧ (s.withSb f).frames = s.frames ∧ (s.withSb f).depot = s.depot ∧
    (s.withSb f).time = s.time ∧ (s.withSb f).snapReq = s.snapReq ∧ (s.withSb f).life = s.life ∧ (s.withSb f).cellar = s.cellar ∧
    (s.withSb f).help = s.help ∧ (s.withSb f).otp = s.otp ∧ (s.withSb f).flash = s.flash ∧ (s.withSb f).keySlots = s.keySlots ∧
    (s.withSb f).engines = s.engines ∧ (s.withSb f).shared = s.shared ∧ (s.withSb f).clks = s.clks ∧ (s.withSb f).mbxQ = s.mbxQ ∧
    (s.withSb f).mbxFw = s.mbxFw ∧ (s.withSb f).mbxRung = s.mbxRung ∧ (s.withSb f).mbxStored = s.mbxStored ∧ (s.withSb f).keys = s.keys ∧
    (s.withSb f).dram = s.dram ∧ (s.withSb f).wshop = s.wshop ∧ (s.withSb f).ledg = s.ledg ∧ (s.withSb f).cour = s.cour ∧
    (∀ o1, (s.withSb f).reg o1 = s.reg o1) ∧ (∀ o1 hi1 lo1, (s.withSb f).rf o1 hi1 lo1 = s.rf o1 hi1 lo1) ∧
    (∀ o1 i1, (s.withSb f).rb o1 i1 = s.rb o1 i1) ∧ (s.withSb f).mode = s.mode ∧ (∀ p1, (s.withSb f).port p1 = s.port p1) ∧
    (∀ i1, (s.withSb f).slice i1 = s.slice i1) ∧ (∀ i1, (s.withSb f).station i1 = s.station i1) ∧ (∀ c1, (s.withSb f).frame c1 = s.frame c1) ∧
    (∀ h1, (s.withSb f).hatch h1 = s.hatch h1) ∧ (∀ e1, (s.withSb f).eng e1 = s.eng e1) ∧ (∀ m1, (s.withSb f).thr m1 = s.thr m1) ∧
    (∀ i1, (s.withSb f).shm i1 = s.shm i1) ∧ (∀ k1, (s.withSb f).key k1 = s.key k1) ∧ (∀ h1, (s.withSb f).helper h1 = s.helper h1) ∧
    (∀ k1, (s.withSb f).link k1 = s.link k1) ∧ (∀ g1, (s.withSb f).group g1 = s.group g1) ∧ (∀ g1, (s.withSb f).graph g1 = s.graph g1) ∧
    (∀ m1 o1, (s.withSb f).held m1 o1 = s.held m1 o1) ∧ (s.withSb f).freeValue = s.freeValue := by
  and_intros <;> intros <;> rfl

/-- What setGraph leaves as it was. -/
@[simp] theorem State.setGraph_other (s : State) (g : Nat) (v : Graph) :
    (s.setGraph g v).pending = s.pending ∧ (s.setGraph g v).up = s.up ∧ (s.setGraph g v).now = s.now ∧ (s.setGraph g v).draws = s.draws ∧
    (s.setGraph g v).regs = s.regs ∧ (s.setGraph g v).resp = s.resp ∧ (s.setGraph g v).respEp = s.respEp ∧ (s.setGraph g v).holds = s.holds ∧
    (s.setGraph g v).latches = s.latches ∧ (s.setGraph g v).stats = s.stats ∧ (s.setGraph g v).evt = s.evt ∧ (s.setGraph g v).hatches = s.hatches ∧
    (s.setGraph g v).hatchSince = s.hatchSince ∧ (s.setGraph g v).epoch = s.epoch ∧ (s.setGraph g v).ports = s.ports ∧
    (s.setGraph g v).slices = s.slices ∧ (s.setGraph g v).dirs = s.dirs ∧ (s.setGraph g v).stations = s.stations ∧
    (s.setGraph g v).frames = s.frames ∧ (s.setGraph g v).depot = s.depot ∧ (s.setGraph g v).time = s.time ∧ (s.setGraph g v).snapReq = s.snapReq ∧
    (s.setGraph g v).life = s.life ∧ (s.setGraph g v).cellar = s.cellar ∧ (s.setGraph g v).help = s.help ∧ (s.setGraph g v).otp = s.otp ∧
    (s.setGraph g v).flash = s.flash ∧ (s.setGraph g v).keySlots = s.keySlots ∧ (s.setGraph g v).sb = s.sb ∧ (s.setGraph g v).engines = s.engines ∧
    (s.setGraph g v).shared = s.shared ∧ (s.setGraph g v).clks = s.clks ∧ (s.setGraph g v).mbxQ = s.mbxQ ∧ (s.setGraph g v).mbxFw = s.mbxFw ∧
    (s.setGraph g v).mbxRung = s.mbxRung ∧ (s.setGraph g v).mbxStored = s.mbxStored ∧ (s.setGraph g v).keys = s.keys ∧
    (s.setGraph g v).dram = s.dram ∧ (s.setGraph g v).ledg = s.ledg ∧ (s.setGraph g v).cour = s.cour ∧ (∀ o1, (s.setGraph g v).reg o1 = s.reg o1) ∧
    (∀ o1 hi1 lo1, (s.setGraph g v).rf o1 hi1 lo1 = s.rf o1 hi1 lo1) ∧ (∀ o1 i1, (s.setGraph g v).rb o1 i1 = s.rb o1 i1) ∧
    (s.setGraph g v).mode = s.mode ∧ (∀ p1, (s.setGraph g v).port p1 = s.port p1) ∧ (∀ i1, (s.setGraph g v).slice i1 = s.slice i1) ∧
    (∀ i1, (s.setGraph g v).station i1 = s.station i1) ∧ (∀ c1, (s.setGraph g v).frame c1 = s.frame c1) ∧
    (∀ h1, (s.setGraph g v).hatch h1 = s.hatch h1) ∧ (∀ e1, (s.setGraph g v).eng e1 = s.eng e1) ∧ (∀ m1, (s.setGraph g v).thr m1 = s.thr m1) ∧
    (∀ i1, (s.setGraph g v).shm i1 = s.shm i1) ∧ (∀ k1, (s.setGraph g v).key k1 = s.key k1) ∧ (∀ h1, (s.setGraph g v).helper h1 = s.helper h1) ∧
    (∀ k1, (s.setGraph g v).link k1 = s.link k1) ∧ (∀ g1, (s.setGraph g v).group g1 = s.group g1) ∧
    (∀ m1 o1, (s.setGraph g v).held m1 o1 = s.held m1 o1) ∧ (s.setGraph g v).freeValue = s.freeValue := by
  and_intros <;> intros <;> rfl

/-- What answer leaves as it was. -/
@[simp] theorem State.answer_other (s : State) (m : Nat) (v : Word) :
    (s.answer m v).pending = s.pending ∧ (s.answer m v).up = s.up ∧ (s.answer m v).now = s.now ∧ (s.answer m v).draws = s.draws ∧
    (s.answer m v).regs = s.regs ∧ (s.answer m v).holds = s.holds ∧ (s.answer m v).latches = s.latches ∧ (s.answer m v).stats = s.stats ∧
    (s.answer m v).evt = s.evt ∧ (s.answer m v).hatches = s.hatches ∧ (s.answer m v).hatchSince = s.hatchSince ∧ (s.answer m v).epoch = s.epoch ∧
    (s.answer m v).ports = s.ports ∧ (s.answer m v).slices = s.slices ∧ (s.answer m v).dirs = s.dirs ∧ (s.answer m v).stations = s.stations ∧
    (s.answer m v).frames = s.frames ∧ (s.answer m v).depot = s.depot ∧ (s.answer m v).time = s.time ∧ (s.answer m v).snapReq = s.snapReq ∧
    (s.answer m v).life = s.life ∧ (s.answer m v).cellar = s.cellar ∧ (s.answer m v).help = s.help ∧ (s.answer m v).otp = s.otp ∧
    (s.answer m v).flash = s.flash ∧ (s.answer m v).keySlots = s.keySlots ∧ (s.answer m v).sb = s.sb ∧ (s.answer m v).engines = s.engines ∧
    (s.answer m v).shared = s.shared ∧ (s.answer m v).clks = s.clks ∧ (s.answer m v).mbxQ = s.mbxQ ∧ (s.answer m v).mbxFw = s.mbxFw ∧
    (s.answer m v).mbxRung = s.mbxRung ∧ (s.answer m v).mbxStored = s.mbxStored ∧ (s.answer m v).keys = s.keys ∧ (s.answer m v).dram = s.dram ∧
    (s.answer m v).wshop = s.wshop ∧ (s.answer m v).ledg = s.ledg ∧ (s.answer m v).cour = s.cour ∧ (∀ o1, (s.answer m v).reg o1 = s.reg o1) ∧
    (∀ o1 hi1 lo1, (s.answer m v).rf o1 hi1 lo1 = s.rf o1 hi1 lo1) ∧ (∀ o1 i1, (s.answer m v).rb o1 i1 = s.rb o1 i1) ∧ (s.answer m v).mode = s.mode ∧
    (∀ p1, (s.answer m v).port p1 = s.port p1) ∧ (∀ i1, (s.answer m v).slice i1 = s.slice i1) ∧ (∀ i1, (s.answer m v).station i1 = s.station i1) ∧
    (∀ c1, (s.answer m v).frame c1 = s.frame c1) ∧ (∀ h1, (s.answer m v).hatch h1 = s.hatch h1) ∧ (∀ e1, (s.answer m v).eng e1 = s.eng e1) ∧
    (∀ m1, (s.answer m v).thr m1 = s.thr m1) ∧ (∀ i1, (s.answer m v).shm i1 = s.shm i1) ∧ (∀ k1, (s.answer m v).key k1 = s.key k1) ∧
    (∀ h1, (s.answer m v).helper h1 = s.helper h1) ∧ (∀ k1, (s.answer m v).link k1 = s.link k1) ∧ (∀ g1, (s.answer m v).group g1 = s.group g1) ∧
    (∀ g1, (s.answer m v).graph g1 = s.graph g1) ∧ (∀ m1 o1, (s.answer m v).held m1 o1 = s.held m1 o1) ∧ (s.answer m v).freeValue = s.freeValue := by
  and_intros <;> intros <;> rfl

/-- What answerPoisoned leaves as it was. -/
@[simp] theorem State.answerPoisoned_other (s : State) (m : Nat) :
    (s.answerPoisoned m).pending = s.pending ∧ (s.answerPoisoned m).up = s.up ∧ (s.answerPoisoned m).now = s.now ∧
    (s.answerPoisoned m).draws = s.draws ∧ (s.answerPoisoned m).regs = s.regs ∧ (s.answerPoisoned m).holds = s.holds ∧
    (s.answerPoisoned m).latches = s.latches ∧ (s.answerPoisoned m).stats = s.stats ∧ (s.answerPoisoned m).evt = s.evt ∧
    (s.answerPoisoned m).hatches = s.hatches ∧ (s.answerPoisoned m).hatchSince = s.hatchSince ∧ (s.answerPoisoned m).epoch = s.epoch ∧
    (s.answerPoisoned m).ports = s.ports ∧ (s.answerPoisoned m).slices = s.slices ∧ (s.answerPoisoned m).dirs = s.dirs ∧
    (s.answerPoisoned m).stations = s.stations ∧ (s.answerPoisoned m).frames = s.frames ∧ (s.answerPoisoned m).depot = s.depot ∧
    (s.answerPoisoned m).time = s.time ∧ (s.answerPoisoned m).snapReq = s.snapReq ∧ (s.answerPoisoned m).life = s.life ∧
    (s.answerPoisoned m).cellar = s.cellar ∧ (s.answerPoisoned m).help = s.help ∧ (s.answerPoisoned m).otp = s.otp ∧
    (s.answerPoisoned m).flash = s.flash ∧ (s.answerPoisoned m).keySlots = s.keySlots ∧ (s.answerPoisoned m).sb = s.sb ∧
    (s.answerPoisoned m).engines = s.engines ∧ (s.answerPoisoned m).shared = s.shared ∧ (s.answerPoisoned m).clks = s.clks ∧
    (s.answerPoisoned m).mbxQ = s.mbxQ ∧ (s.answerPoisoned m).mbxFw = s.mbxFw ∧ (s.answerPoisoned m).mbxRung = s.mbxRung ∧
    (s.answerPoisoned m).mbxStored = s.mbxStored ∧ (s.answerPoisoned m).keys = s.keys ∧ (s.answerPoisoned m).dram = s.dram ∧
    (s.answerPoisoned m).wshop = s.wshop ∧ (s.answerPoisoned m).ledg = s.ledg ∧ (s.answerPoisoned m).cour = s.cour ∧
    (∀ o1, (s.answerPoisoned m).reg o1 = s.reg o1) ∧ (∀ o1 hi1 lo1, (s.answerPoisoned m).rf o1 hi1 lo1 = s.rf o1 hi1 lo1) ∧
    (∀ o1 i1, (s.answerPoisoned m).rb o1 i1 = s.rb o1 i1) ∧ (s.answerPoisoned m).mode = s.mode ∧ (∀ p1, (s.answerPoisoned m).port p1 = s.port p1) ∧
    (∀ i1, (s.answerPoisoned m).slice i1 = s.slice i1) ∧ (∀ i1, (s.answerPoisoned m).station i1 = s.station i1) ∧
    (∀ c1, (s.answerPoisoned m).frame c1 = s.frame c1) ∧ (∀ h1, (s.answerPoisoned m).hatch h1 = s.hatch h1) ∧
    (∀ e1, (s.answerPoisoned m).eng e1 = s.eng e1) ∧ (∀ m1, (s.answerPoisoned m).thr m1 = s.thr m1) ∧
    (∀ i1, (s.answerPoisoned m).shm i1 = s.shm i1) ∧ (∀ k1, (s.answerPoisoned m).key k1 = s.key k1) ∧
    (∀ h1, (s.answerPoisoned m).helper h1 = s.helper h1) ∧ (∀ k1, (s.answerPoisoned m).link k1 = s.link k1) ∧
    (∀ g1, (s.answerPoisoned m).group g1 = s.group g1) ∧ (∀ g1, (s.answerPoisoned m).graph g1 = s.graph g1) ∧
    (∀ m1 o1, (s.answerPoisoned m).held m1 o1 = s.held m1 o1) ∧ (s.answerPoisoned m).freeValue = s.freeValue := by
  and_intros <;> intros <;> rfl

/-- What holdLo leaves as it was. -/
@[simp] theorem State.holdLo_other (s : State) (m lo : Nat) (v : Word) :
    (s.holdLo m lo v).pending = s.pending ∧ (s.holdLo m lo v).up = s.up ∧ (s.holdLo m lo v).now = s.now ∧ (s.holdLo m lo v).draws = s.draws ∧
    (s.holdLo m lo v).regs = s.regs ∧ (s.holdLo m lo v).resp = s.resp ∧ (s.holdLo m lo v).respEp = s.respEp ∧ (s.holdLo m lo v).latches = s.latches ∧
    (s.holdLo m lo v).stats = s.stats ∧ (s.holdLo m lo v).evt = s.evt ∧ (s.holdLo m lo v).hatches = s.hatches ∧
    (s.holdLo m lo v).hatchSince = s.hatchSince ∧ (s.holdLo m lo v).epoch = s.epoch ∧ (s.holdLo m lo v).ports = s.ports ∧
    (s.holdLo m lo v).slices = s.slices ∧ (s.holdLo m lo v).dirs = s.dirs ∧ (s.holdLo m lo v).stations = s.stations ∧
    (s.holdLo m lo v).frames = s.frames ∧ (s.holdLo m lo v).depot = s.depot ∧ (s.holdLo m lo v).time = s.time ∧
    (s.holdLo m lo v).snapReq = s.snapReq ∧ (s.holdLo m lo v).life = s.life ∧ (s.holdLo m lo v).cellar = s.cellar ∧ (s.holdLo m lo v).help = s.help ∧
    (s.holdLo m lo v).otp = s.otp ∧ (s.holdLo m lo v).flash = s.flash ∧ (s.holdLo m lo v).keySlots = s.keySlots ∧ (s.holdLo m lo v).sb = s.sb ∧
    (s.holdLo m lo v).engines = s.engines ∧ (s.holdLo m lo v).shared = s.shared ∧ (s.holdLo m lo v).clks = s.clks ∧ (s.holdLo m lo v).mbxQ = s.mbxQ ∧
    (s.holdLo m lo v).mbxFw = s.mbxFw ∧ (s.holdLo m lo v).mbxRung = s.mbxRung ∧ (s.holdLo m lo v).mbxStored = s.mbxStored ∧
    (s.holdLo m lo v).keys = s.keys ∧ (s.holdLo m lo v).dram = s.dram ∧ (s.holdLo m lo v).wshop = s.wshop ∧ (s.holdLo m lo v).ledg = s.ledg ∧
    (s.holdLo m lo v).cour = s.cour ∧ (∀ o1, (s.holdLo m lo v).reg o1 = s.reg o1) ∧
    (∀ o1 hi1 lo1, (s.holdLo m lo v).rf o1 hi1 lo1 = s.rf o1 hi1 lo1) ∧ (∀ o1 i1, (s.holdLo m lo v).rb o1 i1 = s.rb o1 i1) ∧
    (s.holdLo m lo v).mode = s.mode ∧ (∀ p1, (s.holdLo m lo v).port p1 = s.port p1) ∧ (∀ i1, (s.holdLo m lo v).slice i1 = s.slice i1) ∧
    (∀ i1, (s.holdLo m lo v).station i1 = s.station i1) ∧ (∀ c1, (s.holdLo m lo v).frame c1 = s.frame c1) ∧
    (∀ h1, (s.holdLo m lo v).hatch h1 = s.hatch h1) ∧ (∀ e1, (s.holdLo m lo v).eng e1 = s.eng e1) ∧ (∀ m1, (s.holdLo m lo v).thr m1 = s.thr m1) ∧
    (∀ i1, (s.holdLo m lo v).shm i1 = s.shm i1) ∧ (∀ k1, (s.holdLo m lo v).key k1 = s.key k1) ∧ (∀ h1, (s.holdLo m lo v).helper h1 = s.helper h1) ∧
    (∀ k1, (s.holdLo m lo v).link k1 = s.link k1) ∧ (∀ g1, (s.holdLo m lo v).group g1 = s.group g1) ∧
    (∀ g1, (s.holdLo m lo v).graph g1 = s.graph g1) ∧ (s.holdLo m lo v).freeValue = s.freeValue := by
  and_intros <;> intros <;> rfl

/-- What drawn leaves as it was. -/
@[simp] theorem State.drawn_other (s : State)  :
    s.drawn.pending = s.pending ∧ s.drawn.up = s.up ∧ s.drawn.now = s.now ∧ s.drawn.regs = s.regs ∧ s.drawn.resp = s.resp ∧
    s.drawn.respEp = s.respEp ∧ s.drawn.holds = s.holds ∧ s.drawn.latches = s.latches ∧ s.drawn.stats = s.stats ∧ s.drawn.evt = s.evt ∧
    s.drawn.hatches = s.hatches ∧ s.drawn.hatchSince = s.hatchSince ∧ s.drawn.epoch = s.epoch ∧ s.drawn.ports = s.ports ∧ s.drawn.slices = s.slices ∧
    s.drawn.dirs = s.dirs ∧ s.drawn.stations = s.stations ∧ s.drawn.frames = s.frames ∧ s.drawn.depot = s.depot ∧ s.drawn.time = s.time ∧
    s.drawn.snapReq = s.snapReq ∧ s.drawn.life = s.life ∧ s.drawn.cellar = s.cellar ∧ s.drawn.help = s.help ∧ s.drawn.otp = s.otp ∧
    s.drawn.flash = s.flash ∧ s.drawn.keySlots = s.keySlots ∧ s.drawn.sb = s.sb ∧ s.drawn.engines = s.engines ∧ s.drawn.shared = s.shared ∧
    s.drawn.clks = s.clks ∧ s.drawn.mbxQ = s.mbxQ ∧ s.drawn.mbxFw = s.mbxFw ∧ s.drawn.mbxRung = s.mbxRung ∧ s.drawn.mbxStored = s.mbxStored ∧
    s.drawn.keys = s.keys ∧ s.drawn.dram = s.dram ∧ s.drawn.wshop = s.wshop ∧ s.drawn.ledg = s.ledg ∧ s.drawn.cour = s.cour ∧
    (∀ o1, s.drawn.reg o1 = s.reg o1) ∧ (∀ o1 hi1 lo1, s.drawn.rf o1 hi1 lo1 = s.rf o1 hi1 lo1) ∧ (∀ o1 i1, s.drawn.rb o1 i1 = s.rb o1 i1) ∧
    s.drawn.mode = s.mode ∧ (∀ p1, s.drawn.port p1 = s.port p1) ∧ (∀ i1, s.drawn.slice i1 = s.slice i1) ∧ (∀ i1, s.drawn.station i1 = s.station i1) ∧
    (∀ c1, s.drawn.frame c1 = s.frame c1) ∧ (∀ h1, s.drawn.hatch h1 = s.hatch h1) ∧ (∀ e1, s.drawn.eng e1 = s.eng e1) ∧
    (∀ m1, s.drawn.thr m1 = s.thr m1) ∧ (∀ i1, s.drawn.shm i1 = s.shm i1) ∧ (∀ k1, s.drawn.key k1 = s.key k1) ∧
    (∀ h1, s.drawn.helper h1 = s.helper h1) ∧ (∀ k1, s.drawn.link k1 = s.link k1) ∧ (∀ g1, s.drawn.group g1 = s.group g1) ∧
    (∀ g1, s.drawn.graph g1 = s.graph g1) ∧ (∀ m1 o1, s.drawn.held m1 o1 = s.held m1 o1) := by
  and_intros <;> intros <;> rfl

/-- What setThrState leaves as it was. -/
@[simp] theorem State.setThrState_other (s : State) (m v : Nat) :
    (s.setThrState m v).pending = s.pending ∧ (s.setThrState m v).up = s.up ∧ (s.setThrState m v).now = s.now ∧ (s.setThrState m v).draws = s.draws ∧
    (s.setThrState m v).resp = s.resp ∧ (s.setThrState m v).respEp = s.respEp ∧ (s.setThrState m v).holds = s.holds ∧
    (s.setThrState m v).latches = s.latches ∧ (s.setThrState m v).stats = s.stats ∧ (s.setThrState m v).evt = s.evt ∧
    (s.setThrState m v).hatches = s.hatches ∧ (s.setThrState m v).hatchSince = s.hatchSince ∧ (s.setThrState m v).epoch = s.epoch ∧
    (s.setThrState m v).ports = s.ports ∧ (s.setThrState m v).slices = s.slices ∧ (s.setThrState m v).dirs = s.dirs ∧
    (s.setThrState m v).stations = s.stations ∧ (s.setThrState m v).frames = s.frames ∧ (s.setThrState m v).depot = s.depot ∧
    (s.setThrState m v).time = s.time ∧ (s.setThrState m v).snapReq = s.snapReq ∧ (s.setThrState m v).life = s.life ∧
    (s.setThrState m v).cellar = s.cellar ∧ (s.setThrState m v).help = s.help ∧ (s.setThrState m v).otp = s.otp ∧
    (s.setThrState m v).flash = s.flash ∧ (s.setThrState m v).keySlots = s.keySlots ∧ (s.setThrState m v).sb = s.sb ∧
    (s.setThrState m v).engines = s.engines ∧ (s.setThrState m v).shared = s.shared ∧ (s.setThrState m v).clks = s.clks ∧
    (s.setThrState m v).mbxQ = s.mbxQ ∧ (s.setThrState m v).mbxFw = s.mbxFw ∧ (s.setThrState m v).mbxRung = s.mbxRung ∧
    (s.setThrState m v).mbxStored = s.mbxStored ∧ (s.setThrState m v).keys = s.keys ∧ (s.setThrState m v).dram = s.dram ∧
    (s.setThrState m v).wshop = s.wshop ∧ (s.setThrState m v).ledg = s.ledg ∧ (s.setThrState m v).cour = s.cour ∧
    (∀ p1, (s.setThrState m v).port p1 = s.port p1) ∧ (∀ i1, (s.setThrState m v).slice i1 = s.slice i1) ∧
    (∀ i1, (s.setThrState m v).station i1 = s.station i1) ∧ (∀ c1, (s.setThrState m v).frame c1 = s.frame c1) ∧
    (∀ h1, (s.setThrState m v).hatch h1 = s.hatch h1) ∧ (∀ e1, (s.setThrState m v).eng e1 = s.eng e1) ∧
    (∀ m1, (s.setThrState m v).thr m1 = s.thr m1) ∧ (∀ i1, (s.setThrState m v).shm i1 = s.shm i1) ∧ (∀ k1, (s.setThrState m v).key k1 = s.key k1) ∧
    (∀ h1, (s.setThrState m v).helper h1 = s.helper h1) ∧ (∀ k1, (s.setThrState m v).link k1 = s.link k1) ∧
    (∀ g1, (s.setThrState m v).group g1 = s.group g1) ∧ (∀ g1, (s.setThrState m v).graph g1 = s.graph g1) ∧
    (∀ m1 o1, (s.setThrState m v).held m1 o1 = s.held m1 o1) ∧ (s.setThrState m v).freeValue = s.freeValue := by
  exact State.setRf_other s (thrStatR m) 31 29 v

/-- What setPc leaves as it was. -/
@[simp] theorem State.setPc_other (s : State) (m v : Nat) :
    (s.setPc m v).pending = s.pending ∧ (s.setPc m v).up = s.up ∧ (s.setPc m v).now = s.now ∧ (s.setPc m v).draws = s.draws ∧
    (s.setPc m v).resp = s.resp ∧ (s.setPc m v).respEp = s.respEp ∧ (s.setPc m v).holds = s.holds ∧ (s.setPc m v).latches = s.latches ∧
    (s.setPc m v).stats = s.stats ∧ (s.setPc m v).evt = s.evt ∧ (s.setPc m v).hatches = s.hatches ∧ (s.setPc m v).hatchSince = s.hatchSince ∧
    (s.setPc m v).epoch = s.epoch ∧ (s.setPc m v).ports = s.ports ∧ (s.setPc m v).slices = s.slices ∧ (s.setPc m v).dirs = s.dirs ∧
    (s.setPc m v).stations = s.stations ∧ (s.setPc m v).frames = s.frames ∧ (s.setPc m v).depot = s.depot ∧ (s.setPc m v).time = s.time ∧
    (s.setPc m v).snapReq = s.snapReq ∧ (s.setPc m v).life = s.life ∧ (s.setPc m v).cellar = s.cellar ∧ (s.setPc m v).help = s.help ∧
    (s.setPc m v).otp = s.otp ∧ (s.setPc m v).flash = s.flash ∧ (s.setPc m v).keySlots = s.keySlots ∧ (s.setPc m v).sb = s.sb ∧
    (s.setPc m v).engines = s.engines ∧ (s.setPc m v).shared = s.shared ∧ (s.setPc m v).clks = s.clks ∧ (s.setPc m v).mbxQ = s.mbxQ ∧
    (s.setPc m v).mbxFw = s.mbxFw ∧ (s.setPc m v).mbxRung = s.mbxRung ∧ (s.setPc m v).mbxStored = s.mbxStored ∧ (s.setPc m v).keys = s.keys ∧
    (s.setPc m v).dram = s.dram ∧ (s.setPc m v).wshop = s.wshop ∧ (s.setPc m v).ledg = s.ledg ∧ (s.setPc m v).cour = s.cour ∧
    (∀ p1, (s.setPc m v).port p1 = s.port p1) ∧ (∀ i1, (s.setPc m v).slice i1 = s.slice i1) ∧ (∀ i1, (s.setPc m v).station i1 = s.station i1) ∧
    (∀ c1, (s.setPc m v).frame c1 = s.frame c1) ∧ (∀ h1, (s.setPc m v).hatch h1 = s.hatch h1) ∧ (∀ e1, (s.setPc m v).eng e1 = s.eng e1) ∧
    (∀ m1, (s.setPc m v).thr m1 = s.thr m1) ∧ (∀ i1, (s.setPc m v).shm i1 = s.shm i1) ∧ (∀ k1, (s.setPc m v).key k1 = s.key k1) ∧
    (∀ h1, (s.setPc m v).helper h1 = s.helper h1) ∧ (∀ k1, (s.setPc m v).link k1 = s.link k1) ∧ (∀ g1, (s.setPc m v).group g1 = s.group g1) ∧
    (∀ g1, (s.setPc m v).graph g1 = s.graph g1) ∧ (∀ m1 o1, (s.setPc m v).held m1 o1 = s.held m1 o1) ∧ (s.setPc m v).freeValue = s.freeValue := by
  exact State.setRf_other s (thrPcR m) 15 0 v

/-- What reject leaves as it was. -/
@[simp] theorem State.reject_other (s : State) (o : Nat) :
    (s.reject o).pending = s.pending ∧ (s.reject o).up = s.up ∧ (s.reject o).now = s.now ∧ (s.reject o).draws = s.draws ∧
    (s.reject o).resp = s.resp ∧ (s.reject o).respEp = s.respEp ∧ (s.reject o).holds = s.holds ∧ (s.reject o).latches = s.latches ∧
    (s.reject o).stats = s.stats ∧ (s.reject o).evt = s.evt ∧ (s.reject o).hatches = s.hatches ∧ (s.reject o).hatchSince = s.hatchSince ∧
    (s.reject o).epoch = s.epoch ∧ (s.reject o).ports = s.ports ∧ (s.reject o).slices = s.slices ∧ (s.reject o).dirs = s.dirs ∧
    (s.reject o).stations = s.stations ∧ (s.reject o).frames = s.frames ∧ (s.reject o).depot = s.depot ∧ (s.reject o).time = s.time ∧
    (s.reject o).snapReq = s.snapReq ∧ (s.reject o).life = s.life ∧ (s.reject o).cellar = s.cellar ∧ (s.reject o).help = s.help ∧
    (s.reject o).otp = s.otp ∧ (s.reject o).flash = s.flash ∧ (s.reject o).keySlots = s.keySlots ∧ (s.reject o).sb = s.sb ∧
    (s.reject o).engines = s.engines ∧ (s.reject o).shared = s.shared ∧ (s.reject o).clks = s.clks ∧ (s.reject o).mbxQ = s.mbxQ ∧
    (s.reject o).mbxFw = s.mbxFw ∧ (s.reject o).mbxRung = s.mbxRung ∧ (s.reject o).mbxStored = s.mbxStored ∧ (s.reject o).keys = s.keys ∧
    (s.reject o).dram = s.dram ∧ (s.reject o).wshop = s.wshop ∧ (s.reject o).ledg = s.ledg ∧ (s.reject o).cour = s.cour ∧
    (∀ p1, (s.reject o).port p1 = s.port p1) ∧ (∀ i1, (s.reject o).slice i1 = s.slice i1) ∧ (∀ i1, (s.reject o).station i1 = s.station i1) ∧
    (∀ c1, (s.reject o).frame c1 = s.frame c1) ∧ (∀ h1, (s.reject o).hatch h1 = s.hatch h1) ∧ (∀ e1, (s.reject o).eng e1 = s.eng e1) ∧
    (∀ m1, (s.reject o).thr m1 = s.thr m1) ∧ (∀ i1, (s.reject o).shm i1 = s.shm i1) ∧ (∀ k1, (s.reject o).key k1 = s.key k1) ∧
    (∀ h1, (s.reject o).helper h1 = s.helper h1) ∧ (∀ k1, (s.reject o).link k1 = s.link k1) ∧ (∀ g1, (s.reject o).group g1 = s.group g1) ∧
    (∀ g1, (s.reject o).graph g1 = s.graph g1) ∧ (∀ m1 o1, (s.reject o).held m1 o1 = s.held m1 o1) ∧ (s.reject o).freeValue = s.freeValue := by
  unfold State.reject; generalize rejectBit o = q; exact State.setRf_other s q.1 q.2 q.2 1

/-- What raise leaves as it was. -/
@[simp] theorem State.raise_other (s : State) (code island inst a0 a1 a2 : Nat) :
    (s.raise code island inst a0 a1 a2).pending = s.pending ∧ (s.raise code island inst a0 a1 a2).up = s.up ∧
    (s.raise code island inst a0 a1 a2).now = s.now ∧ (s.raise code island inst a0 a1 a2).draws = s.draws ∧
    (s.raise code island inst a0 a1 a2).regs = s.regs ∧ (s.raise code island inst a0 a1 a2).resp = s.resp ∧
    (s.raise code island inst a0 a1 a2).respEp = s.respEp ∧ (s.raise code island inst a0 a1 a2).holds = s.holds ∧
    (s.raise code island inst a0 a1 a2).latches = s.latches ∧ (s.raise code island inst a0 a1 a2).stats = s.stats ∧
    (s.raise code island inst a0 a1 a2).hatchSince = s.hatchSince ∧ (s.raise code island inst a0 a1 a2).epoch = s.epoch ∧
    (s.raise code island inst a0 a1 a2).ports = s.ports ∧ (s.raise code island inst a0 a1 a2).slices = s.slices ∧
    (s.raise code island inst a0 a1 a2).dirs = s.dirs ∧ (s.raise code island inst a0 a1 a2).stations = s.stations ∧
    (s.raise code island inst a0 a1 a2).frames = s.frames ∧ (s.raise code island inst a0 a1 a2).depot = s.depot ∧
    (s.raise code island inst a0 a1 a2).time = s.time ∧ (s.raise code island inst a0 a1 a2).snapReq = s.snapReq ∧
    (s.raise code island inst a0 a1 a2).life = s.life ∧ (s.raise code island inst a0 a1 a2).cellar = s.cellar ∧
    (s.raise code island inst a0 a1 a2).help = s.help ∧ (s.raise code island inst a0 a1 a2).otp = s.otp ∧
    (s.raise code island inst a0 a1 a2).flash = s.flash ∧ (s.raise code island inst a0 a1 a2).keySlots = s.keySlots ∧
    (s.raise code island inst a0 a1 a2).sb = s.sb ∧ (s.raise code island inst a0 a1 a2).engines = s.engines ∧
    (s.raise code island inst a0 a1 a2).shared = s.shared ∧ (s.raise code island inst a0 a1 a2).clks = s.clks ∧
    (s.raise code island inst a0 a1 a2).mbxQ = s.mbxQ ∧ (s.raise code island inst a0 a1 a2).mbxFw = s.mbxFw ∧
    (s.raise code island inst a0 a1 a2).mbxRung = s.mbxRung ∧ (s.raise code island inst a0 a1 a2).mbxStored = s.mbxStored ∧
    (s.raise code island inst a0 a1 a2).keys = s.keys ∧ (s.raise code island inst a0 a1 a2).dram = s.dram ∧
    (s.raise code island inst a0 a1 a2).wshop = s.wshop ∧ (s.raise code island inst a0 a1 a2).ledg = s.ledg ∧
    (s.raise code island inst a0 a1 a2).cour = s.cour ∧ (∀ o1, (s.raise code island inst a0 a1 a2).reg o1 = s.reg o1) ∧
    (∀ o1 hi1 lo1, (s.raise code island inst a0 a1 a2).rf o1 hi1 lo1 = s.rf o1 hi1 lo1) ∧
    (∀ o1 i1, (s.raise code island inst a0 a1 a2).rb o1 i1 = s.rb o1 i1) ∧ (s.raise code island inst a0 a1 a2).mode = s.mode ∧
    (∀ p1, (s.raise code island inst a0 a1 a2).port p1 = s.port p1) ∧ (∀ i1, (s.raise code island inst a0 a1 a2).slice i1 = s.slice i1) ∧
    (∀ i1, (s.raise code island inst a0 a1 a2).station i1 = s.station i1) ∧ (∀ c1, (s.raise code island inst a0 a1 a2).frame c1 = s.frame c1) ∧
    (∀ e1, (s.raise code island inst a0 a1 a2).eng e1 = s.eng e1) ∧ (∀ m1, (s.raise code island inst a0 a1 a2).thr m1 = s.thr m1) ∧
    (∀ i1, (s.raise code island inst a0 a1 a2).shm i1 = s.shm i1) ∧ (∀ k1, (s.raise code island inst a0 a1 a2).key k1 = s.key k1) ∧
    (∀ h1, (s.raise code island inst a0 a1 a2).helper h1 = s.helper h1) ∧ (∀ k1, (s.raise code island inst a0 a1 a2).link k1 = s.link k1) ∧
    (∀ g1, (s.raise code island inst a0 a1 a2).group g1 = s.group g1) ∧ (∀ g1, (s.raise code island inst a0 a1 a2).graph g1 = s.graph g1) ∧
    (∀ m1 o1, (s.raise code island inst a0 a1 a2).held m1 o1 = s.held m1 o1) ∧ (s.raise code island inst a0 a1 a2).freeValue = s.freeValue := by
  unfold State.raise; dsimp only; split <;> (first | (and_intros <;> intros <;> rfl) | simp)

/-- What count leaves as it was. -/
@[simp] theorem State.count_other (s : State) (o n : Nat) :
    (s.count o n).pending = s.pending ∧ (s.count o n).up = s.up ∧ (s.count o n).now = s.now ∧ (s.count o n).draws = s.draws ∧
    (s.count o n).resp = s.resp ∧ (s.count o n).respEp = s.respEp ∧ (s.count o n).holds = s.holds ∧ (s.count o n).latches = s.latches ∧
    (s.count o n).stats = s.stats ∧ (s.count o n).hatchSince = s.hatchSince ∧ (s.count o n).epoch = s.epoch ∧ (s.count o n).ports = s.ports ∧
    (s.count o n).slices = s.slices ∧ (s.count o n).dirs = s.dirs ∧ (s.count o n).stations = s.stations ∧ (s.count o n).frames = s.frames ∧
    (s.count o n).depot = s.depot ∧ (s.count o n).time = s.time ∧ (s.count o n).snapReq = s.snapReq ∧ (s.count o n).life = s.life ∧
    (s.count o n).cellar = s.cellar ∧ (s.count o n).help = s.help ∧ (s.count o n).otp = s.otp ∧ (s.count o n).flash = s.flash ∧
    (s.count o n).keySlots = s.keySlots ∧ (s.count o n).sb = s.sb ∧ (s.count o n).engines = s.engines ∧ (s.count o n).shared = s.shared ∧
    (s.count o n).clks = s.clks ∧ (s.count o n).mbxQ = s.mbxQ ∧ (s.count o n).mbxFw = s.mbxFw ∧ (s.count o n).mbxRung = s.mbxRung ∧
    (s.count o n).mbxStored = s.mbxStored ∧ (s.count o n).keys = s.keys ∧ (s.count o n).dram = s.dram ∧ (s.count o n).wshop = s.wshop ∧
    (s.count o n).ledg = s.ledg ∧ (s.count o n).cour = s.cour ∧ (∀ p1, (s.count o n).port p1 = s.port p1) ∧
    (∀ i1, (s.count o n).slice i1 = s.slice i1) ∧ (∀ i1, (s.count o n).station i1 = s.station i1) ∧ (∀ c1, (s.count o n).frame c1 = s.frame c1) ∧
    (∀ e1, (s.count o n).eng e1 = s.eng e1) ∧ (∀ m1, (s.count o n).thr m1 = s.thr m1) ∧ (∀ i1, (s.count o n).shm i1 = s.shm i1) ∧
    (∀ k1, (s.count o n).key k1 = s.key k1) ∧ (∀ h1, (s.count o n).helper h1 = s.helper h1) ∧ (∀ k1, (s.count o n).link k1 = s.link k1) ∧
    (∀ g1, (s.count o n).group g1 = s.group g1) ∧ (∀ g1, (s.count o n).graph g1 = s.graph g1) ∧ (∀ m1 o1, (s.count o n).held m1 o1 = s.held m1 o1) ∧
    (s.count o n).freeValue = s.freeValue := by
  unfold State.count; dsimp only; split <;> simp

/-- What stat leaves as it was. -/
@[simp] theorem State.stat_other (s : State) (b i n : Nat) :
    (s.stat b i n).pending = s.pending ∧ (s.stat b i n).up = s.up ∧ (s.stat b i n).now = s.now ∧ (s.stat b i n).draws = s.draws ∧
    (s.stat b i n).resp = s.resp ∧ (s.stat b i n).respEp = s.respEp ∧ (s.stat b i n).holds = s.holds ∧ (s.stat b i n).latches = s.latches ∧
    (s.stat b i n).evt = s.evt ∧ (s.stat b i n).hatches = s.hatches ∧ (s.stat b i n).hatchSince = s.hatchSince ∧ (s.stat b i n).epoch = s.epoch ∧
    (s.stat b i n).ports = s.ports ∧ (s.stat b i n).slices = s.slices ∧ (s.stat b i n).dirs = s.dirs ∧ (s.stat b i n).stations = s.stations ∧
    (s.stat b i n).frames = s.frames ∧ (s.stat b i n).depot = s.depot ∧ (s.stat b i n).time = s.time ∧ (s.stat b i n).snapReq = s.snapReq ∧
    (s.stat b i n).life = s.life ∧ (s.stat b i n).cellar = s.cellar ∧ (s.stat b i n).help = s.help ∧ (s.stat b i n).otp = s.otp ∧
    (s.stat b i n).flash = s.flash ∧ (s.stat b i n).keySlots = s.keySlots ∧ (s.stat b i n).sb = s.sb ∧ (s.stat b i n).engines = s.engines ∧
    (s.stat b i n).shared = s.shared ∧ (s.stat b i n).clks = s.clks ∧ (s.stat b i n).mbxQ = s.mbxQ ∧ (s.stat b i n).mbxFw = s.mbxFw ∧
    (s.stat b i n).mbxRung = s.mbxRung ∧ (s.stat b i n).mbxStored = s.mbxStored ∧ (s.stat b i n).keys = s.keys ∧ (s.stat b i n).dram = s.dram ∧
    (s.stat b i n).wshop = s.wshop ∧ (s.stat b i n).ledg = s.ledg ∧ (s.stat b i n).cour = s.cour ∧ (∀ p1, (s.stat b i n).port p1 = s.port p1) ∧
    (∀ i1, (s.stat b i n).slice i1 = s.slice i1) ∧ (∀ i1, (s.stat b i n).station i1 = s.station i1) ∧ (∀ c1, (s.stat b i n).frame c1 = s.frame c1) ∧
    (∀ h1, (s.stat b i n).hatch h1 = s.hatch h1) ∧ (∀ e1, (s.stat b i n).eng e1 = s.eng e1) ∧ (∀ m1, (s.stat b i n).thr m1 = s.thr m1) ∧
    (∀ i1, (s.stat b i n).shm i1 = s.shm i1) ∧ (∀ k1, (s.stat b i n).key k1 = s.key k1) ∧ (∀ h1, (s.stat b i n).helper h1 = s.helper h1) ∧
    (∀ k1, (s.stat b i n).link k1 = s.link k1) ∧ (∀ g1, (s.stat b i n).group g1 = s.group g1) ∧ (∀ g1, (s.stat b i n).graph g1 = s.graph g1) ∧
    (∀ m1 o1, (s.stat b i n).held m1 o1 = s.held m1 o1) ∧ (s.stat b i n).freeValue = s.freeValue := by
  unfold State.stat; dsimp only; split <;> and_intros <;> intros <;> rfl

/-- What stray leaves as it was. -/
@[simp] theorem State.stray_other (s : State) (m o : Nat) (wr : Bool) :
    (s.stray m o wr).pending = s.pending ∧ (s.stray m o wr).up = s.up ∧ (s.stray m o wr).now = s.now ∧ (s.stray m o wr).draws = s.draws ∧
    (s.stray m o wr).resp = s.resp ∧ (s.stray m o wr).respEp = s.respEp ∧ (s.stray m o wr).holds = s.holds ∧ (s.stray m o wr).latches = s.latches ∧
    (s.stray m o wr).stats = s.stats ∧ (s.stray m o wr).hatchSince = s.hatchSince ∧ (s.stray m o wr).epoch = s.epoch ∧
    (s.stray m o wr).ports = s.ports ∧ (s.stray m o wr).slices = s.slices ∧ (s.stray m o wr).dirs = s.dirs ∧ (s.stray m o wr).stations = s.stations ∧
    (s.stray m o wr).frames = s.frames ∧ (s.stray m o wr).depot = s.depot ∧ (s.stray m o wr).time = s.time ∧ (s.stray m o wr).snapReq = s.snapReq ∧
    (s.stray m o wr).life = s.life ∧ (s.stray m o wr).cellar = s.cellar ∧ (s.stray m o wr).help = s.help ∧ (s.stray m o wr).otp = s.otp ∧
    (s.stray m o wr).flash = s.flash ∧ (s.stray m o wr).keySlots = s.keySlots ∧ (s.stray m o wr).sb = s.sb ∧ (s.stray m o wr).engines = s.engines ∧
    (s.stray m o wr).shared = s.shared ∧ (s.stray m o wr).clks = s.clks ∧ (s.stray m o wr).mbxQ = s.mbxQ ∧ (s.stray m o wr).mbxFw = s.mbxFw ∧
    (s.stray m o wr).mbxRung = s.mbxRung ∧ (s.stray m o wr).mbxStored = s.mbxStored ∧ (s.stray m o wr).keys = s.keys ∧
    (s.stray m o wr).dram = s.dram ∧ (s.stray m o wr).wshop = s.wshop ∧ (s.stray m o wr).ledg = s.ledg ∧ (s.stray m o wr).cour = s.cour ∧
    (∀ p1, (s.stray m o wr).port p1 = s.port p1) ∧ (∀ i1, (s.stray m o wr).slice i1 = s.slice i1) ∧
    (∀ i1, (s.stray m o wr).station i1 = s.station i1) ∧ (∀ c1, (s.stray m o wr).frame c1 = s.frame c1) ∧
    (∀ e1, (s.stray m o wr).eng e1 = s.eng e1) ∧ (∀ m1, (s.stray m o wr).thr m1 = s.thr m1) ∧ (∀ i1, (s.stray m o wr).shm i1 = s.shm i1) ∧
    (∀ k1, (s.stray m o wr).key k1 = s.key k1) ∧ (∀ h1, (s.stray m o wr).helper h1 = s.helper h1) ∧ (∀ k1, (s.stray m o wr).link k1 = s.link k1) ∧
    (∀ g1, (s.stray m o wr).group g1 = s.group g1) ∧ (∀ g1, (s.stray m o wr).graph g1 = s.graph g1) ∧
    (∀ m1 o1, (s.stray m o wr).held m1 o1 = s.held m1 o1) ∧ (s.stray m o wr).freeValue = s.freeValue := by
  unfold State.stray; dsimp only; split <;> simp

/-- What advance leaves as it was. -/
@[simp] theorem advance_other (s : State) (dt : Nat) :
    (advance s dt).pending = s.pending ∧ (advance s dt).draws = s.draws ∧ (advance s dt).regs = s.regs ∧ (advance s dt).resp = s.resp ∧
    (advance s dt).respEp = s.respEp ∧ (advance s dt).holds = s.holds ∧ (advance s dt).latches = s.latches ∧ (advance s dt).stats = s.stats ∧
    (advance s dt).evt = s.evt ∧ (advance s dt).hatches = s.hatches ∧ (advance s dt).hatchSince = s.hatchSince ∧ (advance s dt).epoch = s.epoch ∧
    (advance s dt).ports = s.ports ∧ (advance s dt).slices = s.slices ∧ (advance s dt).dirs = s.dirs ∧ (advance s dt).stations = s.stations ∧
    (advance s dt).frames = s.frames ∧ (advance s dt).depot = s.depot ∧ (advance s dt).snapReq = s.snapReq ∧ (advance s dt).life = s.life ∧
    (advance s dt).cellar = s.cellar ∧ (advance s dt).help = s.help ∧ (advance s dt).otp = s.otp ∧ (advance s dt).flash = s.flash ∧
    (advance s dt).keySlots = s.keySlots ∧ (advance s dt).sb = s.sb ∧ (advance s dt).engines = s.engines ∧ (advance s dt).shared = s.shared ∧
    (advance s dt).clks = s.clks ∧ (advance s dt).mbxQ = s.mbxQ ∧ (advance s dt).mbxFw = s.mbxFw ∧ (advance s dt).mbxRung = s.mbxRung ∧
    (advance s dt).mbxStored = s.mbxStored ∧ (advance s dt).keys = s.keys ∧ (advance s dt).dram = s.dram ∧ (advance s dt).wshop = s.wshop ∧
    (advance s dt).ledg = s.ledg ∧ (advance s dt).cour = s.cour ∧ (∀ o1, (advance s dt).reg o1 = s.reg o1) ∧
    (∀ o1 hi1 lo1, (advance s dt).rf o1 hi1 lo1 = s.rf o1 hi1 lo1) ∧ (∀ o1 i1, (advance s dt).rb o1 i1 = s.rb o1 i1) ∧ (advance s dt).mode = s.mode ∧
    (∀ p1, (advance s dt).port p1 = s.port p1) ∧ (∀ i1, (advance s dt).slice i1 = s.slice i1) ∧ (∀ i1, (advance s dt).station i1 = s.station i1) ∧
    (∀ c1, (advance s dt).frame c1 = s.frame c1) ∧ (∀ h1, (advance s dt).hatch h1 = s.hatch h1) ∧ (∀ e1, (advance s dt).eng e1 = s.eng e1) ∧
    (∀ m1, (advance s dt).thr m1 = s.thr m1) ∧ (∀ i1, (advance s dt).shm i1 = s.shm i1) ∧ (∀ k1, (advance s dt).key k1 = s.key k1) ∧
    (∀ h1, (advance s dt).helper h1 = s.helper h1) ∧ (∀ k1, (advance s dt).link k1 = s.link k1) ∧ (∀ g1, (advance s dt).group g1 = s.group g1) ∧
    (∀ g1, (advance s dt).graph g1 = s.graph g1) ∧ (∀ m1 o1, (advance s dt).held m1 o1 = s.held m1 o1) ∧ (advance s dt).freeValue = s.freeValue := by
  and_intros <;> intros <;> rfl

/-- What waitNoted leaves as it was. -/
@[simp] theorem State.waitNoted_other (s : State) (h : Nat) :
    (s.waitNoted h).pending = s.pending ∧ (s.waitNoted h).up = s.up ∧ (s.waitNoted h).now = s.now ∧ (s.waitNoted h).draws = s.draws ∧
    (s.waitNoted h).regs = s.regs ∧ (s.waitNoted h).resp = s.resp ∧ (s.waitNoted h).respEp = s.respEp ∧ (s.waitNoted h).holds = s.holds ∧
    (s.waitNoted h).latches = s.latches ∧ (s.waitNoted h).stats = s.stats ∧ (s.waitNoted h).evt = s.evt ∧ (s.waitNoted h).hatches = s.hatches ∧
    (s.waitNoted h).epoch = s.epoch ∧ (s.waitNoted h).ports = s.ports ∧ (s.waitNoted h).slices = s.slices ∧ (s.waitNoted h).dirs = s.dirs ∧
    (s.waitNoted h).stations = s.stations ∧ (s.waitNoted h).frames = s.frames ∧ (s.waitNoted h).depot = s.depot ∧ (s.waitNoted h).time = s.time ∧
    (s.waitNoted h).snapReq = s.snapReq ∧ (s.waitNoted h).life = s.life ∧ (s.waitNoted h).cellar = s.cellar ∧ (s.waitNoted h).help = s.help ∧
    (s.waitNoted h).otp = s.otp ∧ (s.waitNoted h).flash = s.flash ∧ (s.waitNoted h).keySlots = s.keySlots ∧ (s.waitNoted h).sb = s.sb ∧
    (s.waitNoted h).engines = s.engines ∧ (s.waitNoted h).shared = s.shared ∧ (s.waitNoted h).clks = s.clks ∧ (s.waitNoted h).mbxQ = s.mbxQ ∧
    (s.waitNoted h).mbxFw = s.mbxFw ∧ (s.waitNoted h).mbxRung = s.mbxRung ∧ (s.waitNoted h).mbxStored = s.mbxStored ∧ (s.waitNoted h).keys = s.keys ∧
    (s.waitNoted h).dram = s.dram ∧ (s.waitNoted h).wshop = s.wshop ∧ (s.waitNoted h).ledg = s.ledg ∧ (s.waitNoted h).cour = s.cour ∧
    (∀ o1, (s.waitNoted h).reg o1 = s.reg o1) ∧ (∀ o1 hi1 lo1, (s.waitNoted h).rf o1 hi1 lo1 = s.rf o1 hi1 lo1) ∧
    (∀ o1 i1, (s.waitNoted h).rb o1 i1 = s.rb o1 i1) ∧ (s.waitNoted h).mode = s.mode ∧ (∀ p1, (s.waitNoted h).port p1 = s.port p1) ∧
    (∀ i1, (s.waitNoted h).slice i1 = s.slice i1) ∧ (∀ i1, (s.waitNoted h).station i1 = s.station i1) ∧
    (∀ c1, (s.waitNoted h).frame c1 = s.frame c1) ∧ (∀ h1, (s.waitNoted h).hatch h1 = s.hatch h1) ∧ (∀ e1, (s.waitNoted h).eng e1 = s.eng e1) ∧
    (∀ m1, (s.waitNoted h).thr m1 = s.thr m1) ∧ (∀ i1, (s.waitNoted h).shm i1 = s.shm i1) ∧ (∀ k1, (s.waitNoted h).key k1 = s.key k1) ∧
    (∀ h1, (s.waitNoted h).helper h1 = s.helper h1) ∧ (∀ k1, (s.waitNoted h).link k1 = s.link k1) ∧ (∀ g1, (s.waitNoted h).group g1 = s.group g1) ∧
    (∀ g1, (s.waitNoted h).graph g1 = s.graph g1) ∧ (∀ m1 o1, (s.waitNoted h).held m1 o1 = s.held m1 o1) ∧ (s.waitNoted h).freeValue = s.freeValue := by
  and_intros <;> intros <;> rfl

/-- What waitBegins leaves as it was. -/
@[simp] theorem State.waitBegins_other (s : State) (h : Nat) :
    (s.waitBegins h).pending = s.pending ∧ (s.waitBegins h).up = s.up ∧ (s.waitBegins h).now = s.now ∧ (s.waitBegins h).draws = s.draws ∧
    (s.waitBegins h).regs = s.regs ∧ (s.waitBegins h).resp = s.resp ∧ (s.waitBegins h).respEp = s.respEp ∧ (s.waitBegins h).holds = s.holds ∧
    (s.waitBegins h).latches = s.latches ∧ (s.waitBegins h).stats = s.stats ∧ (s.waitBegins h).evt = s.evt ∧ (s.waitBegins h).hatches = s.hatches ∧
    (s.waitBegins h).epoch = s.epoch ∧ (s.waitBegins h).ports = s.ports ∧ (s.waitBegins h).slices = s.slices ∧ (s.waitBegins h).dirs = s.dirs ∧
    (s.waitBegins h).stations = s.stations ∧ (s.waitBegins h).frames = s.frames ∧ (s.waitBegins h).depot = s.depot ∧ (s.waitBegins h).time = s.time ∧
    (s.waitBegins h).snapReq = s.snapReq ∧ (s.waitBegins h).life = s.life ∧ (s.waitBegins h).cellar = s.cellar ∧ (s.waitBegins h).help = s.help ∧
    (s.waitBegins h).otp = s.otp ∧ (s.waitBegins h).flash = s.flash ∧ (s.waitBegins h).keySlots = s.keySlots ∧ (s.waitBegins h).sb = s.sb ∧
    (s.waitBegins h).engines = s.engines ∧ (s.waitBegins h).shared = s.shared ∧ (s.waitBegins h).clks = s.clks ∧ (s.waitBegins h).mbxQ = s.mbxQ ∧
    (s.waitBegins h).mbxFw = s.mbxFw ∧ (s.waitBegins h).mbxRung = s.mbxRung ∧ (s.waitBegins h).mbxStored = s.mbxStored ∧
    (s.waitBegins h).keys = s.keys ∧ (s.waitBegins h).dram = s.dram ∧ (s.waitBegins h).wshop = s.wshop ∧ (s.waitBegins h).ledg = s.ledg ∧
    (s.waitBegins h).cour = s.cour ∧ (∀ o1, (s.waitBegins h).reg o1 = s.reg o1) ∧ (∀ o1 hi1 lo1, (s.waitBegins h).rf o1 hi1 lo1 = s.rf o1 hi1 lo1) ∧
    (∀ o1 i1, (s.waitBegins h).rb o1 i1 = s.rb o1 i1) ∧ (s.waitBegins h).mode = s.mode ∧ (∀ p1, (s.waitBegins h).port p1 = s.port p1) ∧
    (∀ i1, (s.waitBegins h).slice i1 = s.slice i1) ∧ (∀ i1, (s.waitBegins h).station i1 = s.station i1) ∧
    (∀ c1, (s.waitBegins h).frame c1 = s.frame c1) ∧ (∀ h1, (s.waitBegins h).hatch h1 = s.hatch h1) ∧ (∀ e1, (s.waitBegins h).eng e1 = s.eng e1) ∧
    (∀ m1, (s.waitBegins h).thr m1 = s.thr m1) ∧ (∀ i1, (s.waitBegins h).shm i1 = s.shm i1) ∧ (∀ k1, (s.waitBegins h).key k1 = s.key k1) ∧
    (∀ h1, (s.waitBegins h).helper h1 = s.helper h1) ∧ (∀ k1, (s.waitBegins h).link k1 = s.link k1) ∧
    (∀ g1, (s.waitBegins h).group g1 = s.group g1) ∧ (∀ g1, (s.waitBegins h).graph g1 = s.graph g1) ∧
    (∀ m1 o1, (s.waitBegins h).held m1 o1 = s.held m1 o1) ∧ (s.waitBegins h).freeValue = s.freeValue := by
  and_intros <;> intros <;> rfl

/-- What passed leaves as it was. -/
@[simp] theorem State.passed_other (s : State) (h n : Nat) :
    (s.passed h n).pending = s.pending ∧ (s.passed h n).up = s.up ∧ (s.passed h n).now = s.now ∧ (s.passed h n).draws = s.draws ∧
    (s.passed h n).regs = s.regs ∧ (s.passed h n).resp = s.resp ∧ (s.passed h n).respEp = s.respEp ∧ (s.passed h n).holds = s.holds ∧
    (s.passed h n).latches = s.latches ∧ (s.passed h n).stats = s.stats ∧ (s.passed h n).evt = s.evt ∧ (s.passed h n).hatchSince = s.hatchSince ∧
    (s.passed h n).epoch = s.epoch ∧ (s.passed h n).ports = s.ports ∧ (s.passed h n).slices = s.slices ∧ (s.passed h n).dirs = s.dirs ∧
    (s.passed h n).stations = s.stations ∧ (s.passed h n).frames = s.frames ∧ (s.passed h n).depot = s.depot ∧ (s.passed h n).time = s.time ∧
    (s.passed h n).snapReq = s.snapReq ∧ (s.passed h n).life = s.life ∧ (s.passed h n).cellar = s.cellar ∧ (s.passed h n).help = s.help ∧
    (s.passed h n).otp = s.otp ∧ (s.passed h n).flash = s.flash ∧ (s.passed h n).keySlots = s.keySlots ∧ (s.passed h n).sb = s.sb ∧
    (s.passed h n).engines = s.engines ∧ (s.passed h n).shared = s.shared ∧ (s.passed h n).clks = s.clks ∧ (s.passed h n).mbxQ = s.mbxQ ∧
    (s.passed h n).mbxFw = s.mbxFw ∧ (s.passed h n).mbxRung = s.mbxRung ∧ (s.passed h n).mbxStored = s.mbxStored ∧ (s.passed h n).keys = s.keys ∧
    (s.passed h n).dram = s.dram ∧ (s.passed h n).wshop = s.wshop ∧ (s.passed h n).ledg = s.ledg ∧ (s.passed h n).cour = s.cour ∧
    (∀ o1, (s.passed h n).reg o1 = s.reg o1) ∧ (∀ o1 hi1 lo1, (s.passed h n).rf o1 hi1 lo1 = s.rf o1 hi1 lo1) ∧
    (∀ o1 i1, (s.passed h n).rb o1 i1 = s.rb o1 i1) ∧ (s.passed h n).mode = s.mode ∧ (∀ p1, (s.passed h n).port p1 = s.port p1) ∧
    (∀ i1, (s.passed h n).slice i1 = s.slice i1) ∧ (∀ i1, (s.passed h n).station i1 = s.station i1) ∧ (∀ c1, (s.passed h n).frame c1 = s.frame c1) ∧
    (∀ e1, (s.passed h n).eng e1 = s.eng e1) ∧ (∀ m1, (s.passed h n).thr m1 = s.thr m1) ∧ (∀ i1, (s.passed h n).shm i1 = s.shm i1) ∧
    (∀ k1, (s.passed h n).key k1 = s.key k1) ∧ (∀ h1, (s.passed h n).helper h1 = s.helper h1) ∧ (∀ k1, (s.passed h n).link k1 = s.link k1) ∧
    (∀ g1, (s.passed h n).group g1 = s.group g1) ∧ (∀ g1, (s.passed h n).graph g1 = s.graph g1) ∧
    (∀ m1 o1, (s.passed h n).held m1 o1 = s.held m1 o1) ∧ (s.passed h n).freeValue = s.freeValue := by
  and_intros <;> intros <;> rfl

/-- What offer leaves as it was. -/
@[simp] theorem State.offer_other (s : State) (h : Nat) (e : HEntry) :
    (s.offer h e).pending = s.pending ∧ (s.offer h e).up = s.up ∧ (s.offer h e).now = s.now ∧ (s.offer h e).draws = s.draws ∧
    (s.offer h e).regs = s.regs ∧ (s.offer h e).resp = s.resp ∧ (s.offer h e).respEp = s.respEp ∧ (s.offer h e).holds = s.holds ∧
    (s.offer h e).latches = s.latches ∧ (s.offer h e).stats = s.stats ∧ (s.offer h e).evt = s.evt ∧ (s.offer h e).epoch = s.epoch ∧
    (s.offer h e).ports = s.ports ∧ (s.offer h e).slices = s.slices ∧ (s.offer h e).dirs = s.dirs ∧ (s.offer h e).stations = s.stations ∧
    (s.offer h e).frames = s.frames ∧ (s.offer h e).depot = s.depot ∧ (s.offer h e).time = s.time ∧ (s.offer h e).snapReq = s.snapReq ∧
    (s.offer h e).life = s.life ∧ (s.offer h e).cellar = s.cellar ∧ (s.offer h e).help = s.help ∧ (s.offer h e).otp = s.otp ∧
    (s.offer h e).flash = s.flash ∧ (s.offer h e).keySlots = s.keySlots ∧ (s.offer h e).sb = s.sb ∧ (s.offer h e).engines = s.engines ∧
    (s.offer h e).shared = s.shared ∧ (s.offer h e).clks = s.clks ∧ (s.offer h e).mbxQ = s.mbxQ ∧ (s.offer h e).mbxFw = s.mbxFw ∧
    (s.offer h e).mbxRung = s.mbxRung ∧ (s.offer h e).mbxStored = s.mbxStored ∧ (s.offer h e).keys = s.keys ∧ (s.offer h e).dram = s.dram ∧
    (s.offer h e).wshop = s.wshop ∧ (s.offer h e).ledg = s.ledg ∧ (s.offer h e).cour = s.cour ∧ (∀ o1, (s.offer h e).reg o1 = s.reg o1) ∧
    (∀ o1 hi1 lo1, (s.offer h e).rf o1 hi1 lo1 = s.rf o1 hi1 lo1) ∧ (∀ o1 i1, (s.offer h e).rb o1 i1 = s.rb o1 i1) ∧ (s.offer h e).mode = s.mode ∧
    (∀ p1, (s.offer h e).port p1 = s.port p1) ∧ (∀ i1, (s.offer h e).slice i1 = s.slice i1) ∧ (∀ i1, (s.offer h e).station i1 = s.station i1) ∧
    (∀ c1, (s.offer h e).frame c1 = s.frame c1) ∧ (∀ e1, (s.offer h e).eng e1 = s.eng e1) ∧ (∀ m1, (s.offer h e).thr m1 = s.thr m1) ∧
    (∀ i1, (s.offer h e).shm i1 = s.shm i1) ∧ (∀ k1, (s.offer h e).key k1 = s.key k1) ∧ (∀ h1, (s.offer h e).helper h1 = s.helper h1) ∧
    (∀ k1, (s.offer h e).link k1 = s.link k1) ∧ (∀ g1, (s.offer h e).group g1 = s.group g1) ∧ (∀ g1, (s.offer h e).graph g1 = s.graph g1) ∧
    (∀ m1 o1, (s.offer h e).held m1 o1 = s.held m1 o1) ∧ (s.offer h e).freeValue = s.freeValue := by
  and_intros <;> intros <;> rfl

end Sys2Proof.Machine
end

