-- ==== Sys2Proof/Laws/Tables.lean ====
section
/-! SUPPORT. Sparse tables: a reading after a write, and the canonical form every write keeps; and from them the laws of the register file, the byte memories and
the per-unit records. -/

namespace Sys2Proof.Machine

/-! ### Readings -/

theorem mapGet_insert_same {α : Type} (d : α) (m : NMap α) (i : Nat) (v : α) (h : ∀ p ∈ m, p.1 ≠ i) :
    mapGet d (mapInsert m i v) i = v := by
  induction m with
  | nil => simp [mapInsert, mapGet]
  | cons p r ih =>
    have hp : p.1 ≠ i := h p (by simp)
    have ih := ih fun q hq => h q (by simp [hq])
    simp only [mapInsert]
    split
    · simp [mapGet]
    · simp [mapGet, hp, ih]

theorem mapGet_insert_ne {α : Type} (d : α) (m : NMap α) (i j : Nat) (v : α) (h : i ≠ j) :
    mapGet d (mapInsert m i v) j = mapGet d m j := by
  induction m with
  | nil => simp [mapInsert, mapGet, h]
  | cons p r ih =>
    simp only [mapInsert]
    split
    · simp [mapGet, h]
    · simp [mapGet, ih]

theorem mapErase_absent {α : Type} (m : NMap α) (i : Nat) : ∀ p ∈ mapErase m i, p.1 ≠ i := by
  intro p hp
  simp [mapErase] at hp
  exact hp.2

theorem mapGet_erase_ne {α : Type} (d : α) (m : NMap α) (i j : Nat) (h : i ≠ j) : mapGet d (mapErase m i) j = mapGet d m j := by
  induction m with
  | nil => rfl
  | cons p r ih =>
    unfold mapErase at ih ⊢
    by_cases hp : p.1 = i
    · have : ¬(p.1 = j) := fun e => h (hp.symm.trans e)
      simp only [List.filter_cons, hp, bne_self_eq_false, Bool.false_eq_true, if_false, ih]
      simp [mapGet, this]
    · simp [hp, mapGet, ih]

theorem mapGet_absent {α : Type} (d : α) (m : NMap α) (i : Nat) (h : ∀ p ∈ m, p.1 ≠ i) : mapGet d m i = d := by
  induction m with
  | nil => rfl
  | cons p r ih =>
    have hp : p.1 ≠ i := h p (by simp)
    simp [mapGet, hp, ih fun q hq => h q (by simp [hq])]

/-- A table reads at a key what was last set there. -/
@[simp] theorem mapGet_mapSet_same {α : Type} [DecidableEq α] (d : α) (m : NMap α) (i : Nat) (v : α) : mapGet d (mapSet d m i v) i = v := by
  unfold mapSet
  split
  · rename_i h; rw [mapGet_absent d _ i (mapErase_absent m i), h]
  · exact mapGet_insert_same d _ i v (mapErase_absent m i)

/-- Setting one key leaves every other as it was. -/
theorem mapGet_mapSet_ne {α : Type} [DecidableEq α] (d : α) (m : NMap α) (i j : Nat) (v : α) (h : i ≠ j) :
    mapGet d (mapSet d m i v) j = mapGet d m j := by
  unfold mapSet
  split
  · exact mapGet_erase_ne d m i j h
  · rw [mapGet_insert_ne d _ i j v h, mapGet_erase_ne d m i j h]

/-- The same when what an unlisted key reads as differs from key to key, as among registers. -/
theorem mapGet_mapSet_ne' {α : Type} [DecidableEq α] (d e : α) (m : NMap α) (i j : Nat) (v : α) (h : i ≠ j) :
    mapGet e (mapSet d m i v) j = mapGet e m j := by
  unfold mapSet
  split
  · exact mapGet_erase_ne e m i j h
  · rw [mapGet_insert_ne e _ i j v h, mapGet_erase_ne e m i j h]

/-! ### The canonical form -/

theorem mapWfFrom_mono {α : Type} [DecidableEq α] (d : α) (a b : Nat) (m : NMap α) (h : a ≤ b) (w : mapWfFrom d b m = true) : mapWfFrom d a m = true := by
  cases m with
  | nil => rfl
  | cons p r =>
    simp only [mapWfFrom, Bool.and_eq_true, decide_eq_true_eq] at w ⊢
    exact ⟨⟨Nat.le_trans h w.1.1, w.1.2⟩, w.2⟩

theorem mapWfFrom_filter {α : Type} [DecidableEq α] (d : α) (b : Nat) (m : NMap α) (f : Nat × α → Bool) (w : mapWfFrom d b m = true) :
    mapWfFrom d b (m.filter f) = true := by
  induction m generalizing b with
  | nil => rfl
  | cons p r ih =>
    simp only [mapWfFrom, Bool.and_eq_true, decide_eq_true_eq] at w
    rw [List.filter_cons]
    split
    · simp only [mapWfFrom, Bool.and_eq_true, decide_eq_true_eq]
      exact ⟨w.1, ih _ w.2⟩
    · exact ih b (mapWfFrom_mono d b (p.1 + 1) r (by omega) w.2)

theorem mapWfFrom_insert {α : Type} [DecidableEq α] (d : α) (b : Nat) (m : NMap α) (i : Nat) (v : α) (hb : b ≤ i) (hv : v ≠ d)
    (h : ∀ p ∈ m, p.1 ≠ i) (w : mapWfFrom d b m = true) : mapWfFrom d b (mapInsert m i v) = true := by
  induction m generalizing b with
  | nil => simp [mapInsert, mapWfFrom, hb, hv]
  | cons p r ih =>
    have hp : p.1 ≠ i := h p (by simp)
    simp only [mapWfFrom, Bool.and_eq_true, decide_eq_true_eq] at w
    simp only [mapInsert]
    split
    · rename_i hlt
      simp only [mapWfFrom, Bool.and_eq_true, decide_eq_true_eq]
      exact ⟨⟨hb, hv⟩, ⟨by omega, w.1.2⟩, w.2⟩
    · simp only [mapWfFrom, Bool.and_eq_true, decide_eq_true_eq]
      exact ⟨w.1, ih (p.1 + 1) (by omega) (fun q hq => h q (by simp [hq])) w.2⟩

/-- Erasing a key, or a range of them, keeps the canonical form. -/
theorem mapWf_erase {α : Type} [DecidableEq α] (d : α) (m : NMap α) (i : Nat) (w : mapWf d m = true) : mapWf d (mapErase m i) = true :=
  mapWfFrom_filter d 0 m _ w

theorem mapWf_clear {α : Type} [DecidableEq α] (d : α) (m : NMap α) (lo n : Nat) (w : mapWf d m = true) : mapWf d (mapClear m lo n) = true :=
  mapWfFrom_filter d 0 m _ w

/-- Setting a key keeps the canonical form. -/
theorem mapWf_set {α : Type} [DecidableEq α] (d : α) (m : NMap α) (i : Nat) (v : α) (w : mapWf d m = true) : mapWf d (mapSet d m i v) = true := by
  unfold mapSet
  split
  · exact mapWf_erase d m i w
  · rename_i h
    exact mapWfFrom_insert d 0 _ i v (Nat.zero_le _) h (mapErase_absent m i) (mapWf_erase d m i w)

/-- Writing bytes keeps a byte memory in its canonical form. -/
theorem memWrite_wf (m : List Host.Cell) (a : Nat) (l : List Byte) (w : Memory.wf m = true) : Memory.wf (memWrite m a l) = true := by
  induction l generalizing m a with
  | nil => exact w
  | cons b r ih => exact ih _ _ (mapWf_set 0 m a b w)

/-- Erasing a span keeps it too. -/
theorem memClear_wf (m : List Host.Cell) (a n : Nat) (w : Memory.wf m = true) : Memory.wf (mapClear m a n) = true := mapWf_clear 0 m a n w

/-! ### Byte memories -/

/-- Bytes outside the span written read as before. -/
theorem memByte_memWrite_out (m : List Host.Cell) (a : Nat) (l : List Byte) (x : Nat) (h : x < a ∨ a + l.length ≤ x) :
    memByte (memWrite m a l) x = memByte m x := by
  induction l generalizing m a with
  | nil => rfl
  | cons b r ih =>
    simp only [List.length_cons] at h
    rw [memWrite, ih (mapSet 0 m a b) (a + 1) (by omega)]
    exact mapGet_mapSet_ne 0 m a x b (by omega)

/-- Bytes of the span written read as written. -/
theorem memByte_memWrite_in (m : List Host.Cell) (a : Nat) (l : List Byte) (i : Nat) (h : i < l.length) :
    memByte (memWrite m a l) (a + i) = l[i] := by
  induction l generalizing m a i with
  | nil => exact absurd h (Nat.not_lt_zero _)
  | cons b r ih =>
    cases i with
    | zero =>
      rw [memWrite, memByte_memWrite_out _ _ _ _ (by omega)]
      exact mapGet_mapSet_same 0 m a b
    | succ i =>
      have := ih (mapSet 0 m a b) (a + 1) i (by simpa using h)
      rw [memWrite, show a + (i + 1) = a + 1 + i by omega, this]
      rfl

/-! ### Registers -/

@[simp] theorem State.reg_setReg (s : State) (o : Nat) (v : Word) : (s.setReg o v).reg o = v := mapGet_mapSet_same _ _ _ _

theorem State.reg_setReg_ne (s : State) (o p : Nat) (v : Word) (h : o ≠ p) : (s.setReg o v).reg p = s.reg p := mapGet_mapSet_ne' _ _ _ _ _ _ h

theorem State.rf_setReg_ne (s : State) (o p hi lo : Nat) (v : Word) (h : o ≠ p) : (s.setReg o v).rf p hi lo = s.rf p hi lo := by
  simp [State.rf, State.reg_setReg_ne s o p v h]

theorem State.rb_setReg_ne (s : State) (o p i : Nat) (v : Word) (h : o ≠ p) : (s.setReg o v).rb p i = s.rb p i := by
  simp [State.rb, State.reg_setReg_ne s o p v h]

theorem State.reg_setRf (s : State) (o hi lo v : Nat) : (s.setRf o hi lo v).reg o = putFld (s.reg o) hi lo v := State.reg_setReg _ _ _

theorem State.reg_setRf_ne (s : State) (o p hi lo v : Nat) (h : o ≠ p) : (s.setRf o hi lo v).reg p = s.reg p := State.reg_setReg_ne s o p _ h

/-! ### Bits of a word -/

theorem putBits_eq (w hi lo v : Nat) :
    putBits w hi lo v = 2 ^ lo * (2 ^ (hi + 1 - lo) * (w / 2 ^ lo / 2 ^ (hi + 1 - lo)) + v % 2 ^ (hi + 1 - lo)) + w % 2 ^ lo := by
  unfold putBits bits
  simp only [Nat.shiftLeft_eq, Nat.shiftRight_eq_div_pow]
  generalize 2 ^ (hi + 1 - lo) = n
  have h1 := Nat.div_add_mod w (2 ^ lo)
  have h2 := Nat.div_add_mod (w / 2 ^ lo) n
  generalize w / 2 ^ lo = q at *
  generalize 2 ^ lo = p at *
  generalize q / n = a at *
  generalize q % n = b at *
  generalize w % p = c at *
  subst h1
  subst h2
  rw [Nat.mul_add, Nat.mul_add, Nat.mul_comm b p, Nat.mul_comm (v % n) p]
  omega

/-- The bits of a number with a field replaced. -/
theorem testBit_putBits (w hi lo v i : Nat) (h : lo ≤ hi) :
    (putBits w hi lo v).testBit i = if lo ≤ i ∧ i ≤ hi then v.testBit (i - lo) else w.testBit i := by
  rw [putBits_eq, Nat.testBit_two_pow_mul_add _ (Nat.mod_lt _ (Nat.two_pow_pos _)), Nat.testBit_two_pow_mul_add _ (Nat.mod_lt _ (Nat.two_pow_pos _))]
  by_cases h1 : i < lo
  · simp [h1, show ¬(lo ≤ i ∧ i ≤ hi) by omega, Nat.testBit_mod_two_pow]
  · by_cases h2 : i ≤ hi
    · simp [h1, show lo ≤ i ∧ i ≤ hi by omega, show i - lo < hi + 1 - lo by omega, Nat.testBit_mod_two_pow]
    · simp only [h1, if_false, show ¬(lo ≤ i ∧ i ≤ hi) by omega, show ¬(i - lo < hi + 1 - lo) by omega]
      rw [Nat.div_div_eq_div_mul, ← Nat.pow_add, Nat.testBit_div_two_pow]
      congr 1
      omega

theorem putBits_lt (w hi lo v : Nat) (h : lo ≤ hi) (hh : hi < 32) (hw : w < 2 ^ 32) : putBits w hi lo v < 2 ^ 32 := by
  apply Nat.lt_pow_two_of_testBit
  intro i hi32
  rw [testBit_putBits _ _ _ _ _ h]
  simp only [show ¬(lo ≤ i ∧ i ≤ hi) by omega, if_false]
  exact Nat.testBit_lt_two_pow (Nat.lt_of_lt_of_le hw (Nat.pow_le_pow_right (by omega) hi32))

theorem toNat_putFld (w : Word) (hi lo v : Nat) (h : lo ≤ hi) (hh : hi < 32) : (putFld w hi lo v).toNat = putBits w.toNat hi lo v := by
  unfold putFld
  rw [BitVec.toNat_ofNat]
  exact Nat.mod_eq_of_lt (putBits_lt _ _ _ _ h hh w.isLt)

theorem testBit_bits (w hi lo i : Nat) : (bits w hi lo).testBit i = (decide (i < hi + 1 - lo) && w.testBit (lo + i)) := by
  unfold bits
  rw [Nat.testBit_mod_two_pow, Nat.testBit_shiftRight]

/-- A field reads as it was last set, within its width. -/
theorem fld_putFld (w : Word) (hi lo v : Nat) (h : lo ≤ hi) (hh : hi < 32) : fld (putFld w hi lo v) hi lo = v % 2 ^ (hi + 1 - lo) := by
  apply Nat.eq_of_testBit_eq
  intro i
  rw [fld, testBit_bits, toNat_putFld _ _ _ _ h hh, testBit_putBits _ _ _ _ _ h, Nat.testBit_mod_two_pow]
  by_cases hi1 : i < hi + 1 - lo
  · simp [hi1, show lo ≤ lo + i ∧ lo + i ≤ hi by omega]
  · simp [hi1]

/-- Setting a field leaves every field apart from it as it was. -/
theorem fld_putFld_apart (w : Word) (hi lo v a b : Nat) (h : lo ≤ hi) (hh : hi < 32) (d : a < lo ∨ hi < b) : fld (putFld w hi lo v) a b = fld w a b := by
  apply Nat.eq_of_testBit_eq
  intro i
  rw [fld, fld, testBit_bits, testBit_bits, toNat_putFld _ _ _ _ h hh, testBit_putBits _ _ _ _ _ h]
  by_cases hi1 : i < a + 1 - b
  · simp [hi1, show ¬(lo ≤ b + i ∧ b + i ≤ hi) by omega]
  · simp [hi1]

theorem bitOf_putFld (w : Word) (hi lo v i : Nat) (h : lo ≤ hi) (hh : hi < 32) :
    bitOf (putFld w hi lo v) i = if lo ≤ i ∧ i ≤ hi then v.testBit (i - lo) else bitOf w i := by
  rw [bitOf, toNat_putFld _ _ _ _ h hh, testBit_putBits _ _ _ _ _ h, bitOf]

theorem State.rf_setRf (s : State) (o hi lo v : Nat) (h : lo ≤ hi) (hh : hi < 32) : (s.setRf o hi lo v).rf o hi lo = v % 2 ^ (hi + 1 - lo) := by
  rw [State.rf, State.reg_setRf, fld_putFld _ _ _ _ h hh]

theorem State.rf_setRf_apart (s : State) (o hi lo v a b : Nat) (h : lo ≤ hi) (hh : hi < 32) (d : a < lo ∨ hi < b) :
    (s.setRf o hi lo v).rf o a b = s.rf o a b := by
  rw [State.rf, State.reg_setRf, fld_putFld_apart _ _ _ _ _ _ h hh d, State.rf]

theorem State.rf_setRf_ne (s : State) (o p hi lo v a b : Nat) (h : o ≠ p) : (s.setRf o hi lo v).rf p a b = s.rf p a b := State.rf_setReg_ne s o p a b _ h

theorem State.rb_setRf (s : State) (o hi lo v i : Nat) (h : lo ≤ hi) (hh : hi < 32) :
    (s.setRf o hi lo v).rb o i = if lo ≤ i ∧ i ≤ hi then v.testBit (i - lo) else s.rb o i := by
  rw [State.rb, State.reg_setRf, bitOf_putFld _ _ _ _ _ h hh, State.rb]

theorem State.rb_setRf_ne (s : State) (o p hi lo v i : Nat) (h : o ≠ p) : (s.setRf o hi lo v).rb p i = s.rb p i := State.rb_setReg_ne s o p i _ h

theorem bits_lt (w hi lo : Nat) : bits w hi lo < 2 ^ (hi + 1 - lo) := Nat.mod_lt _ (Nat.two_pow_pos _)

/-- Readings of registers depend on the register file alone. -/
theorem State.reg_congr {s t : State} (h : s.regs = t.regs) (o : Nat) : s.reg o = t.reg o := by unfold State.reg; rw [h]
theorem State.rf_congr {s t : State} (h : s.regs = t.regs) (o hi lo : Nat) : s.rf o hi lo = t.rf o hi lo := by unfold State.rf; rw [State.reg_congr h]
theorem State.rb_congr {s t : State} (h : s.regs = t.regs) (o i : Nat) : s.rb o i = t.rb o i := by unfold State.rb; rw [State.reg_congr h]

/-! ### The per-unit records -/

@[simp] theorem State.port_setPort (s : State) (p : Nat) (v : PortSt) : (s.setPort p v).port p = v := mapGet_mapSet_same _ _ _ _
theorem State.port_setPort_ne (s : State) (p q : Nat) (v : PortSt) (h : p ≠ q) : (s.setPort p v).port q = s.port q := mapGet_mapSet_ne _ _ _ _ _ h
@[simp] theorem State.slice_setSlice (s : State) (i : Nat) (v : SliceSt) : (s.setSlice i v).slice i = v := mapGet_mapSet_same _ _ _ _
theorem State.slice_setSlice_ne (s : State) (i j : Nat) (v : SliceSt) (h : i ≠ j) : (s.setSlice i v).slice j = s.slice j := mapGet_mapSet_ne _ _ _ _ _ h
@[simp] theorem State.station_setStation (s : State) (i : Nat) (v : StationSt) : (s.setStation i v).station i = v := mapGet_mapSet_same _ _ _ _
theorem State.station_setStation_ne (s : State) (i j : Nat) (v : StationSt) (h : i ≠ j) : (s.setStation i v).station j = s.station j := mapGet_mapSet_ne _ _ _ _ _ h
@[simp] theorem State.frame_setFrame (s : State) (c : Nat) (v : Frame) : (s.setFrame c v).frame c = v := mapGet_mapSet_same _ _ _ _
theorem State.frame_setFrame_ne (s : State) (c e : Nat) (v : Frame) (h : c ≠ e) : (s.setFrame c v).frame e = s.frame e := mapGet_mapSet_ne _ _ _ _ _ h
@[simp] theorem State.hatch_setHatch (s : State) (h : Nat) (v : Hatch) : (s.setHatch h v).hatch h = v := mapGet_mapSet_same _ _ _ _
theorem State.hatch_setHatch_ne (s : State) (h k : Nat) (v : Hatch) (n : h ≠ k) : (s.setHatch h v).hatch k = s.hatch k := mapGet_mapSet_ne _ _ _ _ _ n
@[simp] theorem State.eng_setEng (s : State) (e : Nat) (v : Engine) : (s.setEng e v).eng e = v := mapGet_mapSet_same _ _ _ _
theorem State.eng_setEng_ne (s : State) (e f : Nat) (v : Engine) (h : e ≠ f) : (s.setEng e v).eng f = s.eng f := mapGet_mapSet_ne _ _ _ _ _ h
@[simp] theorem State.shm_setShm (s : State) (i : Nat) (v : Shared) : (s.setShm i v).shm i = v := mapGet_mapSet_same _ _ _ _
@[simp] theorem State.thr_setThr (s : State) (m : Nat) (v : Thread) : (s.setThr m v).thr m = v := by
  unfold State.thr State.setThr State.withEng
  rw [State.eng_setEng]
  exact mapGet_mapSet_same _ _ _ _
@[simp] theorem State.thr_withThr (s : State) (m : Nat) (f : Thread → Thread) : (s.withThr m f).thr m = f (s.thr m) := State.thr_setThr _ _ _

end Sys2Proof.Machine
end

