-- ==== Sys2Proof/Laws/Access.lean ====
section
/-! SUPPORT. What the shared operations of a command can do: an event that may occur or not, an access to a register, and a write that has a row of its own. -/

namespace Sys2Proof.Machine

/-- An event whose conditions hold happens. -/
@[simp] theorem occur_true (s t : State) : occur true s t = .next t := rfl
/-- One whose conditions fail leaves the state. -/
@[simp] theorem occur_false (s t : State) : occur false s t = .next s := rfl

theorem occur_of (ok : Bool) (s t : State) (h : ok = true) : occur ok s t = .next t := by rw [h]; rfl

/-- All an event can do. -/
theorem occur_cases (ok : Bool) (s t : State) : (ok = true ∧ occur ok s t = .next t) ∨ (ok = false ∧ occur ok s t = .next s) := by
  cases ok
  · exact Or.inr ⟨rfl, rfl⟩
  · exact Or.inl ⟨rfl, rfl⟩

/-- An access that R479 and R507 let through is performed. -/
theorem State.access_of (s : State) (m ofs : Nat) (act : State → State) (hf : funcMay (funcOf m) ofs = true) (he : s.mode = 0 → entryMay ofs = true) :
    s.access m ofs act = act s := by
  unfold State.access
  simp only [hf, Bool.not_true, Bool.false_eq_true, if_false]
  split
  · rename_i h
    simp [he h.1] at h
  · rfl

/-- All an access can do: it is refused to the function and counted, ignored in ENTRY, or performed. -/
theorem State.access_cases (s : State) (m ofs : Nat) (act : State → State) :
    (funcMay (funcOf m) ofs = false ∧ s.access m ofs act = s.count Reg.tenDenyCnt) ∨
    (funcMay (funcOf m) ofs = true ∧ s.mode = 0 ∧ entryMay ofs = false ∧ s.access m ofs act = s) ∨
    (funcMay (funcOf m) ofs = true ∧ (s.mode = 0 → entryMay ofs = true) ∧ s.access m ofs act = act s) := by
  by_cases hf : funcMay (funcOf m) ofs = true
  · by_cases he : s.mode = 0 ∧ entryMay ofs = false
    · refine Or.inr (Or.inl ⟨hf, he.1, he.2, ?_⟩)
      simp [State.access, hf, he.1, he.2]
    · have he' : s.mode = 0 → entryMay ofs = true := fun h => by
        cases h1 : entryMay ofs
        · exact absurd ⟨h, h1⟩ he
        · rfl
      exact Or.inr (Or.inr ⟨hf, he', State.access_of s m ofs act hf he'⟩)
  · refine Or.inl ⟨by simpa using hf, ?_⟩
    simp [State.access, hf]

/-- An access that nothing stands in the way of is made at once. -/
theorem State.issue_of (s : State) (m ofs : Nat) (wr : Bool) (v : Word) (act : State → State) (h : s.mustWait ofs wr v = false) :
    s.issue m ofs wr v act = act s := by
  simp [State.issue, h]

/-- One that must wait is put in front of its block and does nothing else yet. -/
theorem State.issue_waits (s : State) (m ofs : Nat) (wr : Bool) (v : Word) (act : State → State) (h : s.mustWait ofs wr v = true) :
    s.issue m ofs wr v act = s.waitAt m ofs wr v := by
  simp [State.issue, h]

/-- A write that has a row of its own and is not refused takes its rw fields and has the row's effect. -/
theorem State.command_of (s : State) (m ofs : Nat) (v : Word) (refused : State → Bool) (act : State → State) (d : RegDesc)
    (hp : s.mustWait ofs true v = false) (hf : funcMay (funcOf m) ofs = true) (he : s.mode = 0 → entryMay ofs = true) (hd : findReg ofs = some d) (hr : inRanges d v = true)
    (hn : refused s = false) : s.command m ofs v refused act = act (s.setReg ofs (writeFields d (s.reg ofs) v)) := by
  unfold State.command
  rw [State.issue_of s m ofs _ _ _ hp, State.access_of s m ofs _ hf he]
  simp [hd, hr, hn]

/-- A refused one sets the refusal bit of its block and nothing else. -/
theorem State.command_refused (s : State) (m ofs : Nat) (v : Word) (refused : State → Bool) (act : State → State) (d : RegDesc)
    (hp : s.mustWait ofs true v = false) (hf : funcMay (funcOf m) ofs = true) (he : s.mode = 0 → entryMay ofs = true) (hd : findReg ofs = some d)
    (hn : inRanges d v = false ∨ refused s = true) : s.command m ofs v refused act = s.reject ofs := by
  unfold State.command
  rw [State.issue_of s m ofs _ _ _ hp, State.access_of s m ofs _ hf he]
  rcases hn with h | h <;> simp [hd, h]

end Sys2Proof.Machine
end

