-- ==== Sys2Proof/Laws/Keep.lean ====
section
/-! SUPPORT. What no operation of a command touches: the queue of waiting commands and the OTP fuses. One lemma for each operation that answers a
state; the meanings of the commands (exec…) have none here. `Keeps s t` says both at once and is the form to prove of a composition: a goal
about `(f s).pending` where f is written with `let` and a condition on numbers makes the kernel evaluate the condition. -/

namespace Sys2Proof.Machine

@[simp] theorem foldl_keep {α : Type} (l : List α) (f : State → α → State) (s : State)
    (h : ∀ t a, (f t a).pending = t.pending ∧ (f t a).otp = t.otp) : (l.foldl f s).pending = s.pending ∧ (l.foldl f s).otp = s.otp := by
  induction l generalizing s with
  | nil => exact ⟨rfl, rfl⟩
  | cons a r ih => simp only [List.foldl_cons]; exact ⟨(ih _).1.trans (h s a).1, (ih _).2.trans (h s a).2⟩
@[simp] theorem foldl_fst_keep {α β : Type} (l : List α) (f : State × β → α → State × β) (p : State × β)
    (h : ∀ t a, (f t a).1.pending = t.1.pending ∧ (f t a).1.otp = t.1.otp) : (l.foldl f p).1.pending = p.1.pending ∧ (l.foldl f p).1.otp = p.1.otp := by
  induction l generalizing p with
  | nil => exact ⟨rfl, rfl⟩
  | cons a r ih => simp only [List.foldl_cons]; exact ⟨(ih _).1.trans (h p a).1, (ih _).2.trans (h p a).2⟩
theorem fold_p {α : Type} {l : List α} {f : State → α → State} {s0 s : State} (h0 : s0.pending = s.pending) (h : ∀ t a, (f t a).pending = t.pending) : (l.foldl f s0).pending = s.pending := by
  induction l generalizing s0 with
  | nil => exact h0
  | cons a r ih => exact ih ((h s0 a).trans h0)
theorem ffold_p {α β : Type} {l : List α} {f : State × β → α → State × β} {s0 : State × β} {s : State} (h0 : s0.1.pending = s.pending) (h : ∀ t a, (f t a).1.pending = t.1.pending) : (l.foldl f s0).1.pending = s.pending := by
  induction l generalizing s0 with
  | nil => exact h0
  | cons a r ih => exact ih ((h s0 a).trans h0)
theorem fold_o {α : Type} {l : List α} {f : State → α → State} {s0 s : State} (h0 : s0.otp = s.otp) (h : ∀ t a, (f t a).otp = t.otp) : (l.foldl f s0).otp = s.otp := by
  induction l generalizing s0 with
  | nil => exact h0
  | cons a r ih => exact ih ((h s0 a).trans h0)
theorem ffold_o {α β : Type} {l : List α} {f : State × β → α → State × β} {s0 : State × β} {s : State} (h0 : s0.1.otp = s.otp) (h : ∀ t a, (f t a).1.otp = t.1.otp) : (l.foldl f s0).1.otp = s.otp := by
  induction l generalizing s0 with
  | nil => exact h0
  | cons a r ih => exact ih ((h s0 a).trans h0)
def Keeps (s t : State) : Prop := t.pending = s.pending ∧ t.otp = s.otp
theorem Keeps.trans {s t u : State} (h : Keeps s t) (g : Keeps t u) : Keeps s u := ⟨g.1.trans h.1, g.2.trans h.2⟩
theorem Keeps.ite {c : Prop} [Decidable c] {s a b : State} (ha : Keeps s a) (hb : Keeps s b) : Keeps s (if c then a else b) := by split <;> assumption
theorem Keeps.refl (s : State) : Keeps s s := ⟨rfl, rfl⟩
theorem Keeps.fold {α : Type} {l : List α} {f : State → α → State} {s s0 : State} (h0 : Keeps s s0) (h : ∀ t a, Keeps t (f t a)) : Keeps s (l.foldl f s0) := by
  induction l generalizing s0 with
  | nil => exact h0
  | cons a r ih => exact ih (h0.trans (h s0 a))
@[simp] theorem ite_p (c : Prop) [Decidable c] (a b : State) : (if c then a else b).pending = if c then a.pending else b.pending := apply_ite State.pending c a b
@[simp] theorem ite_o (c : Prop) [Decidable c] (a b : State) : (if c then a else b).otp = if c then a.otp else b.otp := apply_ite State.otp c a b
@[simp] theorem ite_f {α : Type} (c : Prop) [Decidable c] (a b : State × α) : (if c then a else b).1 = if c then a.1 else b.1 := apply_ite Prod.fst c a b
theorem fst_of {α : Type} {p : State × α} {a : State} {b : α} (h : p = (a, b)) : a = p.1 := by rw [h]

/-! ### Ops -/

@[simp] theorem advance_keep (s : State) (dt : Nat) :
    (advance s dt).pending = s.pending ∧ (advance s dt).otp = s.otp := by
  simp [advance]
@[simp] theorem State.setReg_keep (s : State) (ofs : Nat) (v : Word) :
    (State.setReg s ofs v).pending = s.pending ∧ (State.setReg s ofs v).otp = s.otp := by
  simp [State.setReg]
@[simp] theorem State.setRf_keep (s : State) (ofs hi lo v : Nat) :
    (State.setRf s ofs hi lo v).pending = s.pending ∧ (State.setRf s ofs hi lo v).otp = s.otp := by
  simp [State.setRf]
@[simp] theorem State.drawn_keep (s : State) :
    (State.drawn s).pending = s.pending ∧ (State.drawn s).otp = s.otp := by
  simp [State.drawn]
@[simp] theorem State.setPort_keep (s : State) (p : Nat) (v : PortSt) :
    (State.setPort s p v).pending = s.pending ∧ (State.setPort s p v).otp = s.otp := by
  simp [State.setPort]
@[simp] theorem State.setSlice_keep (s : State) (i : Nat) (v : SliceSt) :
    (State.setSlice s i v).pending = s.pending ∧ (State.setSlice s i v).otp = s.otp := by
  simp [State.setSlice]
@[simp] theorem State.setStation_keep (s : State) (i : Nat) (v : StationSt) :
    (State.setStation s i v).pending = s.pending ∧ (State.setStation s i v).otp = s.otp := by
  simp [State.setStation]
@[simp] theorem State.setFrame_keep (s : State) (c : Nat) (v : Frame) :
    (State.setFrame s c v).pending = s.pending ∧ (State.setFrame s c v).otp = s.otp := by
  simp [State.setFrame]
@[simp] theorem State.setHatch_keep (s : State) (h : Nat) (v : Hatch) :
    (State.setHatch s h v).pending = s.pending ∧ (State.setHatch s h v).otp = s.otp := by
  simp [State.setHatch]
@[simp] theorem restep_keep (s : State) (i : Nat) :
    (restep s i).pending = s.pending ∧ (restep s i).otp = s.otp := by
  unfold restep
  (repeat' split) <;> simp
@[simp] theorem State.waitNoted_keep (s : State) (h : Nat) :
    (State.waitNoted s h).pending = s.pending ∧ (State.waitNoted s h).otp = s.otp := by
  simp [State.waitNoted]
@[simp] theorem State.waitBegins_keep (s : State) (h : Nat) :
    (State.waitBegins s h).pending = s.pending ∧ (State.waitBegins s h).otp = s.otp := by
  simp [State.waitBegins]
@[simp] theorem State.offer_keep (s : State) (h : Nat) (e : HEntry) :
    (State.offer s h e).pending = s.pending ∧ (State.offer s h e).otp = s.otp := by
  simp [State.offer]
@[simp] theorem State.passed_keep (s : State) (h n : Nat) :
    (State.passed s h n).pending = s.pending ∧ (State.passed s h n).otp = s.otp := by
  simp [State.passed]
@[simp] theorem State.raise_keep (s : State) (code island inst : Nat) (a0 a1 a2 : Nat) :
    (State.raise s code island inst a0 a1 a2).pending = s.pending ∧ (State.raise s code island inst a0 a1 a2).otp = s.otp := by
  simp [State.raise]
@[simp] theorem State.withLife_keep (s : State) (f : LifeSt → LifeSt) :
    (State.withLife s f).pending = s.pending ∧ (State.withLife s f).otp = s.otp := by
  simp [State.withLife]
@[simp] theorem State.count_keep (s : State) (ofs : Nat) (n : Nat) :
    (State.count s ofs n).pending = s.pending ∧ (State.count s ofs n).otp = s.otp := by
  simp [State.count]
@[simp] theorem State.stat_keep (s : State) (base i : Nat) (n : Nat) :
    (State.stat s base i n).pending = s.pending ∧ (State.stat s base i n).otp = s.otp := by
  simp [State.stat]
@[simp] theorem State.stray_keep (s : State) (m ofs : Nat) (wr : Bool) :
    (State.stray s m ofs wr).pending = s.pending ∧ (State.stray s m ofs wr).otp = s.otp := by
  simp [State.stray]
@[simp] theorem State.access_keep (s : State) (m ofs : Nat) (act : State → State) (h_act : ∀ x0, (act x0).pending = x0.pending ∧ (act x0).otp = x0.otp) :
    (State.access s m ofs act).pending = s.pending ∧ (State.access s m ofs act).otp = s.otp := by
  unfold State.access
  (try dsimp only)
  repeat' (first | (simp [*]; done) | intro _ | apply And.intro | apply fold_p | apply fold_o | apply ffold_p | apply ffold_o | simp | (split <;> (try (rename_i hq; have hh := fst_of hq; subst hh; clear hq))))
@[simp] theorem State.waitAt_keep (s : State) (m ofs : Nat) (wr : Bool) (v : Word) :
    (State.waitAt s m ofs wr v).pending = s.pending ∧ (State.waitAt s m ofs wr v).otp = s.otp := by
  simp [State.waitAt]
@[simp] theorem State.issue_keep (s : State) (m ofs : Nat) (wr : Bool) (v : Word) (act : State → State) (h_act : ∀ x0, (act x0).pending = x0.pending ∧ (act x0).otp = x0.otp) :
    (State.issue s m ofs wr v act).pending = s.pending ∧ (State.issue s m ofs wr v act).otp = s.otp := by
  unfold State.issue
  (try dsimp only)
  repeat' (first | (simp [*]; done) | intro _ | apply And.intro | apply fold_p | apply fold_o | apply ffold_p | apply ffold_o | simp | (split <;> (try (rename_i hq; have hh := fst_of hq; subst hh; clear hq))))
@[simp] theorem State.answer_keep (s : State) (m : Nat) (v : Word) :
    (State.answer s m v).pending = s.pending ∧ (State.answer s m v).otp = s.otp := by
  simp [State.answer]
@[simp] theorem State.answerPoisoned_keep (s : State) (m : Nat) :
    (State.answerPoisoned s m).pending = s.pending ∧ (State.answerPoisoned s m).otp = s.otp := by
  simp [State.answerPoisoned]
@[simp] theorem State.reject_keep (s : State) (ofs : Nat) :
    (State.reject s ofs).pending = s.pending ∧ (State.reject s ofs).otp = s.otp := by
  simp [State.reject]
@[simp] theorem State.takeFields_keep (s : State) (ofs : Nat) (v : Word) :
    (State.takeFields s ofs v).pending = s.pending ∧ (State.takeFields s ofs v).otp = s.otp := by
  unfold State.takeFields
  (repeat' split) <;> simp
@[simp] theorem State.holdLo_keep (s : State) (m lo : Nat) (v : Word) :
    (State.holdLo s m lo v).pending = s.pending ∧ (State.holdLo s m lo v).otp = s.otp := by
  simp [State.holdLo]
@[simp] theorem State.takeLo_keep (s : State) (m lo : Nat) :
    (State.takeLo s m lo).pending = s.pending ∧ (State.takeLo s m lo).otp = s.otp := by
  unfold State.takeLo
  (repeat' split) <;> simp
@[simp] theorem State.command_keep (s : State) (m ofs : Nat) (v : Word) (refused : State → Bool) (act : State → State) (h_act : ∀ x0, (act x0).pending = x0.pending ∧ (act x0).otp = x0.otp) :
    (State.command s m ofs v refused act).pending = s.pending ∧ (State.command s m ofs v refused act).otp = s.otp := by
  unfold State.command
  (try dsimp only)
  repeat' (first | (simp [*]; done) | intro _ | apply And.intro | apply fold_p | apply fold_o | apply ffold_p | apply ffold_o | simp | (split <;> (try (rename_i hq; have hh := fst_of hq; subst hh; clear hq))))

/-! ### Hatches -/

@[simp] theorem State.waitCounted_keep (s : State) (h : Nat) :
    (State.waitCounted s h).pending = s.pending ∧ (State.waitCounted s h).otp = s.otp := by
  simp [State.waitCounted]
@[simp] theorem State.waitEnds_keep (s : State) (h : Nat) :
    (State.waitEnds s h).pending = s.pending ∧ (State.waitEnds s h).otp = s.otp := by
  simp [State.waitEnds]
@[simp] theorem noteLatency_keep (s : State) (p since : Nat) :
    (noteLatency s p since).pending = s.pending ∧ (noteLatency s p since).otp = s.otp := by
  simp [noteLatency]
@[simp] theorem State.rspEntered_keep (s : State) (h : Nat) (e : HEntry) :
    (State.rspEntered s h e).pending = s.pending ∧ (State.rspEntered s h e).otp = s.otp := by
  simp [State.rspEntered]
@[simp] theorem State.sendHeld_keep (s : State) (h i : Nat) :
    (State.sendHeld s h i).pending = s.pending ∧ (State.sendHeld s h i).otp = s.otp := by
  unfold State.sendHeld
  dsimp only
  (repeat' split) <;> simp
@[simp] theorem State.offerNew_keep (s : State) (h : Nat) (e : HEntry) :
    (State.offerNew s h e).pending = s.pending ∧ (State.offerNew s h e).otp = s.otp := by
  unfold State.offerNew
  (repeat' split) <;> simp
@[simp] theorem hatchSend_keep (h i : Nat) (offer : Option HEntry) (s : State) :
    (hatchSend h i offer s).pending = s.pending ∧ (hatchSend h i offer s).otp = s.otp := by
  unfold hatchSend
  (repeat' split) <;> simp
@[simp] theorem snapshotHatch_keep (s : State) (h : Nat) :
    (snapshotHatch s h).pending = s.pending ∧ (snapshotHatch s h).otp = s.otp := by
  simp [snapshotHatch]

/-! ### Modes -/

@[simp] theorem State.setMode_keep (s : State) (m : Nat) :
    (State.setMode s m).pending = s.pending ∧ (State.setMode s m).otp = s.otp := by
  simp [State.setMode]
@[simp] theorem State.causeUp_keep (s : State) (n : Nat) :
    (State.causeUp s n).pending = s.pending ∧ (State.causeUp s n).otp = s.otp := by
  simp [State.causeUp]
@[simp] theorem State.causeDown_keep (s : State) (n : Nat) :
    (State.causeDown s n).pending = s.pending ∧ (State.causeDown s n).otp = s.otp := by
  simp [State.causeDown]
@[simp] theorem State.serviceStart_keep (s : State) :
    (State.serviceStart s).pending = s.pending ∧ (State.serviceStart s).otp = s.otp := by
  simp [State.serviceStart]

/-! ### Time -/

@[simp] theorem stepNow_keep (s : State) (off : Int) :
    (stepNow s off).pending = s.pending ∧ (stepNow s off).otp = s.otp := by
  simp [stepNow]
@[simp] theorem putDepth_keep (s : State) :
    (putDepth s).pending = s.pending ∧ (putDepth s).otp = s.otp := by
  simp [putDepth]
@[simp] theorem sourcesChanged_keep (s : State) :
    (sourcesChanged s).pending = s.pending ∧ (sourcesChanged s).otp = s.otp := by
  simp [sourcesChanged]
@[simp] theorem steer_keep (s : State) (off : Int) :
    (steer s off).pending = s.pending ∧ (steer s off).otp = s.otp := by
  simp [steer]
@[simp] theorem lockSource_keep (s : State) (sec : Bool) (off : Int) :
    (lockSource s sec off).pending = s.pending ∧ (lockSource s sec off).otp = s.otp := by
  simp [lockSource]
@[simp] theorem loseSource_keep (s : State) (sec : Bool) :
    (loseSource s sec).pending = s.pending ∧ (loseSource s sec).otp = s.otp := by
  simp [loseSource]
@[simp] theorem courTimeCheck_keep (s : State) :
    (courTimeCheck s).pending = s.pending ∧ (courTimeCheck s).otp = s.otp := by
  simp [courTimeCheck]
@[simp] theorem reselect_keep (s : State) (old : Word) :
    (reselect s old).pending = s.pending ∧ (reselect s old).otp = s.otp := by
  simp [reselect]
@[simp] theorem timeInTo_keep (s : State) (t sec : Nat) :
    (timeInTo s t sec).pending = s.pending ∧ (timeInTo s t sec).otp = s.otp := by
  simp [timeInTo]
@[simp] theorem validEdge_keep (s : State) (at_ t sec : Nat) :
    (validEdge s at_ t sec).pending = s.pending ∧ (validEdge s at_ t sec).otp = s.otp := by
  simp [validEdge]
@[simp] theorem lockedEdge_keep (s : State) (at_ t : Nat) :
    (lockedEdge s at_ t).pending = s.pending ∧ (lockedEdge s at_ t).otp = s.otp := by
  simp [lockedEdge]
@[simp] theorem freeEdge_keep (s : State) (at_ t : Nat) :
    (freeEdge s at_ t).pending = s.pending ∧ (freeEdge s at_ t).otp = s.otp := by
  simp [freeEdge]
@[simp] theorem takeWord_keep (s : State) (i : Nat) :
    (takeWord s i).pending = s.pending ∧ (takeWord s i).otp = s.otp := by
  unfold takeWord
  dsimp only
  (repeat' split) <;> simp

/-! ### Engine -/

@[simp] theorem State.setEng_keep (s : State) (e : Nat) (v : Engine) :
    (State.setEng s e v).pending = s.pending ∧ (State.setEng s e v).otp = s.otp := by
  simp [State.setEng]
@[simp] theorem State.withEng_keep (s : State) (e : Nat) (f : Engine → Engine) :
    (State.withEng s e f).pending = s.pending ∧ (State.withEng s e f).otp = s.otp := by
  simp [State.withEng]
@[simp] theorem State.setThr_keep (s : State) (m : Nat) (v : Thread) :
    (State.setThr s m v).pending = s.pending ∧ (State.setThr s m v).otp = s.otp := by
  simp [State.setThr]
@[simp] theorem State.withThr_keep (s : State) (m : Nat) (f : Thread → Thread) :
    (State.withThr s m f).pending = s.pending ∧ (State.withThr s m f).otp = s.otp := by
  simp [State.withThr]
@[simp] theorem State.setShm_keep (s : State) (i : Nat) (v : Shared) :
    (State.setShm s i v).pending = s.pending ∧ (State.setShm s i v).otp = s.otp := by
  simp [State.setShm]
@[simp] theorem State.setThrState_keep (s : State) (m v : Nat) :
    (State.setThrState s m v).pending = s.pending ∧ (State.setThrState s m v).otp = s.otp := by
  simp [State.setThrState]
@[simp] theorem State.setPc_keep (s : State) (m v : Nat) :
    (State.setPc s m v).pending = s.pending ∧ (State.setPc s m v).otp = s.otp := by
  simp [State.setPc]
@[simp] theorem rebase_keep (s : State) (i : Nat) :
    (rebase s i).pending = s.pending ∧ (rebase s i).otp = s.otp := by
  simp [rebase]
@[simp] theorem State.cutCount_keep (s : State) (m : Nat) :
    (State.cutCount s m).pending = s.pending ∧ (State.cutCount s m).otp = s.otp := by
  simp [State.cutCount]
@[simp] theorem State.settleThr_keep (s : State) (m : Nat) :
    (State.settleThr s m).pending = s.pending ∧ (State.settleThr s m).otp = s.otp := by
  simp [State.settleThr]
@[simp] theorem State.send_keep (s : State) (m unit dist : Nat) (x : Landing) (delay : Nat) :
    (State.send s m unit dist x delay).pending = s.pending ∧ (State.send s m unit dist x delay).otp = s.otp := by
  simp [State.send]
@[simp] theorem State.sendG_keep (s : State) (m unit dist reg : Nat) (r : Res) (div : Bool) (delay : Nat) :
    (State.sendG s m unit dist reg r div delay).pending = s.pending ∧ (State.sendG s m unit dist reg r div delay).otp = s.otp := by
  simp [State.sendG]
@[simp] theorem State.sendA_keep (s : State) (m dist reg : Nat) (r : ARes) :
    (State.sendA s m dist reg r).pending = s.pending ∧ (State.sendA s m dist reg r).otp = s.otp := by
  simp [State.sendA]
@[simp] theorem State.sendF_keep (s : State) (m unit flags : Nat) :
    (State.sendF s m unit flags).pending = s.pending ∧ (State.sendF s m unit flags).otp = s.otp := by
  simp [State.sendF]
@[simp] theorem State.setShmWord_keep (s : State) (i addr : Nat) (w : TWord) :
    (State.setShmWord s i addr w).pending = s.pending ∧ (State.setShmWord s i addr w).otp = s.otp := by
  simp [State.setShmWord]
@[simp] theorem State.withHeld_keep (s : State) (m : Nat) (f : GateItem → GateItem) :
    (State.withHeld s m f).pending = s.pending ∧ (State.withHeld s m f).otp = s.otp := by
  simp [State.withHeld]
@[simp] theorem windowStore_keep (s : State) (m o size : Nat) (w : TWord) :
    (windowStore s m o size w).pending = s.pending ∧ (windowStore s m o size w).otp = s.otp := by
  simp [windowStore]
@[simp] theorem State.drainOne_keep (s : State) (e : Nat) (x : StoreEnt) :
    (State.drainOne s e x).pending = s.pending ∧ (State.drainOne s e x).otp = s.otp := by
  unfold State.drainOne
  dsimp only
  (repeat' split) <;> simp
@[simp] theorem State.drainIf_keep (s : State) (e : Nat) (p : StoreEnt → Bool) :
    (State.drainIf s e p).pending = s.pending ∧ (State.drainIf s e p).otp = s.otp := by
  simp [State.drainIf]
@[simp] theorem State.drainDue_keep (s : State) (e : Nat) :
    (State.drainDue s e).pending = s.pending ∧ (State.drainDue s e).otp = s.otp := by
  simp [State.drainDue]
@[simp] theorem State.drainIsland_keep (s : State) (i : Nat) :
    (State.drainIsland s i).pending = s.pending ∧ (State.drainIsland s i).otp = s.otp := by
  simp [State.drainIsland]
@[simp] theorem State.drainThread_keep (s : State) (m : Nat) :
    (State.drainThread s m).pending = s.pending ∧ (State.drainThread s m).otp = s.otp := by
  simp [State.drainThread]
@[simp] theorem State.drainWindow_keep (s : State) (m : Nat) :
    (State.drainWindow s m).pending = s.pending ∧ (State.drainWindow s m).otp = s.otp := by
  simp [State.drainWindow]
@[simp] theorem State.pendInt_keep (s : State) (m bit : Nat) :
    (State.pendInt s m bit).pending = s.pending ∧ (State.pendInt s m bit).otp = s.otp := by
  simp [State.pendInt]
@[simp] theorem State.tick_keep (s : State) (m dt : Nat) :
    (State.tick s m dt).pending = s.pending ∧ (State.tick s m dt).otp = s.otp := by
  simp [State.tick]
@[simp] theorem State.useSlot_keep (s : State) (m n : Nat) :
    (State.useSlot s m n).pending = s.pending ∧ (State.useSlot s m n).otp = s.otp := by
  simp [State.useSlot]
@[simp] theorem alcoveFill_keep (s : State) (m : Nat) (pc after : Nat) :
    (alcoveFill s m pc after).pending = s.pending ∧ (alcoveFill s m pc after).otp = s.otp := by
  unfold alcoveFill
  dsimp only
  (repeat' split) <;> simp
@[simp] theorem beginBundle_keep (s : State) (m : Nat) (l : List Syl) (after : Nat) :
    (beginBundle s m l after).pending = s.pending ∧ (beginBundle s m l after).otp = s.otp := by
  simp [beginBundle]
@[simp] theorem engAlarm_keep (s : State) (m cause pc : Nat) :
    (engAlarm s m cause pc).pending = s.pending ∧ (engAlarm s m cause pc).otp = s.otp := by
  simp [engAlarm]
@[simp] theorem State.voidHeld_keep (s : State) (m cause : Nat) :
    (State.voidHeld s m cause).pending = s.pending ∧ (State.voidHeld s m cause).otp = s.otp := by
  unfold State.voidHeld
  (repeat' split) <;> simp
@[simp] theorem State.slotsMark_keep (s : State) (m n : Nat) :
    (State.slotsMark s m n).pending = s.pending ∧ (State.slotsMark s m n).otp = s.otp := by
  simp [State.slotsMark]
@[simp] theorem State.dropDispatch_keep (s : State) (m : Nat) :
    (State.dropDispatch s m).pending = s.pending ∧ (State.dropDispatch s m).otp = s.otp := by
  unfold State.dropDispatch
  (repeat' split) <;> simp
@[simp] theorem State.endDispatch_keep (s : State) (m how : Nat) :
    (State.endDispatch s m how).pending = s.pending ∧ (State.endDispatch s m how).otp = s.otp := by
  unfold State.endDispatch
  (repeat' split) <;> simp
@[simp] theorem threadFault_keep (s : State) (m cause pc : Nat) :
    (threadFault s m cause pc).pending = s.pending ∧ (threadFault s m cause pc).otp = s.otp := by
  simp [threadFault]
@[simp] theorem eccFixed_keep (s : State) (i : Issue) :
    (eccFixed s i).pending = s.pending ∧ (eccFixed s i).otp = s.otp := by
  simp [eccFixed]

/-! ### Accounts -/

@[simp] theorem State.withWshop_keep (s : State) (f : WshopSt → WshopSt) :
    (State.withWshop s f).pending = s.pending ∧ (State.withWshop s f).otp = s.otp := by
  simp [State.withWshop]
@[simp] theorem State.withLedg_keep (s : State) (f : LedgSt → LedgSt) :
    (State.withLedg s f).pending = s.pending ∧ (State.withLedg s f).otp = s.otp := by
  simp [State.withLedg]
@[simp] theorem putBal_keep (s : State) (a : Nat) (v : Int) :
    (putBal s a v).pending = s.pending ∧ (putBal s a v).otp = s.otp := by
  simp [putBal]
@[simp] theorem addBal_keep (s : State) (a : Nat) (v : Int) :
    (addBal s a v).pending = s.pending ∧ (addBal s a v).otp = s.otp := by
  show Keeps s (addBal s a v)
  unfold addBal
  dsimp only
  refine Keeps.ite (putBal_keep _ _ _) ?_
  simp only [Keeps, State.raise_keep, State.setRf_keep, putBal_keep, and_self]
@[simp] theorem chargeNj_keep (s : State) (a : Nat) (nj : Int) :
    (chargeNj s a nj).pending = s.pending ∧ (chargeNj s a nj).otp = s.otp := by
  simp [chargeNj]
@[simp] theorem setHold_keep (s : State) (a v : Nat) :
    (setHold s a v).pending = s.pending ∧ (setHold s a v).otp = s.otp := by
  simp [setHold]

/-! ### Memory -/

@[simp] theorem ctrlLatch_keep (s : State) (m o : Nat) :
    (ctrlLatch s m o).pending = s.pending ∧ (ctrlLatch s m o).otp = s.otp := by
  unfold ctrlLatch
  dsimp only
  (repeat' split) <;> simp
@[simp] theorem doLoad_keep (s : State) (m : Nat) (y : Syl) (ecc : Nat) :
    (doLoad s m y ecc).pending = s.pending ∧ (doLoad s m y ecc).otp = s.otp := by
  simp [doLoad]
@[simp] theorem bufferStore_keep (s : State) (m a size : Nat) (w : TWord) :
    (bufferStore s m a size w).pending = s.pending ∧ (bufferStore s m a size w).otp = s.otp := by
  simp [bufferStore]
@[simp] theorem tapStore_keep (s : State) (m a size : Nat) (w : TWord) :
    (tapStore s m a size w).pending = s.pending ∧ (tapStore s m a size w).otp = s.otp := by
  simp [tapStore]
@[simp] theorem doStore_keep (s : State) (m : Nat) (y : Syl) :
    (doStore s m y).pending = s.pending ∧ (doStore s m y).otp = s.otp := by
  simp [doStore]

/-! ### Keys -/

@[simp] theorem wakeThr_keep (s : State) (m at_ : Nat) :
    (wakeThr s m at_).pending = s.pending ∧ (wakeThr s m at_).otp = s.otp := by
  simp [wakeThr]
@[simp] theorem askUnpark_keep (s : State) (m b : Nat) :
    (askUnpark s m b).pending = s.pending ∧ (askUnpark s m b).otp = s.otp := by
  simp [askUnpark]
@[simp] theorem ringBell_keep (s : State) (m b : Nat) :
    (ringBell s m b).pending = s.pending ∧ (ringBell s m b).otp = s.otp := by
  simp [ringBell]
@[simp] theorem sendRing_keep (s : State) (e target b : Nat) :
    (sendRing s e target b).pending = s.pending ∧ (sendRing s e target b).otp = s.otp := by
  simp [sendRing]
@[simp] theorem State.setKey_keep (s : State) (k : Nat) (v : KeySt) :
    (State.setKey s k v).pending = s.pending ∧ (State.setKey s k v).otp = s.otp := by
  simp [State.setKey]
@[simp] theorem sendStatus_keep (s : State) (k : Nat) (r : KeyRsp) :
    (sendStatus s k r).pending = s.pending ∧ (sendStatus s k r).otp = s.otp := by
  simp [sendStatus]
@[simp] theorem passKey_keep (s : State) (k : Nat) (abandoned : Bool) :
    (passKey s k abandoned).pending = s.pending ∧ (passKey s k abandoned).otp = s.otp := by
  unfold passKey
  (repeat' split) <;> simp
@[simp] theorem serveKey_keep (s : State) (m op k no : Nat) :
    (serveKey s m op k no).1.pending = s.pending ∧ (serveKey s m op k no).1.otp = s.otp := by
  unfold serveKey
  dsimp only
  (repeat' split) <;> simp
@[simp] theorem startKeyWait_keep (s : State) (m k dst : Nat) :
    (startKeyWait s m k dst).pending = s.pending ∧ (startKeyWait s m k dst).otp = s.otp := by
  simp [startKeyWait]
@[simp] theorem sendKeyReq_keep (s : State) (i : Nat) (r : KeyReq) :
    (sendKeyReq s i r).pending = s.pending ∧ (sendKeyReq s i r).otp = s.otp := by
  simp [sendKeyReq]
@[simp] theorem keyOp_keep (s : State) (m op k dst : Nat) :
    (keyOp s m op k dst).pending = s.pending ∧ (keyOp s m op k dst).otp = s.otp := by
  unfold keyOp
  (try dsimp only)
  repeat' (first | (simp [*]; done) | intro _ | apply And.intro | apply fold_p | apply fold_o | apply ffold_p | apply ffold_o | simp | (split <;> (try (rename_i hq; have hh := fst_of hq; subst hh; clear hq))))
@[simp] theorem keyWithdraw_keep (s : State) (m : Nat) (reset : Bool) :
    (keyWithdraw s m reset).pending = s.pending ∧ (keyWithdraw s m reset).otp = s.otp := by
  unfold keyWithdraw
  (repeat' split) <;> simp
@[simp] theorem ownerReset_keep (s : State) (m : Nat) :
    (ownerReset s m).pending = s.pending ∧ (ownerReset s m).otp = s.otp := by
  simp [ownerReset]
@[simp] theorem loseStatus_keep (s : State) (r : KeyRsp) :
    (loseStatus s r).pending = s.pending ∧ (loseStatus s r).otp = s.otp := by
  simp [loseStatus]
@[simp] theorem markLost_keep (s : State) (r : KeyRsp) :
    (markLost s r).1.pending = s.pending ∧ (markLost s r).1.otp = s.otp := by
  simp [markLost]
@[simp] theorem landStatus_keep (s0 : State) (r : KeyRsp) :
    (landStatus s0 r).pending = s0.pending ∧ (landStatus s0 r).otp = s0.otp := by
  unfold landStatus
  dsimp only
  (repeat' split) <;> simp

/-! ### Bundle -/

@[simp] theorem haltWaiting_keep (s : State) (m : Nat) :
    (haltWaiting s m).pending = s.pending ∧ (haltWaiting s m).otp = s.otp := by
  simp [haltWaiting]
@[simp] theorem endBundle_keep (s : State) (m : Nat) :
    (endBundle s m).pending = s.pending ∧ (endBundle s m).otp = s.otp := by
  simp [endBundle]
@[simp] theorem runSyl_keep (s : State) (m : Nat) (y : Syl) (act : Syl → State → State) (h_act : ∀ x0 x1, (act x0 x1).pending = x1.pending ∧ (act x0 x1).otp = x1.otp) :
    (runSyl s m y act).pending = s.pending ∧ (runSyl s m y act).otp = s.otp := by
  unfold runSyl
  (try dsimp only)
  repeat' (first | (simp [*]; done) | intro _ | apply And.intro | apply fold_p | apply fold_o | apply ffold_p | apply ffold_o | simp | (split <;> (try (rename_i hq; have hh := fst_of hq; subst hh; clear hq))))

/-! ### Threads -/

@[simp] theorem voidHelp_keep (s : State) (m : Nat) :
    (voidHelp s m).pending = s.pending ∧ (voidHelp s m).otp = s.otp := by
  simp [voidHelp]
@[simp] theorem clearThr_keep (s : State) (m : Nat) :
    (clearThr s m).pending = s.pending ∧ (clearThr s m).otp = s.otp := by
  simp [clearThr]
@[simp] theorem resetThr_keep (s : State) (m : Nat) :
    (resetThr s m).pending = s.pending ∧ (resetThr s m).otp = s.otp := by
  simp [resetThr]
@[simp] theorem haltThr_keep (s : State) (m : Nat) :
    (haltThr s m).pending = s.pending ∧ (haltThr s m).otp = s.otp := by
  simp [haltThr]
@[simp] theorem resumeThr_keep (s : State) (m : Nat) :
    (resumeThr s m).pending = s.pending ∧ (resumeThr s m).otp = s.otp := by
  simp [resumeThr]
@[simp] theorem thrCtlAct_keep (th : Nat) (val : Word) (s : State) :
    (thrCtlAct th val s).pending = s.pending ∧ (thrCtlAct th val s).otp = s.otp := by
  simp [thrCtlAct]
@[simp] theorem failThr_keep (s : State) (m : Nat) :
    (failThr s m).pending = s.pending ∧ (failThr s m).otp = s.otp := by
  simp [failThr]
@[simp] theorem takeOver_keep (s : State) (e : Nat) :
    (takeOver s e).pending = s.pending ∧ (takeOver s e).otp = s.otp := by
  simp [takeOver]
@[simp] theorem engineDown_keep (s : State) (e arg : Nat) :
    (engineDown s e arg).pending = s.pending ∧ (engineDown s e arg).otp = s.otp := by
  simp [engineDown]

/-! ### Routes -/

@[simp] theorem State.withCour_keep (s : State) (f : CourSt → CourSt) :
    (State.withCour s f).pending = s.pending ∧ (State.withCour s f).otp = s.otp := by
  simp [State.withCour]
@[simp] theorem State.withLink_keep (s : State) (k : Nat) (f : CourLink → CourLink) :
    (State.withLink s k f).pending = s.pending ∧ (State.withLink s k f).otp = s.otp := by
  simp [State.withLink]
@[simp] theorem State.withGroup_keep (s : State) (g : Nat) (f : CourGroup → CourGroup) :
    (State.withGroup s g f).pending = s.pending ∧ (State.withGroup s g f).otp = s.otp := by
  simp [State.withGroup]
@[simp] theorem flowBucket_keep (s : State) (g key : Nat) :
    (flowBucket s g key).1.pending = s.pending ∧ (flowBucket s g key).1.otp = s.otp := by
  simp [flowBucket]
@[simp] theorem routeLink_keep (s : State) (dst cls key : Nat) :
    (routeLink s dst cls key).1.pending = s.pending ∧ (routeLink s dst cls key).1.otp = s.otp := by
  simp [routeLink]
@[simp] theorem courPlace_keep (s : State) (e : Env) :
    (courPlace s e).1.pending = s.pending ∧ (courPlace s e).1.otp = s.otp := by
  unfold courPlace
  dsimp only
  (repeat' split) <;> simp

/-! ### Forward -/

@[simp] theorem alarmForLink_keep (s : State) (k lanes : Nat) (a : Alarm) :
    (alarmForLink s k lanes a).pending = s.pending ∧ (alarmForLink s k lanes a).otp = s.otp := by
  show Keeps s (alarmForLink s k lanes a)
  unfold alarmForLink
  (repeat' (first | apply Keeps.ite | dsimp only | (split <;> (try (rename_i hq; have hh := fst_of hq; subst hh; clear hq)))))
  all_goals (refine ⟨?_, ?_⟩ <;> simp)
@[simp] theorem State.forwardAlarm_keep (s : State) (a : Alarm) :
    (State.forwardAlarm s a).pending = s.pending ∧ (State.forwardAlarm s a).otp = s.otp := by
  show Keeps s (State.forwardAlarm s a)
  unfold State.forwardAlarm
  dsimp only
  refine Keeps.ite ⟨rfl, rfl⟩ ?_
  split <;> simp only [Keeps, alarmForLink_keep, routeLink_keep, and_self]

/-! ### Evt -/

@[simp] theorem State.withEvt_keep (s : State) (f : EvtSt → EvtSt) :
    (State.withEvt s f).pending = s.pending ∧ (State.withEvt s f).otp = s.otp := by
  simp [State.withEvt]
@[simp] theorem State.msixSend_keep (s : State) (f v : Nat) :
    (State.msixSend s f v).pending = s.pending ∧ (State.msixSend s f v).otp = s.otp := by
  simp [State.msixSend]
@[simp] theorem State.msixFlush_keep (s : State) (v : Nat) :
    (State.msixFlush s v).pending = s.pending ∧ (State.msixFlush s v).otp = s.otp := by
  simp [State.msixFlush]
@[simp] theorem State.msixEvent_keep (s : State) (v : Nat) (urgent : Bool) :
    (State.msixEvent s v urgent).pending = s.pending ∧ (State.msixEvent s v urgent).otp = s.otp := by
  simp [State.msixEvent]
@[simp] theorem State.msixUnmask_keep (s : State) (f v : Nat) :
    (State.msixUnmask s f v).pending = s.pending ∧ (State.msixUnmask s f v).otp = s.otp := by
  simp [State.msixUnmask]
@[simp] theorem State.logPut_keep (s : State) (a : Alarm) :
    (State.logPut s a).pending = s.pending ∧ (State.logPut s a).otp = s.otp := by
  simp [State.logPut]
@[simp] theorem State.bumpSeq_keep (s : State) :
    (State.bumpSeq s).pending = s.pending ∧ (State.bumpSeq s).otp = s.otp := by
  simp [State.bumpSeq]
@[simp] theorem State.logRecord_keep (s : State) (a : Alarm) :
    (State.logRecord s a).pending = s.pending ∧ (State.logRecord s a).otp = s.otp := by
  simp [State.logRecord]
@[simp] theorem State.enqueue_keep (s : State) (a : Alarm) :
    (State.enqueue s a).pending = s.pending ∧ (State.enqueue s a).otp = s.otp := by
  simp [State.enqueue]
@[simp] theorem State.moveSummary_keep (s : State) :
    (State.moveSummary s).pending = s.pending ∧ (State.moveSummary s).otp = s.otp := by
  unfold State.moveSummary
  (repeat' split) <;> simp
@[simp] theorem State.arriveAlarm_keep (s : State) (a : Alarm) :
    (State.arriveAlarm s a).pending = s.pending ∧ (State.arriveAlarm s a).otp = s.otp := by
  simp [State.arriveAlarm]
@[simp] theorem State.takeAlarm_keep (s : State) (a : Alarm) :
    (State.takeAlarm s a).pending = s.pending ∧ (State.takeAlarm s a).otp = s.otp := by
  simp [State.takeAlarm]
@[simp] theorem State.trcPut_keep (s : State) (w : List Word) (gap : Bool) :
    (State.trcPut s w gap).pending = s.pending ∧ (State.trcPut s w gap).otp = s.otp := by
  simp [State.trcPut]
@[simp] theorem State.traceGap_keep (s : State) :
    (State.traceGap s).pending = s.pending ∧ (State.traceGap s).otp = s.otp := by
  simp [State.traceGap]
@[simp] theorem State.trace_keep (s : State) (w : List Word) :
    (State.trace s w).pending = s.pending ∧ (State.trace s w).otp = s.otp := by
  simp [State.trace]

/-! ### Dram -/

@[simp] theorem State.withDram_keep (s : State) (f : DramSt → DramSt) :
    (State.withDram s f).pending = s.pending ∧ (State.withDram s f).otp = s.otp := by
  simp [State.withDram]
@[simp] theorem migKeep_keep (s t : State) :
    (migKeep s t).pending = t.pending ∧ (migKeep s t).otp = t.otp := by
  simp [migKeep]
@[simp] theorem fillBlock_keep (s : State) (l : Nat) :
    (fillBlock s l).pending = s.pending ∧ (fillBlock s l).otp = s.otp := by
  simp [fillBlock]
@[simp] theorem retireRank_keep (s : State) (ch phys cause : Nat) :
    (retireRank s ch phys cause).pending = s.pending ∧ (retireRank s ch phys cause).otp = s.otp := by
  simp [retireRank]
@[simp] theorem correctable_keep (s : State) (ch phys : Nat) :
    (correctable s ch phys).pending = s.pending ∧ (correctable s ch phys).otp = s.otp := by
  simp [correctable]
@[simp] theorem uncorrectable_keep (s : State) (l phys cause : Nat) :
    (uncorrectable s l phys cause).pending = s.pending ∧ (uncorrectable s l phys cause).otp = s.otp := by
  simp [uncorrectable]
@[simp] theorem readError_keep (s : State) (l phys ecc : Nat) :
    (readError s l phys ecc).pending = s.pending ∧ (readError s l phys ecc).otp = s.otp := by
  simp [readError]
@[simp] theorem respond_keep (s : State) (r : DramReq) (since status : Nat) (data : List Byte) :
    (respond s r since status data).pending = s.pending ∧ (respond s r since status data).otp = s.otp := by
  simp [respond]
@[simp] theorem receive_keep (s : State) (r : DramReq) :
    (receive s r).pending = s.pending ∧ (receive s r).otp = s.otp := by
  simp [receive]
@[simp] theorem serviceDone_keep (s : State) (kind r : Nat) :
    (serviceDone s kind r).pending = s.pending ∧ (serviceDone s kind r).otp = s.otp := by
  simp [serviceDone]
@[simp] theorem closeRows_keep (s : State) (ch phys bank : Nat) :
    (closeRows s ch phys bank).pending = s.pending ∧ (closeRows s ch phys bank).otp = s.otp := by
  simp [closeRows]
@[simp] theorem mergeRead_keep (s : State) (r : DramReq) (ecc : Nat) :
    (mergeRead s r ecc).pending = s.pending ∧ (mergeRead s r ecc).otp = s.otp := by
  simp [mergeRead]
@[simp] theorem performWrite_keep (s : State) (w : DramWait) (ecc : Nat) :
    (performWrite s w ecc).pending = s.pending ∧ (performWrite s w ecc).otp = s.otp := by
  simp [performWrite]
@[simp] theorem performRead_keep (s : State) (w : DramWait) (before : List DramWait) (ecc : Nat) :
    (performRead s w before ecc).pending = s.pending ∧ (performRead s w before ecc).otp = s.otp := by
  simp [performRead]
@[simp] theorem copied_keep (s : State) (ch n : Nat) :
    (copied s ch n).pending = s.pending ∧ (copied s ch n).otp = s.otp := by
  simp [copied]
@[simp] theorem copyLine_keep (s : State) (ch i ecc : Nat) :
    (copyLine s ch i ecc).pending = s.pending ∧ (copyLine s ch i ecc).otp = s.otp := by
  simp [copyLine]
@[simp] theorem copyRun_keep (s : State) (ch n ecc : Nat) :
    (copyRun s ch n ecc).pending = s.pending ∧ (copyRun s ch n ecc).otp = s.otp := by
  simp [copyRun]
@[simp] theorem serveForced_keep (s : State) (ch : Nat) :
    (serveForced s ch).pending = s.pending ∧ (serveForced s ch).otp = s.otp := by
  simp [serveForced]
@[simp] theorem trainChannel_keep (bad : List Nat) (s : State) (ch : Nat) :
    (trainChannel bad s ch).pending = s.pending ∧ (trainChannel bad s ch).otp = s.otp := by
  simp [trainChannel]

/-! ### Directory -/

@[simp] theorem startFill_keep (s : State) (sl : Nat) (shadow : Bool) (b : Nat) :
    (startFill s sl shadow b).1.pending = s.pending ∧ (startFill s sl shadow b).1.otp = s.otp := by
  simp [startFill]
@[simp] theorem joinFill_keep (s : State) (sl : Nat) (shadow : Bool) (b : Nat) :
    (joinFill s sl shadow b).1.pending = s.pending ∧ (joinFill s sl shadow b).1.otp = s.otp := by
  unfold joinFill
  (repeat' split) <;> simp
@[simp] theorem joinFills_keep (s : State) (sl : Nat) (shadow : Bool) (l : List Nat) :
    (joinFills s sl shadow l).1.pending = s.pending ∧ (joinFills s sl shadow l).1.otp = s.otp := by
  simp [joinFills]
@[simp] theorem extBegin_keep (s : State) (sl key : Nat) (old : Bool) :
    (extBegin s sl key old).1.pending = s.pending ∧ (extBegin s sl key old).1.otp = s.otp := by
  unfold extBegin
  dsimp only
  (repeat' split) <;> simp
@[simp] theorem queueLearn_keep (s : State) (sl key port : Nat) (cell : Option Nat) :
    (queueLearn s sl key port cell).pending = s.pending ∧ (queueLearn s sl key port cell).otp = s.otp := by
  simp [queueLearn]
@[simp] theorem stampHit_keep (s : State) (sl : Nat) (e : DirEntry) :
    (stampHit s sl e).pending = s.pending ∧ (stampHit s sl e).otp = s.otp := by
  simp [stampHit]
@[simp] theorem learnSource_keep (s : State) (sl ten fid src port mode : Nat) (cell : Option Nat) (old : Bool) :
    (learnSource s sl ten fid src port mode cell old).1.pending = s.pending ∧ (learnSource s sl ten fid src port mode cell old).1.otp = s.otp := by
  unfold learnSource
  dsimp only
  (repeat' split) <;> simp
@[simp] theorem formEnvelope_keep (s : State) (port cell cls pm len hv : Nat) (cut sample : Bool) (head : List Byte) :
    (formEnvelope s port cell cls pm len hv cut sample head).1.pending = s.pending ∧ (formEnvelope s port cell cls pm len hv cut sample head).1.otp = s.otp := by
  simp [formEnvelope]
@[simp] theorem fillJobs_keep (s : State) (sl no : Nat) (data : Option (List DirEntry)) :
    (fillJobs s sl no data).pending = s.pending ∧ (fillJobs s sl no data).otp = s.otp := by
  simp [fillJobs]
@[simp] theorem endFill_keep (s : State) (sl : Nat) (f : ExtFill) (data : Option (List DirEntry)) :
    (endFill s sl f data).pending = s.pending ∧ (endFill s sl f data).otp = s.otp := by
  simp [endFill]
@[simp] theorem invalidate_keep (s : State) (b : Nat) :
    (invalidate s b).pending = s.pending ∧ (invalidate s b).otp = s.otp := by
  simp [invalidate]
@[simp] theorem rehashRequest_keep (s : State) (sl code : Nat) :
    (rehashRequest s sl code).pending = s.pending ∧ (rehashRequest s sl code).otp = s.otp := by
  simp [rehashRequest]
@[simp] theorem buildFails_keep (s : State) (sl code : Nat) :
    (buildFails s sl code).pending = s.pending ∧ (buildFails s sl code).otp = s.otp := by
  simp [buildFails]
@[simp] theorem shadowFails_keep (s : State) (sl code : Nat) :
    (shadowFails s sl code).pending = s.pending ∧ (shadowFails s sl code).otp = s.otp := by
  simp [shadowFails]
@[simp] theorem learnWrite_keep (s : State) (sl : Nat) (e : DirEntry) (table : NMap (List DirEntry)) :
    (learnWrite s sl e table).pending = s.pending ∧ (learnWrite s sl e table).otp = s.otp := by
  simp [learnWrite]
@[simp] theorem learnPut_keep (s : State) (sl key port : Nat) :
    (learnPut s sl key port).1.pending = s.pending ∧ (learnPut s sl key port).1.otp = s.otp := by
  unfold learnPut
  dsimp only
  (repeat' split) <;> simp
@[simp] theorem floodItem_keep (s : State) (sl cell : Nat) :
    (floodItem s sl cell).pending = s.pending ∧ (floodItem s sl cell).otp = s.otp := by
  simp [floodItem]
@[simp] theorem doLearn_keep (s : State) (sl : Nat) (q : LearnReq) :
    (doLearn s sl q).pending = s.pending ∧ (doLearn s sl q).otp = s.otp := by
  unfold doLearn
  (repeat' split) <;> simp
@[simp] theorem learnDrop_keep (s : State) (sl key : Nat) :
    (learnDrop s sl key).pending = s.pending ∧ (learnDrop s sl key).otp = s.otp := by
  simp [learnDrop]
@[simp] theorem staticOne_keep (s : State) (c : DirCmd) (sl : Nat) :
    (staticOne s c sl).1.pending = s.pending ∧ (staticOne s c sl).1.otp = s.otp := by
  unfold staticOne
  dsimp only
  (repeat' split) <;> simp
@[simp] theorem staticPut_keep (s : State) (c : DirCmd) :
    (staticPut s c).1.pending = s.pending ∧ (staticPut s c).1.otp = s.otp := by
  unfold staticPut
  (try dsimp only)
  repeat' (first | (simp [*]; done) | intro _ | apply And.intro | apply fold_p | apply fold_o | apply ffold_p | apply ffold_o | simp | (split <;> (try (rename_i hq; have hh := fst_of hq; subst hh; clear hq))))
@[simp] theorem extWrite_keep (s : State) (shadow : Bool) (t u : NMap (List DirEntry)) :
    (extWrite s shadow t u).pending = s.pending ∧ (extWrite s shadow t u).otp = s.otp := by
  simp [extWrite]
@[simp] theorem extChange_keep (s : State) (u : NMap (List DirEntry)) :
    (extChange s u).pending = s.pending ∧ (extChange s u).otp = s.otp := by
  simp [extChange]
@[simp] theorem extShadowPut_keep (s : State) (c : DirCmd) (e : DirEntry) :
    (extShadowPut s c e).pending = s.pending ∧ (extShadowPut s c e).otp = s.otp := by
  simp [extShadowPut]
@[simp] theorem extPut_keep (s : State) (c : DirCmd) :
    (extPut s c).1.pending = s.pending ∧ (extPut s c).1.otp = s.otp := by
  unfold extPut
  dsimp only
  (repeat' split) <;> simp
@[simp] theorem lpmPut_keep (s : State) (c : DirCmd) :
    (lpmPut s c).1.pending = s.pending ∧ (lpmPut s c).1.otp = s.otp := by
  simp [lpmPut]
@[simp] theorem ternWrite_keep (s : State) (sl : Nat) (c : DirCmd) :
    (ternWrite s sl c).pending = s.pending ∧ (ternWrite s sl c).otp = s.otp := by
  simp [ternWrite]
@[simp] theorem dirWrite_keep (s : State) (c : DirCmd) :
    (dirWrite s c).1.pending = s.pending ∧ (dirWrite s c).1.otp = s.otp := by
  unfold dirWrite
  (try dsimp only)
  repeat' (first | (simp [*]; done) | intro _ | apply And.intro | apply fold_p | apply fold_o | apply ffold_p | apply ffold_o | simp | (split <;> (try (rename_i hq; have hh := fst_of hq; subst hh; clear hq))))
@[simp] theorem dirFlush_keep (s : State) (sl : Nat) (c : DirCmd) :
    (dirFlush s sl c).1.pending = s.pending ∧ (dirFlush s sl c).1.otp = s.otp := by
  simp [dirFlush]
@[simp] theorem doHost_keep (s : State) (sl : Nat) (w : HostWork) :
    (doHost s sl w).pending = s.pending ∧ (doHost s sl w).otp = s.otp := by
  unfold doHost
  (repeat' split) <;> simp
@[simp] theorem State.busyBits_keep (s : State) :
    (State.busyBits s).pending = s.pending ∧ (State.busyBits s).otp = s.otp := by
  simp [State.busyBits]
@[simp] theorem dirPerform_keep (s : State) (sl : Nat) (c : DirCmd) :
    (dirPerform s sl c).pending = s.pending ∧ (dirPerform s sl c).otp = s.otp := by
  simp [dirPerform]
@[simp] theorem dirStart_keep (sl : Nat) (val : Word) (s : State) :
    (dirStart sl val s).pending = s.pending ∧ (dirStart sl val s).otp = s.otp := by
  simp [dirStart]
@[simp] theorem dirResults_keep (s : State) (sl : Nat) (d : List Word) :
    (dirResults s sl d).pending = s.pending ∧ (dirResults s sl d).otp = s.otp := by
  simp [dirResults]
@[simp] theorem buildOne_keep (s : State) (sl code : Nat) :
    (buildOne s sl code).pending = s.pending ∧ (buildOne s sl code).otp = s.otp := by
  simp [buildOne]

/-! ### Macsec -/

@[simp] theorem setSaWord_keep (s : State) (p i w : Nat) (v : Word) :
    (setSaWord s p i w v).pending = s.pending ∧ (setSaWord s p i w v).otp = s.otp := by
  simp [setSaWord]
@[simp] theorem setSaPn_keep (s : State) (p i pn : Nat) :
    (setSaPn s p i pn).pending = s.pending ∧ (setSaPn s p i pn).otp = s.otp := by
  simp [setSaPn]
@[simp] theorem secureRx_keep (s : State) (p : Nat) (f : List Byte) :
    (secureRx s p f).1.pending = s.pending ∧ (secureRx s p f).1.otp = s.otp := by
  unfold secureRx
  dsimp only
  (repeat' split) <;> simp
@[simp] theorem takePn_keep (s : State) (p i pn : Nat) :
    (takePn s p i pn).pending = s.pending ∧ (takePn s p i pn).otp = s.otp := by
  simp [takePn]
@[simp] theorem secureTx_keep (s : State) (p : Nat) (f : List Byte) :
    (secureTx s p f).1.pending = s.pending ∧ (secureTx s p f).1.otp = s.otp := by
  simp [secureTx]

/-! ### Depot -/

@[simp] theorem leakCell_keep (s : State) (c : Nat) :
    (leakCell s c).pending = s.pending ∧ (leakCell s c).otp = s.otp := by
  simp [leakCell]
@[simp] theorem freeFrame_keep (s : State) (c : Nat) :
    (freeFrame s c).pending = s.pending ∧ (freeFrame s c).otp = s.otp := by
  simp [freeFrame]
@[simp] theorem dropRef_keep (s : State) (c : Nat) (ph : Option Nat) :
    (dropRef s c ph).pending = s.pending ∧ (dropRef s c ph).otp = s.otp := by
  simp [dropRef]
@[simp] theorem addRef_keep (s : State) (c : Nat) :
    (addRef s c).pending = s.pending ∧ (addRef s c).otp = s.otp := by
  simp [addRef]
@[simp] theorem freeVoid_keep (s : State) (e : Env) :
    (freeVoid s e).pending = s.pending ∧ (freeVoid s e).otp = s.otp := by
  simp [freeVoid]
@[simp] theorem admitAt_keep (s : State) (h : Nat) (e : Env) :
    (admitAt s h e).1.pending = s.pending ∧ (admitAt s h e).1.otp = s.otp := by
  simp [admitAt]
@[simp] theorem intoPh_keep (s : State) (h : Nat) (e : Env) :
    (intoPh s h e).pending = s.pending ∧ (intoPh s h e).otp = s.otp := by
  simp [intoPh]
@[simp] theorem copyInto_keep (s : State) (h : Nat) (e : Env) :
    (copyInto s h e).pending = s.pending ∧ (copyInto s h e).otp = s.otp := by
  unfold copyInto
  (try dsimp only)
  repeat' (first | (simp [*]; done) | intro _ | apply And.intro | apply fold_p | apply fold_o | apply ffold_p | apply ffold_o | simp | (split <;> (try (rename_i hq; have hh := fst_of hq; subst hh; clear hq))))
@[simp] theorem makeCopy_keep (s : State) (e : Env) (dest : Nat) (trunc sample : Bool) :
    (makeCopy s e dest trunc sample).pending = s.pending ∧ (makeCopy s e dest trunc sample).otp = s.otp := by
  unfold makeCopy
  (try dsimp only)
  repeat' (first | (simp [*]; done) | intro _ | apply And.intro | apply fold_p | apply fold_o | apply ffold_p | apply ffold_o | simp | (split <;> (try (rename_i hq; have hh := fst_of hq; subst hh; clear hq))))
@[simp] theorem mirrorCopies_keep (s : State) (e : Env) (released : Bool) (port : Nat) :
    (mirrorCopies s e released port).pending = s.pending ∧ (mirrorCopies s e released port).otp = s.otp := by
  simp [mirrorCopies]
@[simp] theorem bookPut_keep (s : State) (r : Nat) (e : Receipt) :
    (bookPut s r e).pending = s.pending ∧ (bookPut s r e).otp = s.otp := by
  simp [bookPut]
@[simp] theorem receiptCheck_keep (s : State) (e : Env) :
    (receiptCheck s e).1.pending = s.pending ∧ (receiptCheck s e).1.otp = s.otp := by
  unfold receiptCheck
  (repeat' split) <;> simp
@[simp] theorem redAssign_keep (s : State) (e : Env) (ports : List Nat) :
    (redAssign s e ports).pending = s.pending ∧ (redAssign s e ports).otp = s.otp := by
  simp [redAssign]
@[simp] theorem intoVoq_keep (s : State) (sl cls : Nat) (e : Env) (lead : Bool) :
    (intoVoq s sl cls e lead).pending = s.pending ∧ (intoVoq s sl cls e lead).otp = s.otp := by
  simp [intoVoq]
@[simp] theorem toPort_keep (s : State) (e : Env) (port cls : Nat) (lead : Bool) :
    (toPort s e port cls lead).1.pending = s.pending ∧ (toPort s e port cls lead).1.otp = s.otp := by
  unfold toPort
  (try dsimp only)
  repeat' (first | (simp [*]; done) | intro _ | apply And.intro | apply fold_p | apply fold_o | apply ffold_p | apply ffold_o | simp | (split <;> (try (rename_i hq; have hh := fst_of hq; subst hh; clear hq))))
@[simp] theorem toPorts_keep (s : State) (e : Env) (cls : Nat) (ports : List Nat) (lead : Bool) :
    (toPorts s e cls ports lead).1.pending = s.pending ∧ (toPorts s e cls ports lead).1.otp = s.otp := by
  simp [toPorts]
@[simp] theorem ringCopies_keep (s : State) (e : Env) (lead : Bool) :
    (ringCopies s e lead).pending = s.pending ∧ (ringCopies s e lead).otp = s.otp := by
  unfold ringCopies
  (try dsimp only)
  repeat' (first | (simp [*]; done) | intro _ | apply And.intro | apply fold_p | apply fold_o | apply ffold_p | apply ffold_o | simp | (split <;> (try (rename_i hq; have hh := fst_of hq; subst hh; clear hq))))
@[simp] theorem linkCopies_keep (s : State) (e : Env) :
    (linkCopies s e).1.pending = s.pending ∧ (linkCopies s e).1.otp = s.otp := by
  simp [linkCopies]
@[simp] theorem admitMulti_keep (s : State) (e : Env) :
    (admitMulti s e).pending = s.pending ∧ (admitMulti s e).otp = s.otp := by
  unfold admitMulti
  (try dsimp only)
  repeat' (first | (simp [*]; done) | intro _ | apply And.intro | apply fold_p | apply fold_o | apply ffold_p | apply ffold_o | simp | (split <;> (try (rename_i hq; have hh := fst_of hq; subst hh; clear hq))))
@[simp] theorem admitPlaced_keep (s : State) (e : Env) :
    (admitPlaced s e).pending = s.pending ∧ (admitPlaced s e).otp = s.otp := by
  unfold admitPlaced
  (try dsimp only)
  repeat' (first | (simp [*]; done) | intro _ | apply And.intro | apply fold_p | apply fold_o | apply ffold_p | apply ffold_o | simp | (split <;> (try (rename_i hq; have hh := fst_of hq; subst hh; clear hq))))
@[simp] theorem admitUni_keep (s : State) (e : Env) :
    (admitUni s e).pending = s.pending ∧ (admitUni s e).otp = s.otp := by
  unfold admitUni
  (try dsimp only)
  repeat' (first | (simp [*]; done) | intro _ | apply And.intro | apply fold_p | apply fold_o | apply ffold_p | apply ffold_o | simp | (split <;> (try (rename_i hq; have hh := fst_of hq; subst hh; clear hq))))
@[simp] theorem stopLanding_keep (s : State) (c : Nat) :
    (stopLanding s c).pending = s.pending ∧ (stopLanding s c).otp = s.otp := by
  simp [stopLanding]
@[simp] theorem admission_keep (s : State) (e : Env) :
    (admission s e).pending = s.pending ∧ (admission s e).otp = s.otp := by
  unfold admission
  (try dsimp only)
  repeat' (first | (simp [*]; done) | intro _ | apply And.intro | apply fold_p | apply fold_o | apply ffold_p | apply ffold_o | simp | (split <;> (try (rename_i hq; have hh := fst_of hq; subst hh; clear hq))))
@[simp] theorem sourceAdmit_keep (s : State) (e : Env) :
    (sourceAdmit s e).pending = s.pending ∧ (sourceAdmit s e).otp = s.otp := by
  unfold sourceAdmit
  (try dsimp only)
  repeat' (first | (simp [*]; done) | intro _ | apply And.intro | apply fold_p | apply fold_o | apply ffold_p | apply ffold_o | simp | (split <;> (try (rename_i hq; have hh := fst_of hq; subst hh; clear hq))))
@[simp] theorem seqCheck_keep (s : State) (e : Env) :
    (seqCheck s e).pending = s.pending ∧ (seqCheck s e).otp = s.otp := by
  simp [seqCheck]
@[simp] theorem discardUnformed_keep (s : State) (c : Nat) :
    (discardUnformed s c).pending = s.pending ∧ (discardUnformed s c).otp = s.otp := by
  simp [discardUnformed]
@[simp] theorem rxDiscard_keep (s : State) (c : Nat) :
    (rxDiscard s c).pending = s.pending ∧ (rxDiscard s c).otp = s.otp := by
  simp [rxDiscard]

/-! ### Source -/

@[simp] theorem State.originate_keep (s : State) (x : SrcInfo) (bytes : List Byte) (fin : Env → Env) :
    (State.originate s x bytes fin).pending = s.pending ∧ (State.originate s x bytes fin).otp = s.otp := by
  unfold State.originate
  dsimp only
  (repeat' split) <;> simp

/-! ### Helpers -/

@[simp] theorem State.setHelper_keep (s : State) (h : Nat) (v : Helper) :
    (State.setHelper s h v).pending = s.pending ∧ (State.setHelper s h v).otp = s.otp := by
  simp [State.setHelper]
@[simp] theorem State.setHunit_keep (s : State) (h u : Nat) (v : HelpUnit) :
    (State.setHunit s h u v).pending = s.pending ∧ (State.setHunit s h u v).otp = s.otp := by
  simp [State.setHunit]
@[simp] theorem writeShm_keep (s : State) (i a : Nat) (b : List Byte) (poison : Bool) :
    (writeShm s i a b poison).pending = s.pending ∧ (writeShm s i a b poison).otp = s.otp := by
  simp [writeShm]
@[simp] theorem finishStart_keep (s : State) (x : HelpIn) (ops : List Fetched) (bad : List Nat) (r0 r1 : Nat) (writes : List (Nat × List Byte × Bool)) :
    (finishStart s x ops bad r0 r1 writes).s.pending = s.pending ∧ (finishStart s x ops bad r0 r1 writes).s.otp = s.otp := by
  simp [finishStart]
@[simp] theorem startGcm_keep (s : State) (x : HelpIn) (dec : Bool) :
    (startGcm s x dec).s.pending = s.pending ∧ (startGcm s x dec).s.otp = s.otp := by
  unfold startGcm
  (repeat' split) <;> simp
@[simp] theorem startMac_keep (s : State) (x : HelpIn) (ops : List Fetched) (bad : List Nat) (mac : List Byte) (expect : Option Fetched) :
    (startMac s x ops bad mac expect).s.pending = s.pending ∧ (startMac s x ops bad mac expect).s.otp = s.otp := by
  unfold startMac
  (repeat' split) <;> simp
@[simp] theorem startGmac_keep (s : State) (x : HelpIn) (chk : Bool) :
    (startGmac s x chk).s.pending = s.pending ∧ (startGmac s x chk).s.otp = s.otp := by
  simp [startGmac]
@[simp] theorem startHmac_keep (s : State) (x : HelpIn) (chk : Bool) :
    (startHmac s x chk).s.pending = s.pending ∧ (startHmac s x chk).s.otp = s.otp := by
  simp [startHmac]
@[simp] theorem startSha_keep (s : State) (x : HelpIn) :
    (startSha s x).s.pending = s.pending ∧ (startSha s x).s.otp = s.otp := by
  simp [startSha]
@[simp] theorem startSum_keep (s : State) (x : HelpIn) (f : Nat → List Byte → Nat) :
    (startSum s x f).s.pending = s.pending ∧ (startSum s x f).s.otp = s.otp := by
  simp [startSum]
@[simp] theorem startCellRd_keep (s : State) (x : HelpIn) :
    (startCellRd s x).s.pending = s.pending ∧ (startCellRd s x).s.otp = s.otp := by
  simp [startCellRd]
@[simp] theorem startMove_keep (s : State) (x : HelpIn) (j : HelpJob) (reqs : List DramReq) :
    (startMove s x j reqs).s.pending = s.pending ∧ (startMove s x j reqs).s.otp = s.otp := by
  simp [startMove]
@[simp] theorem startToDram_keep (s : State) (x : HelpIn) :
    (startToDram s x).s.pending = s.pending ∧ (startToDram s x).s.otp = s.otp := by
  unfold startToDram
  dsimp only
  (repeat' split) <;> simp
@[simp] theorem startFromDram_keep (s : State) (x : HelpIn) :
    (startFromDram s x).s.pending = s.pending ∧ (startFromDram s x).s.otp = s.otp := by
  unfold startFromDram
  dsimp only
  (repeat' split) <;> simp
@[simp] theorem startSend_keep (s : State) (x : HelpIn) :
    (startSend s x).s.pending = s.pending ∧ (startSend s x).s.otp = s.otp := by
  simp [startSend]
@[simp] theorem startLookup_keep (s : State) (x : HelpIn) :
    (startLookup s x).s.pending = s.pending ∧ (startLookup s x).s.otp = s.otp := by
  unfold startLookup
  dsimp only
  (repeat' split) <;> simp
@[simp] theorem startLearn_keep (s : State) (x : HelpIn) :
    (startLearn s x).s.pending = s.pending ∧ (startLearn s x).s.otp = s.otp := by
  unfold startLearn
  dsimp only
  (repeat' split) <;> simp
theorem Keeps.iteS {c : Prop} [Decidable c] {s : State} {a b : Started} (ha : Keeps s a.s) (hb : Keeps s b.s) : Keeps s (if c then a else b).s := by
  split <;> assumption
@[simp] theorem startCmd_keep (s0 : State) (h : Nat) (c : HelpCmd) :
    (startCmd s0 h c).s.pending = s0.pending ∧ (startCmd s0 h c).s.otp = s0.otp := by
  show Keeps s0 (startCmd s0 h c).s
  unfold startCmd
  lift_lets
  intro i s x f
  have hd : Keeps s0 s := State.drainIsland_keep _ _
  clear_value x f s
  exact Keeps.iteS hd (Keeps.iteS (hd.trans (startGcm_keep _ _ _))
    (Keeps.iteS (hd.trans (startGcm_keep _ _ _))
    (Keeps.iteS (hd.trans (startGmac_keep _ _ _))
    (Keeps.iteS (hd.trans (startGmac_keep _ _ _))
    (Keeps.iteS (hd.trans (startHmac_keep _ _ _))
    (Keeps.iteS (hd.trans (startHmac_keep _ _ _))
    (Keeps.iteS (hd.trans (startSha_keep _ _))
    (Keeps.iteS (hd.trans (startSum_keep _ _ _))
    (Keeps.iteS (hd.trans (startSum_keep _ _ _))
    (Keeps.iteS (hd.trans (startSum_keep _ _ _))
    (Keeps.iteS (hd.trans (startToDram_keep _ _))
    (Keeps.iteS (hd.trans (startFromDram_keep _ _))
    (Keeps.iteS (hd.trans (startCellRd_keep _ _))
    (Keeps.iteS (hd.trans (startSend_keep _ _))
    (Keeps.iteS (hd.trans (startLookup_keep _ _))
    (hd.trans (startLearn_keep _ _)))))))))))))))))
@[simp] theorem busyBit_keep (s : State) (h u : Nat) :
    (busyBit s h u).pending = s.pending ∧ (busyBit s h u).otp = s.otp := by
  simp [busyBit]
@[simp] theorem runJob_keep (s : State) (h u : Nat) (j : HelpJob) :
    (runJob s h u j).pending = s.pending ∧ (runJob s h u j).otp = s.otp := by
  simp [runJob]
@[simp] theorem beginCmd_keep (s : State) (h u : Nat) (p : HelpCmd × Nat) :
    (beginCmd s h u p).pending = s.pending ∧ (beginCmd s h u p).otp = s.otp := by
  simp [beginCmd]
@[simp] theorem putRecord_keep (s : State) (c : HelpCmd) (status r0 r1 : Nat) :
    (putRecord s c status r0 r1).pending = s.pending ∧ (putRecord s c status r0 r1).otp = s.otp := by
  unfold putRecord
  (repeat' split) <;> simp
@[simp] theorem voidDone_keep (s : State) (m : Nat) :
    (voidDone s m).pending = s.pending ∧ (voidDone s m).otp = s.otp := by
  simp [voidDone]
@[simp] theorem endCmd_keep (s : State) (c : HelpCmd) (status r0 r1 : Nat) :
    (endCmd s c status r0 r1).pending = s.pending ∧ (endCmd s c status r0 r1).otp = s.otp := by
  simp [endCmd]
@[simp] theorem clearAnswers_keep (s : State) (h : Nat) (j : HelpJob) :
    (clearAnswers s h j).pending = s.pending ∧ (clearAnswers s h j).otp = s.otp := by
  simp [clearAnswers]
@[simp] theorem sendFrame_keep (s : State) (j : HelpJob) :
    (sendFrame s j).pending = s.pending ∧ (sendFrame s j).otp = s.otp := by
  unfold sendFrame
  (repeat' split) <;> simp
@[simp] theorem jobResults_keep (s : State) (h : Nat) (j : HelpJob) :
    (jobResults s h j).1.pending = s.pending ∧ (jobResults s h j).1.otp = s.otp := by
  simp [jobResults]

/-! ### Workshop -/

@[simp] theorem State.setGraph_keep (s : State) (g : Nat) (v : Graph) :
    (State.setGraph s g v).pending = s.pending ∧ (State.setGraph s g v).otp = s.otp := by
  simp [State.setGraph]
@[simp] theorem State.setGState_keep (s : State) (g v : Nat) :
    (State.setGState s g v).pending = s.pending ∧ (State.setGState s g v).otp = s.otp := by
  simp [State.setGState]
@[simp] theorem State.withNode_keep (s : State) (g n : Nat) (f : GNode → GNode) :
    (State.withNode s g n f).pending = s.pending ∧ (State.withNode s g n f).otp = s.otp := by
  simp [State.withNode]
@[simp] theorem State.withEdge_keep (s : State) (g k : Nat) (f : GEdge → GEdge) :
    (State.withEdge s g k f).pending = s.pending ∧ (State.withEdge s g k f).otp = s.otp := by
  simp [State.withEdge]
@[simp] theorem putToken_keep (s : State) (i addr : Nat) (t : List Word) :
    (putToken s i addr t).pending = s.pending ∧ (putToken s i addr t).otp = s.otp := by
  simp [putToken]
@[simp] theorem pushEdge_keep (s : State) (g k : Nat) (t : List Word) :
    (pushEdge s g k t).pending = s.pending ∧ (pushEdge s g k t).otp = s.otp := by
  simp [pushEdge]
@[simp] theorem deliverEdge_keep (s : State) (g k : Nat) (t : List Word) :
    (deliverEdge s g k t).pending = s.pending ∧ (deliverEdge s g k t).otp = s.otp := by
  simp [deliverEdge]
@[simp] theorem consumeEdge_keep (s : State) (g k : Nat) :
    (consumeEdge s g k).pending = s.pending ∧ (consumeEdge s g k).otp = s.otp := by
  simp [consumeEdge]
@[simp] theorem publishEdge_keep (s : State) (g k : Nat) :
    (publishEdge s g k).pending = s.pending ∧ (publishEdge s g k).otp = s.otp := by
  simp [publishEdge]
@[simp] theorem logNode_keep (s : State) (g n thread reason : Nat) :
    (logNode s g n thread reason).pending = s.pending ∧ (logNode s g n thread reason).otp = s.otp := by
  simp [logNode]
@[simp] theorem testNode_keep (tick : Bool) (g : Nat) (s : State) (n : Nat) :
    (testNode tick g s n).pending = s.pending ∧ (testNode tick g s n).otp = s.otp := by
  simp [testNode]
@[simp] theorem testGraph_keep (tick : Bool) (s : State) (g : Nat) :
    (testGraph tick s g).pending = s.pending ∧ (testGraph tick s g).otp = s.otp := by
  simp [testGraph]
@[simp] theorem testAll_keep (s : State) :
    (testAll s).pending = s.pending ∧ (testAll s).otp = s.otp := by
  simp [testAll]
@[simp] theorem unready_keep (s : State) (g : Nat) :
    (unready s g).pending = s.pending ∧ (unready s g).otp = s.otp := by
  simp [unready]
@[simp] theorem endTap_keep (s : State) (i addr : Nat) :
    (endTap s i addr).pending = s.pending ∧ (endTap s i addr).otp = s.otp := by
  simp [endTap]
@[simp] theorem alignTake_keep (s : State) (g k : Nat) (t : List Word) :
    (alignTake s g k t).pending = s.pending ∧ (alignTake s g k t).otp = s.otp := by
  simp [alignTake]
@[simp] theorem recCopy_keep (s : State) (t : List Word) :
    (recCopy s t).pending = s.pending ∧ (recCopy s t).otp = s.otp := by
  simp [recCopy]
@[simp] theorem pinnedFail_keep (s : State) (g n : Nat) :
    (pinnedFail s g n).pending = s.pending ∧ (pinnedFail s g n).otp = s.otp := by
  simp [pinnedFail]
@[simp] theorem dispatchTo_keep (s : State) (g n m reason : Nat) :
    (dispatchTo s g n m reason).pending = s.pending ∧ (dispatchTo s g n m reason).otp = s.otp := by
  simp [dispatchTo]
@[simp] theorem deferNode_keep (s : State) (p : Nat × Nat) :
    (deferNode s p).pending = s.pending ∧ (deferNode s p).otp = s.otp := by
  simp [deferNode]
@[simp] theorem unlist_keep (s : State) (p : Nat × Nat) :
    (unlist s p).pending = s.pending ∧ (unlist s p).otp = s.otp := by
  simp [unlist]
@[simp] theorem chargeNode_keep (s : State) (g n m slots : Nat) :
    (chargeNode s g n m slots).pending = s.pending ∧ (chargeNode s g n m slots).otp = s.otp := by
  simp [chargeNode]
@[simp] theorem endNode_keep (s : State) (g n mask : Nat) :
    (endNode s g n mask).pending = s.pending ∧ (endNode s g n mask).otp = s.otp := by
  simp [endNode]
@[simp] theorem nodeEnded_keep (s : State) (g n m slots how : Nat) :
    (nodeEnded s g n m slots how).pending = s.pending ∧ (nodeEnded s g n m slots how).otp = s.otp := by
  simp [nodeEnded]
@[simp] theorem helperNodeDone_keep (s : State) (g n mask : Nat) :
    (helperNodeDone s g n mask).pending = s.pending ∧ (helperNodeDone s g n mask).otp = s.otp := by
  simp [helperNodeDone]

/-! ### Fail -/

@[simp] theorem failEngine_keep (s : State) (e arg : Nat) :
    (failEngine s e arg).pending = s.pending ∧ (failEngine s e arg).otp = s.otp := by
  unfold failEngine
  (try dsimp only)
  repeat' (first | (simp [*]; done) | intro _ | apply And.intro | apply fold_p | apply fold_o | apply ffold_p | apply ffold_o | simp | (split <;> (try (rename_i hq; have hh := fst_of hq; subst hh; clear hq))))

/-! ### Ledger -/

@[simp] theorem sensorFailed_keep (s : State) :
    (sensorFailed s).pending = s.pending ∧ (sensorFailed s).otp = s.otp := by
  simp [sensorFailed]
@[simp] theorem addEnergy_keep (s : State) (i nj : Nat) :
    (addEnergy s i nj).pending = s.pending ∧ (addEnergy s i nj).otp = s.otp := by
  simp [addEnergy]
@[simp] theorem takeReport_keep (s : State) (r : MeterRep) :
    (takeReport s r).pending = s.pending ∧ (takeReport s r).otp = s.otp := by
  simp [takeReport]
@[simp] theorem takeSensors_keep (s : State) (rd : List (Option Int)) :
    (takeSensors s rd).1.pending = s.pending ∧ (takeSensors s rd).1.otp = s.otp := by
  unfold takeSensors
  (repeat' split) <;> simp
@[simp] theorem creditAll_keep (s : State) (us f : Nat) :
    (creditAll s us f).pending = s.pending ∧ (creditAll s us f).otp = s.otp := by
  simp [creditAll]
theorem chargeNj_keeps (t : State) (a : Nat) (v : Int) : Keeps t (chargeNj t a v) := chargeNj_keep t a v
@[simp] theorem chargeAll_keep (s : State) (energy : NMap Nat) (vin : Nat) :
    (chargeAll s energy vin).pending = s.pending ∧ (chargeAll s energy vin).otp = s.otp := by
  show Keeps s (chargeAll s energy vin)
  unfold chargeAll
  refine Keeps.trans (Keeps.trans ?_ (chargeNj_keeps _ _ _)) (State.withLedg_keep _ _)
  exact Keeps.fold (Keeps.refl s) fun t p => chargeNj_keeps t p.1 _
@[simp] theorem chooseFreqs_keep (s : State) (head : Int) :
    (chooseFreqs s head).pending = s.pending ∧ (chooseFreqs s head).otp = s.otp := by
  simp [chooseFreqs]
@[simp] theorem beginPark_keep (host : Bool) (s : State) (e : Nat) :
    (beginPark host s e).pending = s.pending ∧ (beginPark host s e).otp = s.otp := by
  simp [beginPark]
@[simp] theorem parkTick_keep (s : State) (head : Int) (floor : Bool) :
    (parkTick s head floor).pending = s.pending ∧ (parkTick s head floor).otp = s.otp := by
  unfold parkTick
  dsimp only
  (repeat' split) <;> simp
@[simp] theorem unparkTick_keep (s : State) (head : Int) :
    (unparkTick s head).pending = s.pending ∧ (unparkTick s head).otp = s.otp := by
  unfold unparkTick
  dsimp only
  (repeat' split) <;> simp
@[simp] theorem capTick_keep (s : State) (vin us : Nat) (floor : Bool) :
    (capTick s vin us floor).pending = s.pending ∧ (capTick s vin us floor).otp = s.otp := by
  simp [capTick]
@[simp] theorem putHead_keep (s : State) (v : Int) :
    (putHead s v).pending = s.pending ∧ (putHead s v).otp = s.otp := by
  simp [putHead]

/-! ### Matching -/

@[simp] theorem setVoq_keep (s : State) (q : Nat) (l : List VoqEntry) :
    (setVoq s q l).pending = s.pending ∧ (setVoq s q l).otp = s.otp := by
  simp [setVoq]
@[simp] theorem leadCopies_keep (s : State) (v : VoqEntry) :
    (leadCopies s v).pending = s.pending ∧ (leadCopies s v).otp = s.otp := by
  simp [leadCopies]
@[simp] theorem copyToPort_keep (s : State) (e : Env) (p : Nat) :
    (copyToPort s e p).pending = s.pending ∧ (copyToPort s e p).otp = s.otp := by
  simp [copyToPort]
@[simp] theorem moveOne_keep (s : State) (sl q : Nat) :
    (moveOne s sl q).1.pending = s.pending ∧ (moveOne s sl q).1.otp = s.otp := by
  unfold moveOne
  (repeat' split) <;> simp
@[simp] theorem moveSome_keep (sl q n : Nat) (s : State) (left : Nat) :
    (moveSome sl q n s left).1.pending = s.pending ∧ (moveSome sl q n s left).1.otp = s.otp := by
  induction n generalizing s left with
  | zero => exact ⟨rfl, rfl⟩
  | succ n ih => unfold moveSome; split <;> simp [ih]
@[simp] theorem movePair_keep (s : State) (pr : Nat × Nat) :
    (movePair s pr).pending = s.pending ∧ (movePair s pr).otp = s.otp := by
  unfold movePair
  dsimp only
  (repeat' split) <;> simp
@[simp] theorem movePointers_keep (s : State) (a : (Nat × Nat) × Bool) :
    (movePointers s a).pending = s.pending ∧ (movePointers s a).otp = s.otp := by
  simp [movePointers]
@[simp] theorem computeMatching_keep (s : State) :
    (computeMatching s).pending = s.pending ∧ (computeMatching s).otp = s.otp := by
  simp [computeMatching]

/-! ### Release -/

@[simp] theorem gclFollow_keep (s : State) (p : Nat) :
    (gclFollow s p).pending = s.pending ∧ (gclFollow s p).otp = s.otp := by
  simp [gclFollow]
@[simp] theorem uncharge_keep (s : State) (c h : Nat) :
    (uncharge s c h).pending = s.pending ∧ (uncharge s c h).otp = s.otp := by
  simp [uncharge]

/-! ### Editor -/

@[simp] theorem encapStep_keep (s : State) (p : Nat) (orig : List Byte) (e : Env) (x : Edit) :
    (encapStep s p orig e x).1.pending = s.pending ∧ (encapStep s p orig e x).1.otp = s.otp := by
  simp [encapStep]
@[simp] theorem followStep_keep (s : State) (p : Nat) (e : Env) (x : Edit) :
    (followStep s p e x).1.pending = s.pending ∧ (followStep s p e x).1.otp = s.otp := by
  unfold followStep
  dsimp only
  (repeat' split) <;> simp
@[simp] theorem editFrame_keep (s : State) (p : Nat) (e : Env) (orig : List Byte) :
    (editFrame s p e orig).1.pending = s.pending ∧ (editFrame s p e orig).1.otp = s.otp := by
  simp [editFrame]
@[simp] theorem egrAbort_keep (s : State) (p : Nat) :
    (egrAbort s p).pending = s.pending ∧ (egrAbort s p).otp = s.otp := by
  simp [egrAbort]
@[simp] theorem landed_keep (s : State) (p cell : Nat) :
    (landed s p cell).pending = s.pending ∧ (landed s p cell).otp = s.otp := by
  unfold landed
  dsimp only
  (repeat' split) <;> simp
@[simp] theorem giveUp_keep (s : State) (cell ph : Nat) :
    (giveUp s cell ph).pending = s.pending ∧ (giveUp s cell ph).otp = s.otp := by
  simp [giveUp]
@[simp] theorem finishEdit_keep (s : State) (p : Nat) (o : OutFrame) (orig : List Byte) :
    (finishEdit s p o orig).1.pending = s.pending ∧ (finishEdit s p o orig).1.otp = s.otp := by
  unfold finishEdit
  (try dsimp only)
  repeat' (first | (simp [*]; done) | intro _ | apply And.intro | apply fold_p | apply fold_o | apply ffold_p | apply ffold_o | simp | (split <;> (try (rename_i hq; have hh := fst_of hq; subst hh; clear hq))))
@[simp] theorem egressLearn_keep (s : State) (sl : Nat) (e : Env) (orig : List Byte) :
    (egressLearn s sl e orig).pending = s.pending ∧ (egressLearn s sl e orig).otp = s.otp := by
  simp [egressLearn]
@[simp] theorem txStats_keep (s : State) (p : Nat) (o : OutFrame) :
    (txStats s p o).pending = s.pending ∧ (txStats s p o).otp = s.otp := by
  unfold txStats
  dsimp only
  (repeat' split) <;> simp
@[simp] theorem tsqPush_keep (s : State) (p : Nat) (o : OutFrame) :
    (tsqPush s p o).pending = s.pending ∧ (tsqPush s p o).otp = s.otp := by
  simp [tsqPush]
@[simp] theorem transparent_keep (s : State) (p : Nat) (o : OutFrame) :
    (transparent s p o).1.pending = s.pending ∧ (transparent s p o).1.otp = s.otp := by
  unfold transparent
  (repeat' split) <;> simp
@[simp] theorem latencyMonitor_keep (s : State) (p : Nat) (o : OutFrame) :
    (latencyMonitor s p o).pending = s.pending ∧ (latencyMonitor s p o).otp = s.otp := by
  simp [latencyMonitor]
@[simp] theorem finishTx_keep (s : State) (p : Nat) (o : OutFrame) :
    (finishTx s p o).pending = s.pending ∧ (finishTx s p o).otp = s.otp := by
  simp [finishTx]
@[simp] theorem letGo_keep (s : State) (o : OutFrame) :
    (letGo s o).pending = s.pending ∧ (letGo s o).otp = s.otp := by
  simp [letGo]
@[simp] theorem begunTx_keep (s : State) (p : Nat) (o : OutFrame) :
    (begunTx s p o).pending = s.pending ∧ (begunTx s p o).otp = s.otp := by
  simp [begunTx]
@[simp] theorem interrupt_keep (s : State) (p : Nat) :
    (interrupt s p).pending = s.pending ∧ (interrupt s p).otp = s.otp := by
  simp [interrupt]
@[simp] theorem occupy_keep (s : State) (p : Nat) (o : OutFrame) :
    (occupy s p o).pending = s.pending ∧ (occupy s p o).otp = s.otp := by
  simp [occupy]
@[simp] theorem closeOut_keep (s : State) (p : Nat) (o : OutFrame) :
    (closeOut s p o).pending = s.pending ∧ (closeOut s p o).otp = s.otp := by
  simp [closeOut]
@[simp] theorem closeTx_keep (s : State) (p : Nat) :
    (closeTx s p).pending = s.pending ∧ (closeTx s p).otp = s.otp := by
  unfold closeTx
  (repeat' split) <;> simp
@[simp] theorem wholeSent_keep (c : Nat) (bytes : List Byte) (p : Nat) (s : State) (o : OutFrame) :
    (wholeSent c bytes p s o).pending = s.pending ∧ (wholeSent c bytes p s o).otp = s.otp := by
  unfold wholeSent
  (try dsimp only)
  repeat' (first | (simp [*]; done) | intro _ | apply And.intro | apply fold_p | apply fold_o | apply ffold_p | apply ffold_o | simp | (split <;> (try (rename_i hq; have hh := fst_of hq; subst hh; clear hq))))
@[simp] theorem wholeWaiting_keep (c : Nat) (bytes : List Byte) (p : Nat) (s : State) (o : OutFrame) :
    (wholeWaiting c bytes p s o).pending = s.pending ∧ (wholeWaiting c bytes p s o).otp = s.otp := by
  unfold wholeWaiting
  (try dsimp only)
  repeat' (first | (simp [*]; done) | intro _ | apply And.intro | apply fold_p | apply fold_o | apply ffold_p | apply ffold_o | simp | (split <;> (try (rename_i hq; have hh := fst_of hq; subst hh; clear hq))))
@[simp] theorem wholePort_keep (c : Nat) (bytes : List Byte) (s : State) (p : Nat) :
    (wholePort c bytes s p).pending = s.pending ∧ (wholePort c bytes s p).otp = s.otp := by
  unfold wholePort
  (try dsimp only)
  repeat' (first | (simp [*]; done) | intro _ | apply And.intro | apply fold_p | apply fold_o | apply ffold_p | apply ffold_o | simp | (split <;> (try (rename_i hq; have hh := fst_of hq; subst hh; clear hq))))
@[simp] theorem frameWhole_keep (s : State) (c : Nat) :
    (frameWhole s c).pending = s.pending ∧ (frameWhole s c).otp = s.otp := by
  unfold frameWhole
  (try dsimp only)
  repeat' (first | (simp [*]; done) | intro _ | apply And.intro | apply fold_p | apply fold_o | apply ffold_p | apply ffold_o | simp | (split <;> (try (rename_i hq; have hh := fst_of hq; subst hh; clear hq))))
@[simp] theorem dropCopies_keep (pick : OutFrame → Bool) (s : State) (p : Nat) :
    (dropCopies pick s p).pending = s.pending ∧ (dropCopies pick s p).otp = s.otp := by
  simp [dropCopies]
@[simp] theorem abortCopies_keep (s : State) (c : Nat) :
    (abortCopies s c).pending = s.pending ∧ (abortCopies s c).otp = s.otp := by
  unfold abortCopies
  (try dsimp only)
  repeat' (first | (simp [*]; done) | intro _ | apply And.intro | apply fold_p | apply fold_o | apply ffold_p | apply ffold_o | simp | (split <;> (try (rename_i hq; have hh := fst_of hq; subst hh; clear hq))))
@[simp] theorem abortWhole_keep (s : State) (sl c : Nat) :
    (abortWhole s sl c).pending = s.pending ∧ (abortWhole s sl c).otp = s.otp := by
  simp [abortWhole]

/-! ### Links -/

@[simp] theorem noteClear_keep (s : State) :
    (noteClear s).pending = s.pending ∧ (noteClear s).otp = s.otp := by
  simp [noteClear]
@[simp] theorem moveBucket_keep (g b dst : Nat) (skip : Bool) (s : State) :
    (moveBucket g b dst skip s).pending = s.pending ∧ (moveBucket g b dst skip s).otp = s.otp := by
  simp [moveBucket]
@[simp] theorem placeHeld_keep (s : State) (e : Env) :
    (placeHeld s e).pending = s.pending ∧ (placeHeld s e).otp = s.otp := by
  simp [placeHeld]
@[simp] theorem endMove_keep (s : State) (g b : Nat) :
    (endMove s g b).pending = s.pending ∧ (endMove s g b).otp = s.otp := by
  unfold endMove
  (repeat' split) <;> simp
@[simp] theorem regroup_keep (s : State) (g : Nat) :
    (regroup s g).pending = s.pending ∧ (regroup s g).otp = s.otp := by
  show Keeps s (regroup s g)
  unfold regroup
  dsimp only
  refine Keeps.ite (Keeps.refl s) (Keeps.ite (State.withGroup_keep _ _ _) (Keeps.fold (Keeps.refl s) fun t b => ?_))
  split
  · exact Keeps.ite (Keeps.refl t) (State.withGroup_keep _ _ _)
  · exact Keeps.ite (Keeps.refl t) (moveBucket_keep _ _ _ _ _)
@[simp] theorem regroupAll_keep (s : State) :
    (regroupAll s).pending = s.pending ∧ (regroupAll s).otp = s.otp := by
  simp [regroupAll]
@[simp] theorem putJoined_keep (s : State) :
    (putJoined s).pending = s.pending ∧ (putJoined s).otp = s.otp := by
  simp [putJoined]
@[simp] theorem courLaneStat_keep (s : State) (k st : Nat) :
    (courLaneStat s k st).pending = s.pending ∧ (courLaneStat s k st).otp = s.otp := by
  simp [courLaneStat]
@[simp] theorem courLockLost_keep (s : State) (k : Nat) :
    (courLockLost s k).pending = s.pending ∧ (courLockLost s k).otp = s.otp := by
  simp [courLockLost]
@[simp] theorem enterLink_keep (s : State) (k st : Nat) :
    (enterLink s k st).pending = s.pending ∧ (enterLink s k st).otp = s.otp := by
  simp [enterLink]
@[simp] theorem reroute_keep (s : State) (k : Nat) :
    (reroute s k).pending = s.pending ∧ (reroute s k).otp = s.otp := by
  show Keeps s (reroute s k)
  unfold reroute
  refine Keeps.fold (Keeps.refl s) fun t h => Keeps.fold ⟨rfl, rfl⟩ fun t e => ?_
  have hc : Keeps t (courPlace t e).1 := courPlace_keep _ _
  have h1 : Keeps t (if hasFrame (courPlace t e).1 (eCell e) then (courPlace t e).1.setFrame (eCell e) { (courPlace t e).1.frame (eCell e) with charges := ((courPlace t e).1.frame (eCell e)).charges.erase h } else (courPlace t e).1) :=
    Keeps.ite (hc.trans (State.setFrame_keep _ _ _)) hc
  refine Keeps.ite (intoPh_keep _ _ _) (Keeps.ite (hc.trans (intoPh_keep _ _ _)) (Keeps.ite (h1.trans (dropRef_keep _ _ _)) (Keeps.ite h1 ?_)))
  split <;> (rename_i hq; have hh := fst_of hq; subst hh)
  · exact (h1.trans (admitAt_keep _ _ _)).trans (intoPh_keep _ _ _)
  · exact (h1.trans (admitAt_keep _ _ _)).trans (dropRef_keep _ _ _)
@[simp] theorem layAside_keep (s : State) (k : Nat) :
    (layAside s k).pending = s.pending ∧ (layAside s k).otp = s.otp := by
  simp [layAside]
@[simp] theorem bringBack_keep (s : State) (x : Nat × Nat × List Env) :
    (bringBack s x).pending = s.pending ∧ (bringBack s x).otp = s.otp := by
  simp [bringBack]
@[simp] theorem linkGone_keep (s t : State) (k : Nat) :
    (linkGone s t k).pending = t.pending ∧ (linkGone s t k).otp = t.otp := by
  show Keeps t (linkGone s t k)
  unfold linkGone
  exact Keeps.fold (Keeps.trans (Keeps.fold (Keeps.trans (Keeps.trans (layAside_keep t k) (regroupAll_keep _)) (reroute_keep _ k)) fun t x => bringBack_keep t x) (noteClear_keep _))
    fun u d => State.raise_keep _ _ _ _ _ _ _
@[simp] theorem linkClear_keep (s : State) (k : Nat) :
    (linkClear s k).pending = s.pending ∧ (linkClear s k).otp = s.otp := by
  simp [linkClear]
@[simp] theorem failLink_keep (s : State) (k why : Nat) :
    (failLink s k why).pending = s.pending ∧ (failLink s k why).otp = s.otp := by
  unfold failLink
  (try dsimp only)
  repeat' (first | (simp [*]; done) | intro _ | apply And.intro | apply fold_p | apply fold_o | apply ffold_p | apply ffold_o | simp | (split <;> (try (rename_i hq; have hh := fst_of hq; subst hh; clear hq))))
@[simp] theorem downLink_keep (s : State) (k : Nat) :
    (downLink s k).pending = s.pending ∧ (downLink s k).otp = s.otp := by
  unfold downLink
  (try dsimp only)
  repeat' (first | (simp [*]; done) | intro _ | apply And.intro | apply fold_p | apply fold_o | apply ffold_p | apply ffold_o | simp | (split <;> (try (rename_i hq; have hh := fst_of hq; subst hh; clear hq))))
@[simp] theorem unlockLink_keep (s : State) (k : Nat) :
    (unlockLink s k).pending = s.pending ∧ (unlockLink s k).otp = s.otp := by
  simp [unlockLink]
@[simp] theorem unlockGroup_keep (s : State) (g : Nat) :
    (unlockGroup s g).pending = s.pending ∧ (unlockGroup s g).otp = s.otp := by
  simp [unlockGroup]
@[simp] theorem markQueued_keep (s : State) (k : Nat) :
    (markQueued s k).pending = s.pending ∧ (markQueued s k).otp = s.otp := by
  simp [markQueued]
@[simp] theorem leaveLink_keep (s : State) (k : Nat) :
    (leaveLink s k).pending = s.pending ∧ (leaveLink s k).otp = s.otp := by
  unfold leaveLink
  (try dsimp only)
  repeat' (first | (simp [*]; done) | intro _ | apply And.intro | apply fold_p | apply fold_o | apply ffold_p | apply ffold_o | simp | (split <;> (try (rename_i hq; have hh := fst_of hq; subst hh; clear hq))))
@[simp] theorem linksRefresh_keep (s : State) :
    (linksRefresh s).pending = s.pending ∧ (linksRefresh s).otp = s.otp := by
  simp [linksRefresh]
theorem linkGone_keeps (s t : State) (k : Nat) : Keeps t (linkGone s t k) := linkGone_keep s t k
theorem markQueued_keeps (t : State) (k : Nat) : Keeps t (markQueued t k) := markQueued_keep t k
theorem enterLink_keeps (t : State) (k n : Nat) : Keeps t (enterLink t k n) := enterLink_keep t k n
@[simp] theorem leaveAll_keep (s : State) (l : List Nat) : (leaveAll s l).pending = s.pending ∧ (leaveAll s l).otp = s.otp := by
  cases l with
  | nil => exact ⟨rfl, rfl⟩
  | cons k r =>
    show Keeps s (leaveAll s (k :: r))
    simp only [leaveAll]
    refine Keeps.fold ?_ fun t j => markQueued_keeps t j
    refine Keeps.fold ?_ fun t j => linkGone_keeps t t j
    refine Keeps.trans ?_ (linkGone_keeps s _ k)
    exact Keeps.fold (Keeps.refl s) fun t j => enterLink_keeps t j 6
@[simp] theorem linksLeave_keep (s : State) :
    (linksLeave s).pending = s.pending ∧ (linksLeave s).otp = s.otp := by
  simp [linksLeave]

/-! ### Ports -/

@[simp] theorem meterJudge_keep (s : State) (p len t : Nat) :
    (meterJudge s p len t).pending = s.pending ∧ (meterJudge s p len t).otp = s.otp := by
  simp [meterJudge]
@[simp] theorem admitFrame_keep (s : State) (p cell cls pm : Nat) :
    (admitFrame s p cell cls pm).1.pending = s.pending ∧ (admitFrame s p cell cls pm).1.otp = s.otp := by
  simp [admitFrame]
@[simp] theorem refuseFrame_keep (s : State) (p cls : Nat) :
    (refuseFrame s p cls).pending = s.pending ∧ (refuseFrame s p cls).otp = s.otp := by
  simp [refuseFrame]
@[simp] theorem formFrame_keep (s : State) (p : Nat) (r : RxFrame) (bytes : List Byte) (len hv : Nat) :
    (formFrame s p r bytes len hv).pending = s.pending ∧ (formFrame s p r bytes len hv).otp = s.otp := by
  simp [formFrame]
@[simp] theorem endErroredOf_keep (s : State) (p : Nat) (r : RxFrame) :
    (endErroredOf s p r).pending = s.pending ∧ (endErroredOf s p r).otp = s.otp := by
  simp [endErroredOf]
@[simp] theorem endErrored_keep (s : State) (p : Nat) :
    (endErrored s p).pending = s.pending ∧ (endErrored s p).otp = s.otp := by
  unfold endErrored
  (repeat' split) <;> simp
@[simp] theorem rxMeter_keep (s : State) (p : Nat) (r : RxFrame) :
    (rxMeter s p r).pending = s.pending ∧ (rxMeter s p r).otp = s.otp := by
  simp [rxMeter]
@[simp] theorem endAllErrored_keep (s : State) (p : Nat) :
    (endAllErrored s p).pending = s.pending ∧ (endAllErrored s p).otp = s.otp := by
  simp [endAllErrored]
@[simp] theorem rxStats_keep (s : State) (p : Nat) (bytes : List Byte) (express : Bool) :
    (rxStats s p bytes express).pending = s.pending ∧ (rxStats s p bytes express).otp = s.otp := by
  simp [rxStats]
@[simp] theorem endGood_keep (s : State) (p : Nat) (r : RxFrame) (bytes : List Byte) :
    (endGood s p r bytes).pending = s.pending ∧ (endGood s p r bytes).otp = s.otp := by
  simp [endGood]
@[simp] theorem endSecured_keep (s : State) (p : Nat) (r : RxFrame) (bytes : List Byte) :
    (endSecured s p r bytes).pending = s.pending ∧ (endSecured s p r bytes).otp = s.otp := by
  unfold endSecured
  (try dsimp only)
  repeat' (first | (simp [*]; done) | intro _ | apply And.intro | apply fold_p | apply fold_o | apply ffold_p | apply ffold_o | simp | (split <;> (try (rename_i hq; have hh := fst_of hq; subst hh; clear hq))))
@[simp] theorem formPast_keep (s : State) (p : Nat) (r : RxFrame) (bytes : List Byte) :
    (formPast s p r bytes).1.pending = s.pending ∧ (formPast s p r bytes).1.otp = s.otp := by
  simp [formPast]
@[simp] theorem refuseCell_keep (s : State) (c : Nat) :
    (refuseCell s c).pending = s.pending ∧ (refuseCell s c).otp = s.otp := by
  simp [refuseCell]
@[simp] theorem preemptEval_keep (s : State) (p : Nat) :
    (preemptEval s p).pending = s.pending ∧ (preemptEval s p).otp = s.otp := by
  simp [preemptEval]
@[simp] theorem portDown_keep (s : State) (p : Nat) :
    (portDown s p).pending = s.pending ∧ (portDown s p).otp = s.otp := by
  simp [portDown]
@[simp] theorem modeEffects_keep (s : State) (lane : Nat) :
    (modeEffects s lane).pending = s.pending ∧ (modeEffects s lane).otp = s.otp := by
  simp [modeEffects]
@[simp] theorem laneOff_keep (s : State) (lane : Nat) :
    (laneOff s lane).pending = s.pending ∧ (laneOff s lane).otp = s.otp := by
  simp [laneOff]
@[simp] theorem takeTsq_keep (m port : Nat) (s : State) :
    (takeTsq m port s).pending = s.pending ∧ (takeTsq m port s).otp = s.otp := by
  unfold takeTsq
  (repeat' split) <;> simp
@[simp] theorem tsqRead_keep (m port : Nat) (s : State) :
    (tsqRead m port s).pending = s.pending ∧ (tsqRead m port s).otp = s.otp := by
  simp [tsqRead]

/-! ### Graphs -/

@[simp] theorem graphDone_keep (s : State) (err : Nat) :
    (graphDone s err).pending = s.pending ∧ (graphDone s err).otp = s.otp := by
  simp [graphDone]
@[simp] theorem installGraph_keep (s : State) (d : DramSt) (a g : Nat) :
    (installGraph s d a g).pending = s.pending ∧ (installGraph s d a g).otp = s.otp := by
  simp [installGraph]
@[simp] theorem clearGraph_keep (s : State) (g : Nat) :
    (clearGraph s g).pending = s.pending ∧ (clearGraph s g).otp = s.otp := by
  simp [clearGraph]
@[simp] theorem stopGraph_keep (s : State) (g : Nat) :
    (stopGraph s g).pending = s.pending ∧ (stopGraph s g).otp = s.otp := by
  simp [stopGraph]
@[simp] theorem unloadGraph_keep (s : State) (g : Nat) :
    (unloadGraph s g).pending = s.pending ∧ (unloadGraph s g).otp = s.otp := by
  simp [unloadGraph]

/-! ### Tenancy -/

@[simp] theorem voidTransit_keep (s : State) (t : Nat) :
    (voidTransit s t).pending = s.pending ∧ (voidTransit s t).otp = s.otp := by
  simp [voidTransit]
@[simp] theorem clearVoqs_keep (s : State) (t : Nat) :
    (clearVoqs s t).pending = s.pending ∧ (clearVoqs s t).otp = s.otp := by
  simp [clearVoqs]
@[simp] theorem emptied_keep (s : State) (h : Nat) :
    (emptied s h).pending = s.pending ∧ (emptied s h).otp = s.otp := by
  simp [emptied]
@[simp] theorem clearPhs_keep (s : State) (t : Nat) :
    (clearPhs s t).pending = s.pending ∧ (clearPhs s t).otp = s.otp := by
  simp [clearPhs]
@[simp] theorem clearRegion_keep (s : State) (t : Nat) :
    (clearRegion s t).pending = s.pending ∧ (clearRegion s t).otp = s.otp := by
  simp [clearRegion]
@[simp] theorem drainEngines_keep (s : State) (threads : List Nat) :
    (drainEngines s threads).pending = s.pending ∧ (drainEngines s threads).otp = s.otp := by
  simp [drainEngines]
@[simp] theorem clearPages_keep (s : State) (t : Nat) (threads : List Nat) :
    (clearPages s t threads).pending = s.pending ∧ (clearPages s t threads).otp = s.otp := by
  simp [clearPages]
@[simp] theorem endGraph_keep (s : State) (g : Nat) :
    (endGraph s g).pending = s.pending ∧ (endGraph s g).otp = s.otp := by
  simp [endGraph]
@[simp] theorem endTenancy_keep (s : State) (t : Nat) (threads : List Nat) :
    (endTenancy s t threads).pending = s.pending ∧ (endTenancy s t threads).otp = s.otp := by
  simp [endTenancy]
@[simp] theorem resetTenancy_keep (t : Nat) (s : State) :
    (resetTenancy t s).pending = s.pending ∧ (resetTenancy t s).otp = s.otp := by
  simp [resetTenancy]
@[simp] theorem fillSlot_keep (val : Word) (s : State) :
    (fillSlot val s).pending = s.pending ∧ (fillSlot val s).otp = s.otp := by
  simp [fillSlot]
@[simp] theorem ivsUsed_keep (s : State) :
    (ivsUsed s).pending = s.pending ∧ (ivsUsed s).otp = s.otp := by
  simp [ivsUsed]

/-! ### Life -/

@[simp] theorem State.settleCkpt_keep (s : State) :
    (State.settleCkpt s).pending = s.pending ∧ (State.settleCkpt s).otp = s.otp := by
  unfold State.settleCkpt
  (repeat' split) <;> simp
@[simp] theorem State.dropCkpt_keep (s : State) :
    (State.dropCkpt s).pending = s.pending ∧ (State.dropCkpt s).otp = s.otp := by
  unfold State.dropCkpt
  (repeat' split) <;> simp
@[simp] theorem remapBlock_keep (s : State) (slot b : Nat) :
    (remapBlock s slot b).pending = s.pending ∧ (remapBlock s slot b).otp = s.otp := by
  simp [remapBlock]
@[simp] theorem readSaves_keep (c : CellarSt) (badSlots : List Nat) (s : State) :
    (readSaves c badSlots s).pending = s.pending ∧ (readSaves c badSlots s).otp = s.otp := by
  simp [readSaves]
@[simp] theorem enterEntry_keep (s : State) (start : Nat) (badSlots badKeys : List Nat) :
    (enterEntry s start badSlots badKeys).pending = s.pending ∧ (enterEntry s start badSlots badKeys).otp = s.otp := by
  unfold enterEntry
  dsimp only
  (repeat' split) <;> simp
@[simp] theorem startSave_keep (s : State) (kind : Nat) :
    (startSave s kind).pending = s.pending ∧ (startSave s kind).otp = s.otp := by
  simp [startSave]
@[simp] theorem beginHoldup_keep (s : State) (kind : Nat) :
    (beginHoldup s kind).pending = s.pending ∧ (beginHoldup s kind).otp = s.otp := by
  unfold beginHoldup
  (repeat' split) <;> simp
@[simp] theorem State.failLanes_keep (s : State) (lanes : List Nat) :
    (State.failLanes s lanes).pending = s.pending ∧ (State.failLanes s lanes).otp = s.otp := by
  simp [State.failLanes]
@[simp] theorem State.beginWithdraw_keep (s : State) :
    (State.beginWithdraw s).pending = s.pending ∧ (State.beginWithdraw s).otp = s.otp := by
  simp [State.beginWithdraw]
@[simp] theorem lifeCtlAct_keep (val : Word) (s : State) :
    (lifeCtlAct val s).pending = s.pending ∧ (lifeCtlAct val s).otp = s.otp := by
  simp [lifeCtlAct]
@[simp] theorem discardHeld_keep (s : State) :
    (discardHeld s).pending = s.pending ∧ (discardHeld s).otp = s.otp := by
  simp [discardHeld]
@[simp] theorem stopGraphs_keep (s : State) :
    (stopGraphs s).pending = s.pending ∧ (stopGraphs s).otp = s.otp := by
  simp [stopGraphs]
@[simp] theorem haltAll_keep (s : State) :
    (haltAll s).pending = s.pending ∧ (haltAll s).otp = s.otp := by
  simp [haltAll]
@[simp] theorem State.startTest_keep (s : State) :
    (State.startTest s).pending = s.pending ∧ (State.startTest s).otp = s.otp := by
  simp [State.startTest]

/-! ### Epoch -/

@[simp] theorem judgePeer_keep (s : State) (k : Nat) :
    (judgePeer s k).pending = s.pending ∧ (judgePeer s k).otp = s.otp := by
  simp [judgePeer]
@[simp] theorem judgePeers_keep (s : State) :
    (judgePeers s).pending = s.pending ∧ (judgePeers s).otp = s.otp := by
  simp [judgePeers]
@[simp] theorem commitSlice_keep (s : State) (i : Nat) :
    (commitSlice s i).pending = s.pending ∧ (commitSlice s i).otp = s.otp := by
  simp [commitSlice]
@[simp] theorem swapPortMap_keep (s : State) (i : Nat) :
    (swapPortMap s i).pending = s.pending ∧ (swapPortMap s i).otp = s.otp := by
  simp [swapPortMap]
@[simp] theorem swapCopies_keep (s : State) :
    (swapCopies s).pending = s.pending ∧ (swapCopies s).otp = s.otp := by
  simp [swapCopies]
@[simp] theorem swapSeal_keep (s : State) :
    (swapSeal s).pending = s.pending ∧ (swapSeal s).otp = s.otp := by
  simp [swapSeal]
@[simp] theorem releaseSlice_keep (s : State) (i : Nat) :
    (releaseSlice s i).pending = s.pending ∧ (releaseSlice s i).otp = s.otp := by
  simp [releaseSlice]
@[simp] theorem refreshCopies_keep (s : State) :
    (refreshCopies s).pending = s.pending ∧ (refreshCopies s).otp = s.otp := by
  simp [refreshCopies]

/-! ### Parcels -/

@[simp] theorem secureParcel_keep (s : State) (k : Nat) (b : List Byte) :
    (secureParcel s k b).1.pending = s.pending ∧ (secureParcel s k b).1.otp = s.otp := by
  simp [secureParcel]
@[simp] theorem openParcel_keep (s : State) (k : Nat) (b : List Byte) :
    (openParcel s k b).1.pending = s.pending ∧ (openParcel s k b).1.otp = s.otp := by
  unfold openParcel
  dsimp only
  (repeat' split) <;> simp
@[simp] theorem parcelStats_keep (s : State) (k i n : Nat) (b : List Byte) :
    (parcelStats s k i n b).pending = s.pending ∧ (parcelStats s k i n b).otp = s.otp := by
  simp [parcelStats]
@[simp] theorem transmit_keep (s : State) (k : Nat) (b : List Byte) :
    (transmit s k b).pending = s.pending ∧ (transmit s k b).otp = s.otp := by
  unfold transmit
  (try dsimp only)
  repeat' (first | (simp [*]; done) | intro _ | apply And.intro | apply fold_p | apply fold_o | apply ffold_p | apply ffold_o | simp | (split <;> (try (rename_i hq; have hh := fst_of hq; subst hh; clear hq))))
@[simp] theorem sendCtl_keep (s : State) (k typ : Nat) (payload : List Byte) :
    (sendCtl s k typ payload).pending = s.pending ∧ (sendCtl s k typ payload).otp = s.otp := by
  simp [sendCtl]
@[simp] theorem sendSeq_keep (s : State) (k : Nat) (x : ParcelInfo) (payload : List Byte) (tag : Nat) :
    (sendSeq s k x payload tag).pending = s.pending ∧ (sendSeq s k x payload tag).otp = s.otp := by
  simp [sendSeq]
@[simp] theorem flushCtl_keep (k n : Nat) (s : State) : (flushCtl k n s).pending = s.pending ∧ (flushCtl k n s).otp = s.otp := by
  induction n generalizing s with
  | zero => exact ⟨rfl, rfl⟩
  | succ n ih =>
    unfold flushCtl
    split
    · exact ⟨rfl, rfl⟩
    · split
      · simp [ih]
      · exact ⟨rfl, rfl⟩
@[simp] theorem queueCtl_keep (s : State) (k typ : Nat) (payload : List Byte) :
    (queueCtl s k typ payload).pending = s.pending ∧ (queueCtl s k typ payload).otp = s.otp := by
  simp [queueCtl]
@[simp] theorem replay_keep (s : State) (k : Nat) :
    (replay s k).pending = s.pending ∧ (replay s k).otp = s.otp := by
  show Keeps s (replay s k)
  unfold replay
  dsimp only
  have h : Keeps s (((((s.link k).unacked.foldl (fun t p => transmit t k (parcelRenew s k p.bytes)) s).withLink k fun l =>
    { l with unacked := l.unacked.map fun p => { p with bytes := parcelRenew s k p.bytes }, timerAt := s.up, genSince := l.genSince + replayBytes l false }).count (Reg.courReplayCnt k)).setRf (Reg.linkStat k) 16 13 (s.rf (Reg.linkStat k) 16 13 + 1)) :=
    Keeps.trans (Keeps.trans (Keeps.trans (Keeps.fold (Keeps.refl s) fun t p => transmit_keep _ _ _) (State.withLink_keep _ _ _)) (State.count_keep _ _ _)) (State.setRf_keep _ _ _ _ _)
  exact Keeps.ite (h.trans (failLink_keep _ _ _)) h
@[simp] theorem takeAck_keep (s : State) (k a rfree : Nat) :
    (takeAck s k a rfree).pending = s.pending ∧ (takeAck s k a rfree).otp = s.otp := by
  simp [takeAck]
@[simp] theorem receiveSeq_keep (s : State) (k : Nat) (b : List Byte) (deliver : State → State) (h_deliver : ∀ x0, (deliver x0).pending = x0.pending ∧ (deliver x0).otp = x0.otp) :
    (receiveSeq s k b deliver).pending = s.pending ∧ (receiveSeq s k b deliver).otp = s.otp := by
  unfold receiveSeq
  (try dsimp only)
  repeat' (first | (simp [*]; done) | intro _ | apply And.intro | apply fold_p | apply fold_o | apply ffold_p | apply ffold_o | simp | (split <;> (try (rename_i hq; have hh := fst_of hq; subst hh; clear hq))))
@[simp] theorem takeHello_keep (k : Nat) (b : List Byte) (s : State) :
    (takeHello k b s).pending = s.pending ∧ (takeHello k b s).otp = s.otp := by
  simp [takeHello]

/-! ### Courier -/

@[simp] theorem takeHeartbeat_keep (k : Nat) (b : List Byte) (s : State) :
    (takeHeartbeat k b s).pending = s.pending ∧ (takeHeartbeat k b s).otp = s.otp := by
  simp [takeHeartbeat]
@[simp] theorem deliverData_keep (k t : Nat) (b : List Byte) (s : State) :
    (deliverData k t b s).pending = s.pending ∧ (deliverData k t b s).otp = s.otp := by
  simp [deliverData]
@[simp] theorem forwardRx_keep (k n : Nat) (s : State) : (forwardRx k n s).pending = s.pending ∧ (forwardRx k n s).otp = s.otp := by
  induction n generalizing s with
  | zero => exact ⟨rfl, rfl⟩
  | succ n ih =>
    unfold forwardRx
    dsimp only
    split
    · exact ⟨rfl, rfl⟩
    · split <;> simp [ih]
@[simp] theorem forwardAll_keep (s : State) (k : Nat) :
    (forwardAll s k).pending = s.pending ∧ (forwardAll s k).otp = s.otp := by
  simp [forwardAll]
@[simp] theorem acceptData_keep (k pm : Nat) (b : List Byte) (s : State) :
    (acceptData k pm b s).pending = s.pending ∧ (acceptData k pm b s).otp = s.otp := by
  simp [acceptData]
@[simp] theorem reseedAll_keep (s : State) :
    (reseedAll s).pending = s.pending ∧ (reseedAll s).otp = s.otp := by
  simp [reseedAll]

/-! ### Mailbox -/

@[simp] theorem setMbxWord_keep (s : State) (f ofs : Nat) (v : Word) :
    (setMbxWord s f ofs v).pending = s.pending ∧ (setMbxWord s f ofs v).otp = s.otp := by
  simp [setMbxWord]
@[simp] theorem mbxDone_keep (s : State) (f status rlen tag : Nat) :
    (mbxDone s f status rlen tag).pending = s.pending ∧ (mbxDone s f status rlen tag).otp = s.otp := by
  show Keeps s (mbxDone s f status rlen tag)
  unfold mbxDone
  dsimp only
  refine Keeps.trans (Keeps.trans (t := { s with mbxQ := s.mbxQ.filter (· != f), mbxFw := mapErase s.mbxFw f, mbxRung := s.mbxRung.filter (· != f) }) ⟨rfl, rfl⟩ (State.setReg_keep _ _ _)) (State.msixSend_keep _ _ _)
@[simp] theorem mbxAnswer_keep (s : State) (f status : Nat) (data : List Byte) :
    (mbxAnswer s f status data).pending = s.pending ∧ (mbxAnswer s f status data).otp = s.otp := by
  simp [mbxAnswer]
@[simp] theorem handRequest_keep (s : State) (f : Nat) :
    (handRequest s f).pending = s.pending ∧ (handRequest s f).otp = s.otp := by
  simp [handRequest]
@[simp] theorem flashPut_keep (s : State) (a : Nat) (b : List Byte) :
    (flashPut s a b).pending = s.pending ∧ (flashPut s a b).otp = s.otp := by
  simp [flashPut]

/-! ### Recorder -/

@[simp] theorem recFresh_keep (s : State) :
    (recFresh s).pending = s.pending ∧ (recFresh s).otp = s.otp := by
  simp [recFresh]
@[simp] theorem recArmed_keep (s : State) :
    (recArmed s).pending = s.pending ∧ (recArmed s).otp = s.otp := by
  simp [recArmed]
@[simp] theorem recEnabled_keep (wasOn : Bool) (s : State) :
    (recEnabled wasOn s).pending = s.pending ∧ (recEnabled wasOn s).otp = s.otp := by
  simp [recEnabled]

/-! ### SideBus -/

@[simp] theorem State.withSb_keep (s : State) (f : SbSt → SbSt) :
    (State.withSb s f).pending = s.pending ∧ (State.withSb s f).otp = s.otp := by
  simp [State.withSb]
@[simp] theorem sbComplete_keep (s : State) (slot status : Nat) :
    (sbComplete s slot status).pending = s.pending ∧ (sbComplete s slot status).otp = s.otp := by
  simp [sbComplete]
@[simp] theorem sbNext_keep (s : State) :
    (sbNext s).pending = s.pending ∧ (sbNext s).otp = s.otp := by
  unfold sbNext
  dsimp only
  (repeat' split) <;> simp
@[simp] theorem sbGo_keep (slot : Nat) (val : Word) (s : State) :
    (sbGo slot val s).pending = s.pending ∧ (sbGo slot val s).otp = s.otp := by
  simp [sbGo]
@[simp] theorem sbTake_keep (s : State) (slot : Nat) (data : List Byte) :
    (sbTake s slot data).pending = s.pending ∧ (sbTake s slot data).otp = s.otp := by
  simp [sbTake]
@[simp] theorem sbAllDead_keep (s : State) :
    (sbAllDead s).pending = s.pending ∧ (sbAllDead s).otp = s.otp := by
  simp [sbAllDead]

/-! ### Stats -/

@[simp] theorem snapSet_keep (s : State) (base n : Nat) :
    (snapSet s base n).pending = s.pending ∧ (snapSet s base n).otp = s.otp := by
  simp [snapSet]
@[simp] theorem zeroSet_keep (s : State) (base n : Nat) :
    (zeroSet s base n).pending = s.pending ∧ (zeroSet s base n).otp = s.otp := by
  simp [zeroSet]
@[simp] theorem lineCounted_keep (s : State) (ofs : Nat) :
    (lineCounted s ofs).pending = s.pending ∧ (lineCounted s ofs).otp = s.otp := by
  simp [lineCounted]
@[simp] theorem clearCounters_keep (s : State) (all : Bool) (island : Nat) :
    (clearCounters s all island).pending = s.pending ∧ (clearCounters s all island).otp = s.otp := by
  simp [clearCounters]

/-! ### Windows -/

@[simp] theorem readTagged_keep (s : State) (m : Nat) (w : TWord) (bad : Bool) :
    (readTagged s m w bad).pending = s.pending ∧ (readTagged s m w bad).otp = s.otp := by
  simp [readTagged]
@[simp] theorem engmemWrite_keep (m ofs : Nat) (val : Word) (s : State) :
    (engmemWrite m ofs val s).pending = s.pending ∧ (engmemWrite m ofs val s).otp = s.otp := by
  simp [engmemWrite]
@[simp] theorem engmemRead_keep (m ofs : Nat) (s : State) :
    (engmemRead m ofs s).pending = s.pending ∧ (engmemRead m ofs s).otp = s.otp := by
  simp [engmemRead]
@[simp] theorem parseApply_keep (ofs sl : Nat) (w0 w1 : Word) (s : State) :
    (parseApply ofs sl w0 w1 s).pending = s.pending ∧ (parseApply ofs sl w0 w1 s).otp = s.otp := by
  simp [parseApply]
@[simp] theorem parseWrite_keep (m ofs : Nat) (val : Word) (s : State) :
    (parseWrite m ofs val s).pending = s.pending ∧ (parseWrite m ofs val s).otp = s.otp := by
  simp [parseWrite]
@[simp] theorem edtplWrite_keep (m ofs : Nat) (val : Word) (s : State) :
    (edtplWrite m ofs val s).pending = s.pending ∧ (edtplWrite m ofs val s).otp = s.otp := by
  simp [edtplWrite]
@[simp] theorem gclWrite_keep (m ofs : Nat) (val : Word) (s : State) :
    (gclWrite m ofs val s).pending = s.pending ∧ (gclWrite m ofs val s).otp = s.otp := by
  simp [gclWrite]
@[simp] theorem macsecWrite_keep (m ofs : Nat) (val : Word) (s : State) :
    (macsecWrite m ofs val s).pending = s.pending ∧ (macsecWrite m ofs val s).otp = s.otp := by
  unfold macsecWrite
  (try dsimp only)
  repeat' (first | (simp [*]; done) | intro _ | apply And.intro | apply fold_p | apply fold_o | apply ffold_p | apply ffold_o | simp | (split <;> (try (rename_i hq; have hh := fst_of hq; subst hh; clear hq))))
@[simp] theorem sysblkWrite_keep (m ofs : Nat) (val : Word) (s : State) :
    (sysblkWrite m ofs val s).pending = s.pending ∧ (sysblkWrite m ofs val s).otp = s.otp := by
  simp [sysblkWrite]
@[simp] theorem windowRead_keep (m ofs : Nat) (s : State) :
    (windowRead m ofs s).pending = s.pending ∧ (windowRead m ofs s).otp = s.otp := by
  simp [windowRead]

/-! ### Registers -/

@[simp] theorem writeEffect_keep (s t : State) (k : Nat) (v : Word) :
    (writeEffect s t k v).pending = t.pending ∧ (writeEffect s t k v).otp = t.otp := by
  simp [writeEffect]
@[simp] theorem fieldsTake_keep (m k : Nat) (d : RegDesc) (v : Word) (s : State) :
    (fieldsTake m k d v s).pending = s.pending ∧ (fieldsTake m k d v s).otp = s.otp := by
  unfold fieldsTake
  (repeat' split) <;> simp
@[simp] theorem plainWrite_keep (m ofs : Nat) (v : Word) (s : State) :
    (plainWrite m ofs v s).pending = s.pending ∧ (plainWrite m ofs v s).otp = s.otp := by
  unfold plainWrite
  refine State.issue_keep _ _ _ _ _ _ fun t0 => State.access_keep _ _ _ _ fun t => ?_
  dsimp only
  split
  · simp
  · split
    · exact ⟨rfl, rfl⟩
    · split <;> simp
@[simp] theorem latchHi_keep (m k : Nat) (s : State) :
    (latchHi m k s).pending = s.pending ∧ (latchHi m k s).otp = s.otp := by
  simp [latchHi]
@[simp] theorem plainRead_keep (m ofs : Nat) (s : State) :
    (plainRead m ofs s).pending = s.pending ∧ (plainRead m ofs s).otp = s.otp := by
  unfold plainRead
  dsimp only
  (repeat' split) <;> simp
@[simp] theorem barRead_keep (m ofs : Nat) (s : State) :
    (barRead m ofs s).pending = s.pending ∧ (barRead m ofs s).otp = s.otp := by
  simp [barRead]

/-! ### Boot -/

@[simp] theorem putBoot_keep (s : State) (r : BootRes) :
    (putBoot s r).pending = s.pending ∧ (putBoot s r).otp = s.otp := by
  simp [putBoot]
@[simp] theorem loadShm_keep (ofs : Nat) (b : List Byte) (s : State) :
    (loadShm ofs b s).pending = s.pending ∧ (loadShm ofs b s).otp = s.otp := by
  simp [loadShm]
@[simp] theorem loadSection_keep (s : State) (x : Section) :
    (loadSection s x).pending = s.pending ∧ (loadSection s x).otp = s.otp := by
  simp [loadSection]
@[simp] theorem selfTest_keep (s : State) (badEngines badLanes badCells : List Nat) :
    (selfTest s badEngines badLanes badCells).pending = s.pending ∧ (selfTest s badEngines badLanes badCells).otp = s.otp := by
  unfold selfTest
  (try dsimp only)
  repeat' (first | (simp [*]; done) | intro _ | apply And.intro | apply fold_p | apply fold_o | apply ffold_p | apply ffold_o | simp | (split <;> (try (rename_i hq; have hh := fst_of hq; subst hh; clear hq))))

/-! ### CfgPath -/

@[simp] theorem hitRx_keep (s : State) (p c : Nat) :
    (hitRx s p c).pending = s.pending ∧ (hitRx s p c).otp = s.otp := by
  unfold hitRx
  (repeat' split) <;> simp
@[simp] theorem hitData_keep (s : State) (h c : Nat) :
    (hitData s h c).pending = s.pending ∧ (hitData s h c).otp = s.otp := by
  unfold hitData
  (repeat' split) <;> simp

/-! ### WaporLC -/

@[simp] theorem jumpTo_keep (s : State) (m target how : Nat) :
    (jumpTo s m target how).pending = s.pending ∧ (jumpTo s m target how).otp = s.otp := by
  simp [jumpTo]
@[simp] theorem link_keep (s : State) (m : Nat) :
    (link s m).pending = s.pending ∧ (link s m).otp = s.otp := by
  simp [link]

/-! ### WaporM -/

@[simp] theorem divEnter_keep (s : State) (m n : Nat) :
    (divEnter s m n).pending = s.pending ∧ (divEnter s m n).otp = s.otp := by
  unfold divEnter
  dsimp only
  (repeat' split) <;> simp

end Sys2Proof.Machine
end

