-- ==== Sys2Proof/WellFormed.lean ====
section
/-! DEFINITION. Which commands are well formed: those whose operands name masters, units and offsets that the block has. A command that is not well formed names no event of
the block. -/

namespace Sys2Proof

/-- A master that reads and writes registers: a thread of an engine, or a host function (R148, R550). -/
def okMaster (m : Nat) : Bool := decide (m < 3648) || (decide (0x0F00 ≤ m) && decide (m < 0x0F10))

/-- An offset of a dword of BAR0 (R566). -/
def okOffset (ofs : Nat) : Bool := decide (ofs < 0x400000) && ofs % 4 == 0

/-- An offset of a dword of a window (R582). -/
def okWindow (size ofs : Nat) : Bool := decide (ofs < size) && ofs % 4 == 0

/-- An issue: of a thread that exists, with one of the three outcomes of its memory errors. -/
def okIssue (i : Issue) : Bool := decide (i.th < 3648) && decide (i.ecc ≤ 2)

/-- A command is well formed. -/
def Instr.wf : Instr → Bool
  | .hatchSend h _ _ => decide (h < 3584)
  | .hatchEntryArrive h _ ecc => decide (h < 3584) && decide (ecc ≤ 2)
  | .hatchRemove h => decide (h < 3584)
  | .hatchCreditReturn h => decide (h < 3584)
  | .hatchSnap m _ => okMaster m
  | .hatchSnapshotDone _ => true
  | .registerWrite m ofs _ be => okMaster m && okOffset ofs && decide (be < 16)
  | .epochAtWrite m _ => okMaster m
  | .epochSchedule m _ => okMaster m
  | .epochCancel m _ => okMaster m
  | .epochArm _ _ => true
  | .epochCommit _ => true
  | .epochRelease _ => true
  | .stageReady _ => true
  | .frameStart port _ _ cell _ => decide (port < 512) && decide (cell < 393216)
  | .envelopeFormCt port _ _ => decide (port < 512)
  | .frameRxEnd port _ _ _ _ => decide (port < 512)
  | .envelopeEnterEnvA sl _ => decide (sl < 16)
  | .stallLimit port _ _ => decide (port < 512)
  | .egressUnderrun port _ => decide (port < 512)
  | .linkDown port _ _ => decide (port < 512)
  | .linkUp port _ => decide (port < 512)
  | .preemptVerify port _ => decide (port < 512)
  | .refclkLoss g => decide (g < 8)
  | .laneCfgWrite m lane _ => okMaster m && decide (lane < 128)
  | .xpolCfgWrite m port _ => okMaster m && decide (port < 512)
  | .distribute stn _ => decide (stn < 48)
  | .gateSend stn _ _ => decide (stn < 48)
  | .gateTimeout stn _ _ => decide (stn < 48)
  | .cellWrite _ cell _ => decide (cell < 393216)
  | .depotEnvArrive sl => decide (sl < 16)
  | .matching _ => true
  | .phRelease port _ => decide (port < 512)
  | .intPhDeliver _ _ => true
  | .gateIntervalEnd port _ => decide (port < 512)
  | .gclSwap m _ => okMaster m
  | .gclSwapApply port _ => decide (port < 512)
  | .mcWrite m _ => okMaster m
  | .mcRead m _ => okMaster m
  | .editorSend sl ecc _ => decide (sl < 16) && decide (ecc ≤ 2)
  | .macTx port _ _ => decide (port < 512)
  | .tsqPop m port => okMaster m && decide (port < 512)
  | .timeCorrection _ => true
  | .timeSourceLock _ _ _ => true
  | .timeSourceLoss _ _ => true
  | .timeStep m _ => okMaster m
  | .timeTodArm m _ => okMaster m
  | .timeInEdge _ _ => true
  | .timeInLoss _ => true
  | .timeOutEdge _ => true
  | .dirInsert m sl _ => okMaster m && decide (sl < 16)
  | .dirDelete m sl _ => okMaster m && decide (sl < 16)
  | .dirLookupCmd m sl _ => okMaster m && decide (sl < 16)
  | .dirInvalidate m sl _ => okMaster m && decide (sl < 16)
  | .dirWriteIdx m sl _ => okMaster m && decide (sl < 16)
  | .dirReadIdx m sl _ => okMaster m && decide (sl < 16)
  | .dirFlush m sl _ => okMaster m && decide (sl < 16)
  | .dirCmdDone sl _ => decide (sl < 16)
  | .learnInsert sl => decide (sl < 16)
  | .dirBuild m sl _ _ => okMaster m && decide (sl < 16)
  | .buildDone sl _ _ => decide (sl < 16)
  | .ageSweep sl _ => decide (sl < 16)
  | .extFill sl _ _ _ => decide (sl < 16)
  | .extFillTimeout sl _ _ => decide (sl < 16)
  | .hotcacheSweep sl _ => decide (sl < 16)
  | .resultLand m _ => decide (m < 3648)
  | .storeDrain e _ => decide (e < 228)
  | .nop ix => okIssue ix
  | .add ix => okIssue ix
  | .adds ix => okIssue ix
  | .sub ix => okIssue ix
  | .subs ix => okIssue ix
  | .neg ix => okIssue ix
  | .negs ix => okIssue ix
  | .abs ix => okIssue ix
  | .abss ix => okIssue ix
  | .minOp ix => okIssue ix
  | .maxOp ix => okIssue ix
  | .minu ix => okIssue ix
  | .maxu ix => okIssue ix
  | .andOp ix => okIssue ix
  | .orOp ix => okIssue ix
  | .xorOp ix => okIssue ix
  | .andn ix => okIssue ix
  | .clz ix => okIssue ix
  | .popc ix => okIssue ix
  | .bswap ix => okIssue ix
  | .shl ix => okIssue ix
  | .shr ix => okIssue ix
  | .sar ix => okIssue ix
  | .ror ix => okIssue ix
  | .ceq ix => okIssue ix
  | .cne ix => okIssue ix
  | .clt ix => okIssue ix
  | .cle ix => okIssue ix
  | .cltu ix => okIssue ix
  | .cleu ix => okIssue ix
  | .fadd ix => okIssue ix
  | .fsub ix => okIssue ix
  | .fneg ix => okIssue ix
  | .fabs ix => okIssue ix
  | .fadd2 ix => okIssue ix
  | .fsub2 ix => okIssue ix
  | .tadd ix => okIssue ix
  | .tsub ix => okIssue ix
  | .mov ix => okIssue ix
  | .movi ix => okIssue ix
  | .tagOp ix => okIssue ix
  | .settag ix => okIssue ix
  | .mtbk ix => okIssue ix
  | .mfbk ix => okIssue ix
  | .rdf ix => okIssue ix
  | .clrf ix => okIssue ix
  | .mul ix => okIssue ix
  | .mulhi ix => okIssue ix
  | .mulhu ix => okIssue ix
  | .fmul ix => okIssue ix
  | .fmul2 ix => okIssue ix
  | .mac ix => okIssue ix
  | .msu ix => okIssue ix
  | .fmac ix => okIssue ix
  | .fmsu ix => okIssue ix
  | .fmac2 ix => okIssue ix
  | .clra ix => okIssue ix
  | .mova ix => okIssue ix
  | .asl ix => okIssue ix
  | .asr ix => okIssue ix
  | .alsr ix => okIssue ix
  | .acci ix => okIssue ix
  | .accf ix => okIssue ix
  | .div ix => okIssue ix
  | .divu ix => okIssue ix
  | .fdiv ix => okIssue ix
  | .sqrt ix => okIssue ix
  | .ld ix => okIssue ix
  | .ldh ix => okIssue ix
  | .ldhu ix => okIssue ix
  | .ldb ix => okIssue ix
  | .ldbu ix => okIssue ix
  | .st ix => okIssue ix
  | .sth ix => okIssue ix
  | .stb ix => okIssue ix
  | .rel ix => okIssue ix
  | .hcmd ix => okIssue ix
  | .kacq ix => okIssue ix
  | .ktry ix => okIssue ix
  | .krel ix => okIssue ix
  | .ring ix => okIssue ix
  | .doorbellRingArrive target b _ => decide (target < 3648) && decide (b < 8)
  | .br ix => okIssue ix
  | .bz ix => okIssue ix
  | .bnz ix => okIssue ix
  | .bltz ix => okIssue ix
  | .bgez ix => okIssue ix
  | .jmp ix => okIssue ix
  | .call ix => okIssue ix
  | .callr ix => okIssue ix
  | .ret ix => okIssue ix
  | .loopOp ix => okIssue ix
  | .waitOp ix => okIssue ix
  | .fence ix => okIssue ix
  | .reti ix => okIssue ix
  | .trapOp ix => okIssue ix
  | .interruptEntry m _ => decide (m < 3648)
  | .timerDue m _ => decide (m < 3648)
  | .slotSwap m e _ => okMaster m && decide (e < 228)
  | .slotSwapApply e _ => decide (e < 228)
  | .slotCopy m e _ => okMaster m && decide (e < 228)
  | .engRetire m e _ => okMaster m && decide (e < 228)
  | .engineFail e _ _ => decide (e < 228)
  | .takeoverResume stn _ => decide (stn < 48)
  | .thrHalt m th _ => okMaster m && decide (th < 3648)
  | .thrResume m th _ => okMaster m && decide (th < 3648)
  | .thrReset m th _ => okMaster m && decide (th < 3648)
  | .softInt m th _ => okMaster m && decide (th < 3648)
  | .thrCfgWrite m th _ => okMaster m && decide (th < 3648)
  | .standbyWrite m stn _ => okMaster m && decide (stn < 48)
  | .helpCmdTake h _ => decide (h < 16)
  | .setring ix => okIssue ix
  | .helperNop h _ => decide (h < 16)
  | .gcmEnc h _ => decide (h < 16)
  | .gcmDec h _ => decide (h < 16)
  | .gmac h _ => decide (h < 16)
  | .gmacChk h _ => decide (h < 16)
  | .hmac h _ => decide (h < 16)
  | .hmacChk h _ => decide (h < 16)
  | .sha256 h _ => decide (h < 16)
  | .crc32 h _ => decide (h < 16)
  | .crc32c h _ => decide (h < 16)
  | .csum16 h _ => decide (h < 16)
  | .toDram h _ => decide (h < 16)
  | .fromDram h _ => decide (h < 16)
  | .cellRd h _ => decide (h < 16)
  | .helperSend h _ => decide (h < 16)
  | .dirLookup h _ => decide (h < 16)
  | .dirLearn h _ => decide (h < 16)
  | .helperCtResume h _ _ => decide (h < 16)
  | .helperComplete h _ _ => decide (h < 16)
  | .helperLateError _ => true
  | .keyRequestArrive island => decide (island ≤ 83)
  | .keyStatusLand m _ => decide (m < 3648)
  | .keyRingCfgWrite m rg _ => okMaster m && decide (rg < 64)
  | .keySnap m _ => okMaster m
  | .tryKey m _ => okMaster m
  | .releaseKey m _ => okMaster m
  | .keyRingHost m _ => okMaster m
  | .tapSend stn _ => decide (stn < 48)
  | .tapinAccept _ => true
  | .alignHoldExpiry g _ _ _ => decide (g < 64)
  | .alignRelease g _ _ => decide (g < 64)
  | .windowNode g _ _ => decide (g < 64)
  | .emitNode g _ _ => decide (g < 64)
  | .nodeDispatch bench _ => decide (bench < 8)
  | .pinnedDispatch g _ => decide (g < 64)
  | .nodeDone bench _ => decide (bench < 8)
  | .nodeTimeout g _ _ => decide (g < 64)
  | .graphLoad m _ => okMaster m
  | .loadComplete _ => true
  | .graphStart m _ => okMaster m
  | .graphStop m _ => okMaster m
  | .stoppingEnd g _ => decide (g < 64)
  | .graphUnload m _ => okMaster m
  | .recWrite _ => true
  | .recTrig m _ => okMaster m
  | .recArm m _ => okMaster m
  | .postTriggerExpiry _ => true
  | .dramRequest _ _ => true
  | .dramCommand ch _ ecc => decide (ch < 4) && decide (ecc % 8 ≤ 6)
  | .refresh ch phys _ bank _ => decide (ch < 4) && decide (phys < 3) && decide (bank < 16)
  | .tempRead ch phys _ _ => decide (ch < 4) && decide (phys < 3)
  | .zqCalibration ch phys _ => decide (ch < 4) && decide (phys < 3)
  | .readTimingRetune ch phys _ => decide (ch < 4) && decide (phys < 3)
  | .patrolScrub ch rank _ ecc => decide (ch < 4) && decide (rank < 2) && decide (ecc ≤ 6)
  | .trainingDone _ _ => true
  | .fillDone _ => true
  | .dramRankRetire m _ => okMaster m
  | .migrationDone ch _ _ => decide (ch < 4)
  | .meterReport island _ => decide (island ≤ 83)
  | .ledgerTick _ _ _ _ => true
  | .freqApply island _ => decide (island ≤ 83)
  | .parkDone e _ => decide (e < 228)
  | .parkAbort e _ => decide (e < 228)
  | .unparkDone e _ => decide (e < 228)
  | .hostPark m _ => okMaster m
  | .hostUnpark m _ => okMaster m
  | .hostAuto m _ => okMaster m
  | .linkLocked k _ => decide (k < 32)
  | .helloSend k _ => decide (k < 32)
  | .helloRx k _ _ => decide (k < 32)
  | .dataRx k _ _ _ => decide (k < 32)
  | .ackRx k _ _ => decide (k < 32)
  | .nakRx k _ _ => decide (k < 32)
  | .heartbeatRx k _ _ => decide (k < 32)
  | .sealReqRx k _ _ => decide (k < 32)
  | .sealRespRx k _ _ => decide (k < 32)
  | .timeRx k _ _ _ => decide (k < 32)
  | .alarmRx k _ _ => decide (k < 32)
  | .parcelSend k c _ => decide (k < 32) && decide (c < 8)
  | .ackSend k _ => decide (k < 32)
  | .replayTimeout k _ => decide (k < 32)
  | .heartbeatSend k _ => decide (k < 32)
  | .timeSend k _ => decide (k < 32)
  | .alarmParcelSend k _ => decide (k < 32)
  | .lockLoss k _ => decide (k < 32)
  | .heartbeatTimeout k _ => decide (k < 32)
  | .linkRetry k _ => decide (k < 32)
  | .bucketMoveDrain g b _ => decide (g < 256) && decide (b < 256)
  | .bucketMoveTimeout g b _ => decide (g < 256) && decide (b < 256)
  | .bucketMonitor g _ => decide (g < 256)
  | .reseed _ => true
  | .reseedNow m _ => okMaster m
  | .routeWrite m _ => okMaster m
  | .routeRead m _ => okMaster m
  | .groupWrite m _ => okMaster m
  | .groupRead m _ => okMaster m
  | .sealReady _ => true
  | .sealReq m _ => okMaster m
  | .tenReset m _ => okMaster m
  | .tenRelease m _ => okMaster m
  | .kslotWr m _ => okMaster m
  | .kslotErase m _ => okMaster m
  | .commitSvn m _ => okMaster m
  | .revoke m _ => okMaster m
  | .powerUp _ _ _ _ _ => true
  | .entryComplete _ _ _ _ _ => true
  | .sag _ _ _ => true
  | .removal _ => true
  | .enableLow _ => true
  | .sysReset _ _ _ _ => true
  | .perst => true
  | .withdrawReq _ _ => true
  | .wdreqStuck _ => true
  | .svcArm m _ => okMaster m
  | .svcDisarm m _ => okMaster m
  | .lifeWithdraw m _ => okMaster m
  | .lifeRestart m _ => okMaster m
  | .withdrawAdmissionStop _ => true
  | .withdrawDrainEnd _ => true
  | .saveComplete _ _ _ => true
  | .thermalShutdown _ => true
  | .powerReturn _ _ _ _ _ _ => true
  | .capDepleted _ => true
  | .checkpoint _ => true
  | .checkpointReadback _ _ _ => true
  | .holdupTest _ _ => true
  | .testNow m _ => okMaster m
  | .holdupTestDone _ _ _ => true
  | .sensorClear _ => true
  | .mbxGo m f _ => okMaster m && decide (f < 16)
  | .ping _ => true
  | .setWindow _ => true
  | .flashInfo _ => true
  | .flashRead _ _ => true
  | .flashErase _ _ => true
  | .flashWrite _ _ => true
  | .mbxRestart _ _ _ => true
  | .mbxFwOpcode f => decide (f < 16)
  | .mbxResponse f => decide (f < 16)
  | .mbxFwTimeout f _ => decide (f < 16)
  | .mbxAgentRestart _ => true
  | .flr f => decide (f < 16)
  | .statsSnap m ofs _ => okMaster m && okOffset ofs
  | .statsClr m ofs _ => okMaster m && okOffset ofs
  | .cntClr m _ => okMaster m
  | .alarmRecord island => decide (island ≤ 83)
  | .alarmPop m => okMaster m
  | .traceRecord => true
  | .traceMark m _ => okMaster m
  | .msixHoldoff v _ => decide (v < 4)
  | .attnSample _ _ => true
  | .sbWrite m slot _ => okMaster m && decide (slot < 2)
  | .sbRead m slot _ => okMaster m && decide (slot < 2)
  | .sbWriteRead m slot _ => okMaster m && decide (slot < 2)
  | .sbDone slot _ _ _ => decide (slot < 2)
  | .sbRecovery _ _ => true
  | .mdioC22Write m n _ => okMaster m && decide (n < 4)
  | .mdioC22Read m n _ => okMaster m && decide (n < 4)
  | .mdioC45Address m n _ => okMaster m && decide (n < 4)
  | .mdioC45Write m n _ => okMaster m && decide (n < 4)
  | .mdioC45ReadIncrement m n _ => okMaster m && decide (n < 4)
  | .mdioC45Read m n _ => okMaster m && decide (n < 4)
  | .mdioDone n _ _ _ => decide (n < 4)
  | .engmemWrite m ofs _ => okMaster m && okWindow 0x40000 ofs
  | .engmemRead m ofs => okMaster m && okWindow 0x40000 ofs
  | .shmemWrite m ofs _ => okMaster m && okWindow 0x40000 ofs
  | .shmemRead m ofs => okMaster m && okWindow 0x40000 ofs
  | .parseWrite m ofs _ => okMaster m && okWindow 0x10000 ofs
  | .edtplWrite m ofs _ => okMaster m && okWindow 0x10000 ofs
  | .gclWrite m ofs _ => okMaster m && okWindow 0x10000 ofs
  | .macsecWrite m ofs _ => okMaster m && okWindow 0x10000 ofs
  | .sysblkWrite m ofs _ => okMaster m && okWindow 0x10000 ofs
  | .strongWrite m ofs _ => okMaster m && okWindow 0x100000 ofs
  | .decodeFault ix _ => okIssue ix
  | .verifyResponse port => decide (port < 512)
  | .refclkReturn g => decide (g < 8)
  | .txPllLockLoss _ lane => decide (lane < 128)
  | .entryStall _ _ _ _ _ _ => true
  | .vinDipEnd _ _ _ => true
  | .bar2Access f _ _ _ => decide (f < 16)
  | .registerRead m ofs => okMaster m && okOffset ofs

end Sys2Proof
end

