-- ==== Sys2Proof/Tests/Slice0.lean ====
section
/-! SUPPORT. Tests: ill-formed commands that WellFormed refuses, examples of the standards and the manual, and for every statement a state and operands that meet its hypotheses, clause by clause. -/

set_option Elab.async false

namespace Sys2Proof.Tests
open Sys2Proof Sys2Proof.Machine

/-- The block in SERVICE, everything else as after reset. -/
def svc : State := State.reset.setRf Reg.lifeMode 2 0 2
/-- The block in SETUP. -/
def setup : State := State.reset.setRf Reg.lifeMode 2 0 1
/-- Lane 1 runs at 1 Gb/s with its MAC and link up, and its port group has had a correction word: port 4 receives. -/
def net : State := { (((svc.setReg (Reg.laneCfg 1) 0x10001).setReg (pReg Reg.portMacCfg 4) 0x105F2).setRf (Reg.laneStat 1) 7 4 15).setPort 4 { (default : PortSt) with linkUp := true } with
  time := { svc.time with words := [(64, (0, 0, 0))] } }
/-- The first bytes of a frame, and a whole frame of 64 bytes. -/
def head64 : List Byte := [1, 2, 3, 4, 5, 6, 7, 8, 9, 10, 11, 12, 8, 0] ++ List.replicate 46 0
def whole64 : List Byte := head64 ++ fcsOf head64
/-- A frame being received on port 4. -/
def rx4 (adm ct : Bool) : RxFrame := { cell := 9, pm := 0, cls := 0, bytes := head64, admitted := adm, ct := ct, formed := false, sample := false }
def netRx (adm ct : Bool) : State := net.setPort 4 { net.port 4 with rx := some (rx4 adm ct) }
/-- Words in an island's shared memory. -/
def wordsAt (i a : Nat) (l : List Nat) (s : State) : State := (List.range l.length).foldl (fun t k => t.setShmWord i (a + 4 * k) (tw tagINT (l.getD k 0))) s

/-! ### Ill-formed commands -/

theorem smoke_hatch : (Instr.hatchRemove 3584).wf = false := by decide
theorem smoke_ecc : (Instr.hatchEntryArrive 0 false 3).wf = false := by decide
theorem smoke_master : (Instr.hatchSnap 0x0F10 0).wf = false := by decide
theorem smoke_master_thread : (Instr.hatchSnap 3648 0).wf = false := by decide
theorem smoke_offset : (Instr.registerRead 0 0x400000).wf = false := by decide
theorem smoke_offset_aligned : (Instr.registerRead 0 6).wf = false := by decide
theorem smoke_bytes : (Instr.registerWrite 0 4 0 16).wf = false := by decide
theorem smoke_port : (Instr.linkUp 512 0).wf = false := by decide
theorem smoke_cell : (Instr.cellWrite 0 393216 []).wf = false := by decide
theorem smoke_slice : (Instr.learnInsert 16).wf = false := by decide
theorem smoke_refclk : (Instr.refclkLoss 8).wf = false := by decide
theorem smoke_lane : (Instr.laneCfgWrite 0 128 0).wf = false := by decide
theorem smoke_station : (Instr.distribute 48 0).wf = false := by decide
theorem smoke_thread : (Instr.resultLand 3648 0).wf = false := by decide
theorem smoke_engine : (Instr.storeDrain 228 0).wf = false := by decide
theorem smoke_issue : (Instr.nop ⟨3648, 0, 0⟩).wf = false := by decide
theorem smoke_issue_ecc : (Instr.nop ⟨0, 0, 3⟩).wf = false := by decide
theorem smoke_ring_target : (Instr.doorbellRingArrive 3648 0 0).wf = false := by decide
theorem smoke_ring_bell : (Instr.doorbellRingArrive 0 8 0).wf = false := by decide
theorem smoke_halt : (Instr.thrHalt 0 3648 0).wf = false := by decide
theorem smoke_helper : (Instr.helpCmdTake 16 0).wf = false := by decide
theorem smoke_key_island : (Instr.keyRequestArrive 84).wf = false := by decide
theorem smoke_keyring : (Instr.keyRingCfgWrite 0 64 0).wf = false := by decide
theorem smoke_align : (Instr.alignHoldExpiry 64 0 0 0).wf = false := by decide
theorem smoke_bench : (Instr.nodeDispatch 8 0).wf = false := by decide
theorem smoke_channel : (Instr.dramCommand 4 0 0).wf = false := by decide
theorem smoke_rank : (Instr.refresh 0 3 0 0 false).wf = false := by decide
theorem smoke_bank : (Instr.refresh 0 0 0 16 false).wf = false := by decide
theorem smoke_logical_rank : (Instr.patrolScrub 0 2 0 0).wf = false := by decide
theorem smoke_link : (Instr.linkLocked 32 0).wf = false := by decide
theorem smoke_class : (Instr.parcelSend 0 8 0).wf = false := by decide
theorem smoke_group : (Instr.bucketMoveDrain 256 0 0).wf = false := by decide
theorem smoke_bucket : (Instr.bucketMoveDrain 0 256 0).wf = false := by decide
theorem smoke_function : (Instr.mbxGo 0 16 0).wf = false := by decide
theorem smoke_vector : (Instr.msixHoldoff 4 0).wf = false := by decide
theorem smoke_side_bus_slot : (Instr.sbWrite 0 2 0).wf = false := by decide
theorem smoke_mdio : (Instr.mdioC22Write 0 4 0).wf = false := by decide
theorem smoke_window : (Instr.engmemWrite 0 0x40000 0).wf = false := by decide
theorem smoke_small_window : (Instr.parseWrite 0 0x10000 0).wf = false := by decide
theorem smoke_strongbox : (Instr.strongWrite 0 0x100000 0).wf = false := by decide
theorem smoke_wellformed : (Instr.registerWrite 0x0F00 4 0 15).wf = true := by decide

/-! ### Examples -/

-- FIPS 180-4: SHA-256 of "abc".
theorem test_sha256_abc : beNat (sha256 [0x61, 0x62, 0x63]) = 0xBA7816BF8F01CFEA414140DE5DAE2223B00361A396177A9CB410FF61F20015AD := by decide +kernel
-- The check value of CRC-32 (IEEE 802.3) and of CRC-32C: the nine digits 1 to 9.
theorem test_crc32_digits : crc32 0 ((List.range 9).map fun i => BitVec.ofNat 8 (0x31 + i)) = 0xCBF43926 := by decide +kernel
theorem test_crc32c_digits : crc32c 0 ((List.range 9).map fun i => BitVec.ofNat 8 (0x31 + i)) = 0xE3069283 := by decide +kernel
-- FIPS 197, appendix C.1.
theorem test_aes128 : beNat (aesBlock (aesExpand ((List.range 16).map fun i => BitVec.ofNat 8 i)) ((List.range 16).map fun i => BitVec.ofNat 8 (0x11 * i))) = 0x69C4E0D86A7B0430D8CDB78070B4C55A := by decide +kernel
-- SP 800-38D, test case 2 of the GCM specification.
theorem test_gcm_zero : let r := gcmEnc (List.replicate 16 0) (List.replicate 12 0) [] (List.replicate 16 0)
    beNat r.1 = 0x0388DACE60B6A392F328C2B971B2FE78 ∧ beNat r.2 = 0xAB6E47D42CEC13BDF53A67B21257BDDF := by decide +kernel
-- The example after R553: the newest record is displaced first, and the summary keeps its postmark as the first one.
theorem test_summary_first : ((openSlot { (default : Alarm) with pm := 9 }).add { (default : Alarm) with pm := 5 }).first = 9 := by decide
-- The example of chapter 3: the port base of port 148; the example of chapter 17: the set of port 300.
theorem test_port_base : pReg Reg.portMacCfg 148 = 0xA5100 ∧ portSet 300 = 0xCB800 := by decide
-- The example of R371: channel 1, sub-channel 1, logical rank 0, bank group 4 with bank 0, row 0x9A3C.
theorem test_dram_address : let l := 0x9A3C45F40 / 64
    lineChan l = 1 ∧ lineSub l = 1 ∧ lineRank l = 0 ∧ lineBank l = 8 ∧ lineRow l = 0x9A3C := by decide

/-! ### all -/

theorem wit_StepTakesTheFront_1 : ({ svc with pending := [.hatchRemove 0] } : State).pending = [.hatchRemove 0] := by decide +kernel
theorem wit_StepTakesTheFront_2 : svc.pending = [] := by decide +kernel
theorem wit_FusesOnlyGrow : Grows svc.otp svc.otp ∧ step svc = .next svc := ⟨⟨Nat.le_refl _, fun _ h => h, rfl⟩, rfl⟩

/-! ### hatch -/

/-- An entry of plain data. -/
def ent : HEntry := ⟨.data 0 [1, 2], 0, false⟩
/-- Hatch 0 (a MAC hatch) with one entry in each place. -/
def hs : State := svc.setHatch 0 { (default : Hatch) with held := [ent], gTransit := [ent], gFifo := [ent], gOut := [0, 0, 0], gUnseen := 1 }
/-- An envelope hatch with express entries. -/
def hx : State := svc.setHatch 512 { (default : Hatch) with xTransit := [ent], xFifo := [ent], xOut := [0, 0] }
def hxh : State := svc.setHatch 384 { (default : Hatch) with held := [⟨.env [] [], 3, true⟩], xTransit := [⟨.env [] [], 1, true⟩], xFifo := [ent], xOut := [0, 1] }
/-- An ALARM hatch with a summary to send. -/
def hal : State := svc.setHatch 2560 { (default : Hatch) with carry := 4, carryPm := 5, carryLast := 6 }
/-- A METER report in a METER hatch. -/
def mrep : HEntry := ⟨.meter ⟨19, 5, 0⟩, 0, false⟩
def hm : State := svc.setHatch 2432 { (default : Hatch) with gTransit := [mrep], gFifo := [mrep], gOut := [0, 0] }
def hxe : State := svc.setHatch 512 { (default : Hatch) with xTransit := [mrep], xOut := [0] }
/-- A flit of a frame being received, on its way. -/
def hrx : State := (netRx true false).setHatch 0 { (default : Hatch) with gTransit := [⟨.data 9 [5], 0, false⟩], gOut := [0] }
theorem wit_HatchesCarryEntries_1 : (hs.life.rails = true) ∧ (hatchExists 0 = true) ∧ (0 / 128 ≠ 0x14) ∧ ((hs.hatch 0).held[0]? = some ent) ∧ (heldBack 0 ((hs.hatch 0).held.take 0) ent = false) ∧ (hs.replyRoom 0 ent = true) ∧ ((hs.hatch 0).channel 0 ent = some false) := by decide +kernel
theorem wit_HatchesCarryEntries_2 : (svc.life.rails = true) ∧ (hatchExists 0 = true) ∧ (hatchOffers (0 / 128) (.data 0 ([7])) = true) ∧ ((svc.hatch 0).held = []) ∧ ((svc.hatch 0).channel 0 ⟨.data 0 ([7]), 0, false⟩ = some false) := by decide +kernel
theorem wit_HatchesCarryEntries_3 : (hal.life.rails = true) ∧ (hatchExists 2560 = true) ∧ (2560 / 128 = 0x14) ∧ (0 < (hal.hatch 2560).carry) ∧ (0 < (hal.hatch 2560).credits 2560) := by decide +kernel
theorem wit_HatchesCarryEntries_4 : (hs.life.rails = true) ∧ ((hs.hatch 0).gTransit = ent :: ([])) := by decide +kernel
theorem wit_HatchesCarryEntries_5 : (hx.life.rails = true) ∧ ((hx.hatch 512).xTransit = ent :: ([])) := by decide +kernel
theorem wit_HatchesCarryEntries_6 : (hx.life.rails = true) ∧ (takenElsewhere 512 = false) ∧ (doneAtOnce (512 / 128) = false) ∧ ((hx.hatch 512).xFifo = ent :: ([])) := by decide +kernel
theorem wit_HatchesCarryEntries_7 : (hm.life.rails = true) ∧ (takenElsewhere 2432 = false) ∧ (doneAtOnce (2432 / 128) = false) ∧ ((hm.hatch 2432).xFifo = []) ∧ ((hm.hatch 2432).gFifo = mrep :: ([])) := by decide +kernel
theorem wit_HatchesCarryEntries_8 : (hs.life.rails = true) ∧ (takenElsewhere 0 = false) ∧ (doneAtOnce (0 / 128) = true) ∧ (0 / 128 ≠ 0x18) ∧ (stillHeld hs ent = false) ∧ ((hs.hatch 0).xFifo = []) ∧ ((hs.hatch 0).gFifo = ent :: ([])) := by decide +kernel
theorem wit_HatchesCarryEntries_9 : (hs.life.rails = true) ∧ ((hs.hatch 0).gUnseen ≤ (hs.hatch 0).gOut.length) ∧ ((hs.hatch 0).gOut.length ≤ hatchDepth 0) ∧ ((0 / 128 = 0x18 → (hs.link (0 % 128)).rxBuf = [])) := by decide +kernel
theorem wit_HatchesCarryEntries_10 : (hm.life.rails = true) ∧ ((∀ c l, mrep.pay ≠ .data c l)) ∧ ((hm.hatch 2432).gTransit = mrep :: ([])) := ⟨by decide +kernel, by intro c l; simp [mrep], by decide +kernel⟩
theorem wit_HatchesCarryEntries_11 : (hxe.life.rails = true) ∧ ((∀ c l, mrep.pay ≠ .data c l)) ∧ ((hxe.hatch 512).xTransit = mrep :: ([])) := ⟨by decide +kernel, by intro c l; simp [mrep], by decide +kernel⟩
theorem wit_HatchesCarryEntries_12 : (hrx.life.rails = true) ∧ (0 / 128 = 0) ∧ (rxPort hrx 9 = some 4) ∧ ((hrx.port 4).rx = some (rx4 true false)) ∧ ((rx4 true false).cell = 9) ∧ ((hrx.port 4).rxPre = none) ∧ ((hrx.hatch 0).gTransit = ⟨.data 9 ([5]), 0, false⟩ :: ([])) := by decide +kernel
theorem wit_HatchSnapshotCaptures_1 : (takes svc 0x0F00 Reg.hatchSel (0x10005 : Word) = true) ∧ (bitOf (0x10005 : Word) 16 = true) := by decide +kernel
theorem wit_HatchSnapshotCaptures_2 : (({ hs with snapReq := some 0 } : State).life.rails = true) ∧ (({ hs with snapReq := some 0 } : State).snapReq = some 0) ∧ (hatchExists 0 = true) := by decide +kernel
theorem wit_HatchSnapshotCaptures_3 : (({ hs with snapReq := some 4000 } : State).life.rails = true) ∧ (({ hs with snapReq := some 4000 } : State).snapReq = some 4000) ∧ (hatchExists 4000 = false) := by decide +kernel

/-! ### epoch -/

/-- A commit scheduled for module time 2 s. -/
def epBase : State := { svc with epoch := { svc.epoch with atLatched := 2 * 2 ^ 30, atSched := 2 * secUnit } }
def epNow : State := { epBase with now := secUnit, time := { epBase.time with priLocked := true } }
def epX : State := (epNow.setRf Reg.courId 31 31 1).setRf Reg.timeStatus 0 0 1
def epPend : State := epBase.setRf Reg.epochStatus 18 16 1
def epArmed : State := { epBase.setRf Reg.epochStatus 18 16 2 with now := 2 * secUnit, dirs := { (default : DirShared) with vlanS := [(5, 7)] }, slices := [(3, { (default : SliceSt) with statS := [] })] }
def epOld : State := { svc with now := 2 * secUnit, epoch := { svc.epoch with oldReadable := true, lastAt := secUnit } }
def epRefresh : State := svc.setRf Reg.epochStatus 18 16 3
theorem wit_EpochScheduleAndCancel_1 : ((svc.holdLo 0x0F00 Reg.epochAtLo 9).life.rails = true) ∧ (takes (svc.holdLo 0x0F00 Reg.epochAtLo 9) 0x0F00 Reg.epochAtHi (3 : Word) = true) ∧ ((svc.holdLo 0x0F00 Reg.epochAtLo 9).held 0x0F00 Reg.epochAtLo = some (9 : Word)) := by decide +kernel
theorem wit_EpochScheduleAndCancel_2 : (epNow.life.rails = true) ∧ (takes epNow 0x0F00 Reg.epochCtl (1 : Word) = true) ∧ (bitOf (1 : Word) 0 = true) ∧ (bitOf (1 : Word) 1 = false) ∧ (bitOf (1 : Word) 16 = false) ∧ (epochState epNow = 0 ∨ epochState epNow = 4) ∧ (epNow.rb Reg.epochStatus 20 = true) ∧ (epNow.epoch.atLatched % 2 ^ 30 < 1000000000) ∧ (epNow.now + 1000000 * nsUnit ≤ timeOfPm epNow.epoch.atLatched) ∧ (timeOfPm epNow.epoch.atLatched ≤ epNow.now + 60 * secUnit) := by decide +kernel
theorem wit_EpochScheduleAndCancel_3 : (epX.life.rails = true) ∧ (takes epX 0x0F00 Reg.epochCtl (0x10001 : Word) = true) ∧ (bitOf (0x10001 : Word) 0 = true) ∧ (bitOf (0x10001 : Word) 16 = true) ∧ (scheduleRefused (0x10001 : Word) epX = false) := by decide +kernel
theorem wit_EpochScheduleAndCancel_4 : (svc.life.rails = true) ∧ (takes svc 0x0F00 Reg.epochCtl (3 : Word) = true) ∧ (bitOf (3 : Word) 0 = true) ∧ (bitOf (3 : Word) 1 = true ∨ epochState svc = 1 ∨ epochState svc = 2 ∨ epochState svc = 3 ∨ svc.rb Reg.epochStatus 20 = false ∨ 1000000000 ≤ svc.epoch.atLatched % 2 ^ 30 ∨ timeOfPm svc.epoch.atLatched < svc.now + 1000000 * nsUnit ∨ svc.now + 60 * secUnit < timeOfPm svc.epoch.atLatched) := by decide +kernel
theorem wit_EpochScheduleAndCancel_5 : (epPend.life.rails = true) ∧ (takes epPend 0x0F00 Reg.epochCtl (2 : Word) = true) ∧ (bitOf (2 : Word) 1 = true) ∧ (bitOf (2 : Word) 0 = false) ∧ (epochState epPend = 1) ∧ (epPend.now + 100000 * nsUnit < epPend.epoch.atSched) := by decide +kernel
theorem wit_EpochScheduleAndCancel_6 : (svc.life.rails = true) ∧ (takes svc 0x0F00 Reg.epochCtl (2 : Word) = true) ∧ (bitOf (2 : Word) 1 = true) ∧ (bitOf (2 : Word) 0 = true ∨ epochState svc ≠ 1 ∨ svc.epoch.atSched ≤ svc.now + 100000 * nsUnit) := by decide +kernel
theorem wit_EpochCommitExchangesCopies_1 : (({ epPend with now := 2 * secUnit - 5 } : State).life.rails = true) ∧ (epochState (advance ({ epPend with now := 2 * secUnit - 5 } : State) 1) = 1) ∧ ((advance ({ epPend with now := 2 * secUnit - 5 } : State) 1).epoch.atSched ≤ (advance ({ epPend with now := 2 * secUnit - 5 } : State) 1).now + 100000 * nsUnit) ∧ (notReady (advance ({ epPend with now := 2 * secUnit - 5 } : State) 1) (([]).filter fun j => decide (j ≤ 83)) = []) := by decide +kernel
theorem wit_EpochCommitExchangesCopies_2 : (({ epPend with now := 2 * secUnit - 5 } : State).life.rails = true) ∧ (epochState (advance ({ epPend with now := 2 * secUnit - 5 } : State) 1) = 1) ∧ ((advance ({ epPend with now := 2 * secUnit - 5 } : State) 1).epoch.atSched ≤ (advance ({ epPend with now := 2 * secUnit - 5 } : State) 1).now + 100000 * nsUnit) ∧ (notReady (advance ({ epPend with now := 2 * secUnit - 5 } : State) 1) (([7, 3]).filter fun j => decide (j ≤ 83)) = 7 :: ([3])) := by decide +kernel
theorem wit_EpochCommitExchangesCopies_3 : (epArmed.life.rails = true) ∧ (epochState (advance epArmed 1) = 2) ∧ (epArmed.epoch.oldReadable = false) ∧ (epArmed.epoch.xmod = false) ∧ (epArmed.epoch.atSched ≤ (advance epArmed 1).now) := by decide +kernel
theorem wit_EpochCommitExchangesCopies_4 : (epOld.life.rails = true) ∧ (epOld.epoch.oldReadable = true) ∧ (epOld.epoch.lastAt + 5000 * nsUnit ≤ (advance epOld 1).now) ∧ (earlyFrame (advance epOld 1) = false ∨ epOld.epoch.lastAt + 1004000 * nsUnit ≤ (advance epOld 1).now) := by decide +kernel
theorem wit_EpochCommitExchangesCopies_5 : (epRefresh.life.rails = true) ∧ (epochState (advance epRefresh 1) = 3) := by decide +kernel

/-! ### time -/

/-- TIME_IN is the primary source, PTP the secondary. -/
def tmSrc : State := svc.setReg Reg.timeSrcCfg 0x2010
def tmIn : State := { tmSrc with time := { tmSrc.time with inLocked := true } }
def tmValid : State := { tmIn.setRf Reg.timeStatus 0 0 1 with time := { tmIn.time with priLocked := true, secLocked := true } }
def tmTwo : State := { tmSrc with up := 3 * secUnit, now := 3 * secUnit, time := { tmSrc.time with goodEdges := 2, lastEdge := some (2 * secUnit) } }
def tmOff : State := { tmIn with up := 3 * secUnit + 5000 * nsUnit, now := 3 * secUnit + 5000 * nsUnit, time := { tmIn.time with goodUp := 2 * secUnit, lastEdge := some (2 * secUnit) } }
def tmOn : State := { tmOff with up := 3 * secUnit }
def tmOut : State := (svc.setReg Reg.timeOutCfg 0xC0000064).setReg Reg.timeOutOfs 0
theorem wit_TimeFollowsItsSources_1 : (tmIn.life.rails = true) ∧ (srcOf tmIn false ≠ 0) ∧ (srcOf tmIn false ≠ 1 ∨ tmIn.time.inLocked = true) ∧ (srcOf tmIn false ≠ 3 ∨ courTimeOk (advance tmIn 1) = true) ∧ (tmIn.rb Reg.timeStatus 0 = false) := by decide +kernel
theorem wit_TimeFollowsItsSources_2 : (tmValid.life.rails = true) ∧ (srcOf tmValid false ≠ 0) ∧ (srcOf tmValid false ≠ 1 ∨ tmValid.time.inLocked = true) ∧ (srcOf tmValid false ≠ 3 ∨ courTimeOk (advance tmValid 1) = true) ∧ (tmValid.rb Reg.timeStatus 0 = true) := by decide +kernel
theorem wit_TimeFollowsItsSources_3 : (tmSrc.life.rails = true) ∧ (srcOf tmSrc true ≠ 0) ∧ (srcOf tmSrc true ≠ 1 ∨ tmSrc.time.inLocked = true) ∧ (srcOf tmSrc true ≠ 3 ∨ courTimeOk (advance tmSrc 1) = true) := by decide +kernel
theorem wit_TimeFollowsItsSources_4 : (tmValid.life.rails = true) ∧ (tmValid.time.priLocked = true) := by decide +kernel
theorem wit_TimeFollowsItsSources_5 : (tmValid.life.rails = true) ∧ (tmValid.time.secLocked = true) := by decide +kernel
theorem wit_TimeFollowsItsSources_6 : (tmSrc.life.rails = true) ∧ (5 < 50 * nsUnit) := by decide +kernel
theorem wit_TimeFollowsItsSources_7 : (tmTwo.life.rails = true) ∧ (50 * nsUnit ≤ (60 * nsUnit)) ∧ (tmTwo.time.inLocked = false) ∧ (tmTwo.time.goodEdges = 2) ∧ (tmTwo.time.lastEdge = some (2 * secUnit)) ∧ ((((advance tmTwo 1).up : Int) - (2 * secUnit) - secUnit).natAbs ≤ 10000 * nsUnit) := by decide +kernel
theorem wit_TimeFollowsItsSources_8 : (tmSrc.life.rails = true) ∧ (50 * nsUnit ≤ (60 * nsUnit)) ∧ (tmSrc.time.inLocked = false) ∧ (tmSrc.time.goodEdges < 2) := by decide +kernel
theorem wit_TimeFollowsItsSources_9 : (tmOn.life.rails = true) ∧ (50 * nsUnit ≤ (60 * nsUnit)) ∧ (tmOn.time.inLocked = true) ∧ ((edgePhase (advance tmOn 1) (advance tmOn 1).up).natAbs ≤ 1000 * nsUnit) := by decide +kernel
theorem wit_TimeFollowsItsSources_10 : (tmOff.life.rails = true) ∧ (50 * nsUnit ≤ (60 * nsUnit)) ∧ (tmOff.time.inLocked = true) ∧ (tmOff.time.offEdges = []) ∧ (1000 * nsUnit < (edgePhase (advance tmOff 1) (advance tmOff 1).up).natAbs) ∧ (tmOff.reg Reg.timeInOffCnt = 0) := by decide +kernel
theorem wit_TimeFollowsItsSources_11 : (tmTwo.life.rails = true) ∧ (tmTwo.time.lastEdge = some (2 * secUnit)) ∧ ((2 * secUnit) + secUnit + 10000 * nsUnit < (advance tmTwo (2 * secUnit)).up) := by decide +kernel
theorem wit_TimeFollowsItsSources_12 : (tmOut.life.rails = true) ∧ (timeOutLevel (advance tmOut 1) ≠ tmOut.time.outHigh) := by decide +kernel
theorem wit_TimeFollowsItsSources_13 : (svc.life.rails = true) ∧ (svc.time.wordAt + 1024 * nsUnit ≤ (advance svc (1024 * nsUnit)).up) := by decide +kernel
theorem wit_TimeFollowsItsSources_14 : ((svc.holdLo 0x0F00 Reg.todLo 9).life.rails = true) ∧ (takes (svc.holdLo 0x0F00 Reg.todLo 9) 0x0F00 Reg.todHi (1 : Word) = true) ∧ ((svc.holdLo 0x0F00 Reg.todLo 9).held 0x0F00 Reg.todLo = some (9 : Word)) := by decide +kernel
theorem wit_TimeSteps_1 : (svc.life.rails = true) ∧ (takes svc 0x0F00 Reg.timeStepR (7 : Word) = true) ∧ (svc.rf Reg.epochStatus 18 16 ≠ 1) ∧ (svc.rf Reg.epochStatus 18 16 ≠ 2) := by decide +kernel
theorem wit_TimeSteps_2 : ((svc.setRf Reg.epochStatus 18 16 2).life.rails = true) ∧ (takes (svc.setRf Reg.epochStatus 18 16 2) 0x0F00 Reg.timeStepR (7 : Word) = true) ∧ ((svc.setRf Reg.epochStatus 18 16 2).rf Reg.epochStatus 18 16 = 1 ∨ (svc.setRf Reg.epochStatus 18 16 2).rf Reg.epochStatus 18 16 = 2) := by decide +kernel

/-! ### ports -/

/-- A formed envelope in the store of slice 0. -/
def netStore : State := svc.setSlice 0 { svc.slice 0 with store := [{ port := 4, cls := 0, pm := 0, cell := 9, env := some (List.replicate 16 0), head := [], extKey := 0, waiting := [] }] }
def netPre : State := (net.setRf (pReg Reg.portPreemptCfg 4) 1 0 1).setRf (pReg Reg.portPreemptStat 4) 2 0 1
def netTs : State := net.setPort 4 { net.port 4 with tsq := [{ pm := 77, frac := 3, seqId := 4, msgType := 0, domain := 1 }] }
def netFull : State := net.setReg (Reg.sortAdmitLim 0 0) 0
theorem wit_FrameBecomesEnvelope_1 : ((advance net 1).dataPath = true) ∧ (portReceives (advance net 1) 4 = true) ∧ (groupTimed net 4 = true) ∧ (net.clear (laneIn 4) = true) ∧ ((net.port 4).rx = none) ∧ ((net.port 4).discarding = false) ∧ (head64.take 64 ≠ []) ∧ (cellFree net 9 = true) ∧ (rxSecured net 4 = false) ∧ (beNat (slice (head64.take 64) 12 2) ≠ 0x8808) ∧ ((frameClass (advance net 1) 4 (head64.take 64) (decide ((head64.take 64).length < 64))) = frameClass (advance net 1) 4 (head64.take 64) (decide ((head64.take 64).length < 64))) ∧ (((((advance net 1).now : Int) - byteTime net 4 (head64.take 64).length + psUnits (net.rf (pReg Reg.portTsAdj 4) 15 0)).toNat) = (((advance net 1).now : Int) - byteTime net 4 (head64.take 64).length + psUnits (net.rf (pReg Reg.portTsAdj 4) 15 0)).toNat) ∧ (portAdmits (advance net 1) 4 (frameClass (advance net 1) 4 (head64.take 64) (decide ((head64.take 64).length < 64))) ((((advance net 1).now : Int) - byteTime net 4 (head64.take 64).length + psUnits (net.rf (pReg Reg.portTsAdj 4) 15 0)).toNat) = true) := by decide +kernel
theorem wit_FrameBecomesEnvelope_2 : ((advance netFull 1).dataPath = true) ∧ (portReceives (advance netFull 1) 4 = true) ∧ (groupTimed netFull 4 = true) ∧ (netFull.clear (laneIn 4) = true) ∧ ((netFull.port 4).rx = none) ∧ ((netFull.port 4).discarding = false) ∧ (head64.take 64 ≠ []) ∧ (cellFree netFull 9 = true) ∧ (rxSecured netFull 4 = false) ∧ (beNat (slice (head64.take 64) 12 2) ≠ 0x8808) ∧ ((frameClass (advance netFull 1) 4 (head64.take 64) (decide ((head64.take 64).length < 64))) = frameClass (advance netFull 1) 4 (head64.take 64) (decide ((head64.take 64).length < 64))) ∧ (((((advance netFull 1).now : Int) - byteTime netFull 4 (head64.take 64).length + psUnits (netFull.rf (pReg Reg.portTsAdj 4) 15 0)).toNat) = (((advance netFull 1).now : Int) - byteTime netFull 4 (head64.take 64).length + psUnits (netFull.rf (pReg Reg.portTsAdj 4) 15 0)).toNat) ∧ (portAdmits (advance netFull 1) 4 (frameClass (advance netFull 1) 4 (head64.take 64) (decide ((head64.take 64).length < 64))) ((((advance netFull 1).now : Int) - byteTime netFull 4 (head64.take 64).length + psUnits (netFull.rf (pReg Reg.portTsAdj 4) 15 0)).toNat) = false) := by decide +kernel
theorem wit_FrameBecomesEnvelope_3 : ((advance (netRx true true) 1).dataPath = true) ∧ ((netRx true true).clear (laneIn 4) = true) ∧ (((netRx true true).port 4).rx = some (rx4 true true)) ∧ ((rx4 true true).admitted = true) ∧ ((rx4 true true).ct = true) ∧ ((rx4 true true).formed = false) ∧ (headLength (netRx true true) 4 (rx4 true true).cls ≤ ((rx4 true true).bytes ++ (List.replicate 5 0)).length) ∧ (((rx4 true true).bytes ++ (List.replicate 5 0)).length ≤ maxLen (netRx true true) 4) := by decide +kernel
theorem wit_FrameBecomesEnvelope_4 : (netStore.dataPath = true) ∧ (0 < 16) ∧ ((netStore.slice 0).store[0]? = some ((netStore.slice 0).store.getD 0 default)) ∧ (((netStore.slice 0).store.getD 0 default).env = some (List.replicate 16 0)) ∧ (((netStore.slice 0).store.getD 0 default).waiting = []) ∧ (((netStore.slice 0).store.take 0).any (fun o => o.port == ((netStore.slice 0).store.getD 0 default).port && o.cls == ((netStore.slice 0).store.getD 0 default).cls) = false) ∧ ((netStore.hatch (hatchNo 2 0)).held = []) ∧ ((netStore.hatch (hatchNo 2 0)).channel (hatchNo 2 0) ⟨.env (setEf (List.replicate 16 0) 2 31 16 (mapGet 0 (netStore.slice 0).nextSeq (eDomain (List.replicate 16 0)))) ((netStore.slice 0).store.getD 0 default).head, eDomain (List.replicate 16 0), ((netStore.slice 0).store.getD 0 default).cls == 7⟩ = some false) := by decide +kernel
theorem wit_FrameReceptionEnds_1 : ((advance (netRx true true) 1).dataPath = true) ∧ ((netRx true true).clear (laneIn 4) = true) ∧ (((netRx true true).port 4).rx = some (rx4 true true)) ∧ (((netRx true true).port 4).rxPre = none) ∧ ((0 < 2 ∧ RxEnd.last ≠ .badFragments) ∨ preemptEn (netRx true true) 4 = true) := by decide +kernel
theorem wit_FrameReceptionEnds_2 : ((advance (netRx true false) 1).dataPath = true) ∧ ((netRx true false).clear (laneIn 4) = true) ∧ (((netRx true false).port 4).rx = some (rx4 true false)) ∧ (((netRx true false).port 4).rxPre = none) ∧ ((rx4 true false).admitted = true) ∧ ((rx4 true false).formed = false) ∧ ((rx4 true false).ct = false ∨ ((rx4 true false).bytes ++ (fcsOf head64)).length ≤ headLength (netRx true false) 4 (rx4 true false).cls) ∧ (64 ≤ ((rx4 true false).bytes ++ (fcsOf head64)).length) ∧ (((rx4 true false).bytes ++ (fcsOf head64)).length ≤ maxLen (netRx true false) 4) ∧ (beNat (slice ((rx4 true false).bytes ++ (fcsOf head64)) 12 2) ≠ 0x8808) ∧ (((rx4 true false).bytes ++ (fcsOf head64)).drop (((rx4 true false).bytes ++ (fcsOf head64)).length - 4) = fcsOf (((rx4 true false).bytes ++ (fcsOf head64)).take (((rx4 true false).bytes ++ (fcsOf head64)).length - 4))) := by decide +kernel
theorem wit_FrameReceptionEnds_3 : ((advance (netRx false false) 1).dataPath = true) ∧ ((netRx false false).clear (laneIn 4) = true) ∧ (((netRx false false).port 4).rx = some (rx4 false false)) ∧ (((netRx false false).port 4).rxPre = none) ∧ ((rx4 false false).admitted = false) ∧ (((rx4 false false).bytes ++ ([])).length < 64) ∧ (64 ≤ maxLen (netRx false false) 4) ∧ (((netRx false false).reg (pReg Reg.portRuntCnt 4)).toNat < 0xFFFFFFFE) := by decide +kernel
theorem wit_FrameReceptionEnds_4 : ((advance (netRx true false) 1).dataPath = true) ∧ ((netRx true false).clear (laneIn 4) = true) ∧ (((netRx true false).port 4).rx = some (rx4 true false)) ∧ (((netRx true false).port 4).rxPre = none) ∧ ((rx4 true false).admitted = true) ∧ ((rx4 true false).formed = false) ∧ ((rx4 true false).ct = false) := by decide +kernel
theorem wit_FrameReceptionEnds_5 : ((advance (netRx true true) 1).dataPath = true) ∧ (((netRx true true).port 4).rx ≠ none) ∧ (stallLimit (netRx true true) 4 ≤ (2 ^ 60)) := by decide +kernel
theorem wit_FrameReceptionEnds_6 : ((advance (netRx false false) 1).dataPath = true) ∧ (((netRx false false).port 4).rx = some (rx4 false false)) ∧ (((netRx false false).port 4).rxPre = none) ∧ ((rx4 false false).admitted = false) ∧ (stallLimit (netRx false false) 4 ≤ (2 ^ 60)) := by decide +kernel
theorem wit_PortLinksAndLanes_1 : (net.life.rails = true) ∧ ((net.port 4).linkUp = true) := by decide +kernel
theorem wit_PortLinksAndLanes_2 : ((advance (net.setPort 4 default) 1).dataPath = true) ∧ (portExists (net.setPort 4 default) 4 = true) ∧ ((net.setPort 4 default).rb (Reg.laneCfg (4 / 4)) 16 = true) ∧ ((net.setPort 4 default).rb (Reg.laneStat (4 / 4)) 7 = true) ∧ (((net.setPort 4 default).port 4).linkUp = false) := by decide +kernel
theorem wit_PortLinksAndLanes_3 : ((advance netPre 1).dataPath = true) ∧ (4 < 512) ∧ (preemptEn netPre 4 = true) ∧ (netPre.rb (pReg Reg.portPreemptCfg 4) 1 = false) ∧ ((netPre.port 4).linkUp = true) ∧ (netPre.rf (pReg Reg.portPreemptStat 4) 2 0 = 1 ∨ (netPre.rf (pReg Reg.portPreemptStat 4) 2 0 = 2 ∧ (netPre.port 4).verifyAt ≤ (advance netPre 1).up)) := by decide +kernel
theorem wit_PortLinksAndLanes_4 : ((netPre.setRf (pReg Reg.portPreemptStat 4) 2 0 2).dataPath = true) ∧ (4 < 512) ∧ ((netPre.setRf (pReg Reg.portPreemptStat 4) 2 0 2).rf (pReg Reg.portPreemptStat 4) 2 0 = 2) ∧ (((netPre.setRf (pReg Reg.portPreemptStat 4) 2 0 2).port 4).linkUp = true) := by decide +kernel
theorem wit_PortLinksAndLanes_5 : ((net.setRf (Reg.laneStat 0) 7 7 1).life.rails = true) ∧ (0 < 8) ∧ ((net.setRf (Reg.laneStat 0) 7 7 1).rb (Reg.laneStat (0 * 16)) 7 = true) := by decide +kernel
theorem wit_PortLinksAndLanes_6 : (net.life.rails = true) ∧ (0 < 8) ∧ (net.rb (Reg.laneStat (0 * 16)) 7 = false) := by decide +kernel
theorem wit_PortLinksAndLanes_7 : (net.life.rails = true) ∧ (1 < 128) ∧ (takes net 0x0F00 (Reg.laneCfg 1) (0x00001 : Word) = true) ∧ (laneRefused 1 (0x00001 : Word) net = false) := by decide +kernel
theorem wit_PortLinksAndLanes_8 : (net.life.rails = true) ∧ (1 < 128) ∧ (takes net 0x0F00 (Reg.laneCfg 1) (0x10003 : Word) = true) ∧ (laneRefused 1 (0x10003 : Word) net = true) := by decide +kernel
theorem wit_PortLinksAndLanes_9 : (net.life.rails = true) ∧ (4 < 512) ∧ (takes net 0x0F00 (pReg Reg.portXpolCfg 4) (0x80064864 : Word) = true) ∧ (1 ≤ fld (0x80064864 : Word) 6 0) ∧ (fld (0x80064864 : Word) 6 0 ≤ 100) ∧ (1 ≤ fld (0x80064864 : Word) 11 8) ∧ (fld (0x80064864 : Word) 11 8 ≤ 8) ∧ (bitOf (0x80064864 : Word) 31 = false ∨ 1 ≤ fld (0x80064864 : Word) 27 12) := by decide +kernel
theorem wit_TsqPopTakesTheOldest_1 : (netTs.life.rails = true) ∧ (4 < 512) ∧ (reaches netTs 0x0F00 (pReg Reg.tsqW0 4) = true) ∧ ((netTs.port 4).tsq = ({ pm := 77, frac := 3, seqId := 4, msgType := 0, domain := 1 } : Tsq) :: ([])) := by decide +kernel
theorem wit_TsqPopTakesTheOldest_2 : (net.life.rails = true) ∧ (4 < 512) ∧ (reaches net 0x0F00 (pReg Reg.tsqW0 4) = true) ∧ ((net.port 4).tsq = []) := by decide +kernel

/-! ### gate -/

/-- Station 0 with an envelope at the head of a sub-channel of its hatch, and thread 0 of its first engine waiting for work. -/
def env0 : Env := List.replicate 16 0
def envV : Env := modAt env0 11 fun _ => 1
def envC : Env := modAt env0 11 fun _ => 0x10000
def stn0 (e : Env) (xp : Bool) : State :=
  (((svc.setReg (thrCfgR 0) 0xA0000000).setThrState 0 2).withThr 0 fun t => { t with waitMask := 1 }).setHatch (inHatch 0)
    (if xp then { (default : Hatch) with xFifo := [⟨.env e [], 3, true⟩] } else { (default : Hatch) with gFifo := [⟨.env e [], 3, false⟩] })
def gate0 (rel : Bool) : GateItem := ⟨env0, [], 3, false, if rel then none else some 0, rel, false, 0, 0, []⟩
def gated (rel : Bool) : State := svc.setStation 0 { (default : StationSt) with gate := [gate0 rel] }
def int0 (e : Env) (en : Nat) : State :=
  let s := ((svc.setReg (Reg.intCfg0 0) 0x80000000).setReg (Reg.intCfg1 0) 0x100000).setFrame 0 { (default : Frame) with cells := [0], ended := en, refs := 1 }
  { s with depot := { s.depot with ph := [(4352, [e])] } }
theorem wit_StationsHandOutAndGatesKeepOrder_1 : ((advance (stn0 env0 false) 1).dataPath = true) ∧ (0 < 48) ∧ (gateInflight (stn0 env0 false) 0 < 64) ∧ (((stn0 env0 false).hatch (inHatch 0)).xFifo = []) ∧ (((stn0 env0 false).hatch (inHatch 0)).gFifo = ⟨.env env0 ([]), 3, false⟩ :: ([])) ∧ (eVoid env0 = false) ∧ (stationThread (advance (stn0 env0 false) 1) 0 env0 = some 0) := by decide +kernel
theorem wit_StationsHandOutAndGatesKeepOrder_2 : ((advance (stn0 env0 true) 1).dataPath = true) ∧ (0 < 48) ∧ (gateInflight (stn0 env0 true) 0 < 64) ∧ (((stn0 env0 true).hatch (inHatch 0)).xFifo = ⟨.env env0 ([]), 3, true⟩ :: ([])) ∧ (eVoid env0 = false) ∧ (stationThread (advance (stn0 env0 true) 1) 0 env0 = some 0) := by decide +kernel
theorem wit_StationsHandOutAndGatesKeepOrder_3 : ((advance (stn0 envV true) 1).dataPath = true) ∧ (0 < 48) ∧ (gateInflight (stn0 envV true) 0 < 64) ∧ (((stn0 envV true).hatch (inHatch 0)).xFifo = ⟨.env envV ([]), 3, true⟩ :: ([])) ∧ (eVoid envV = true) := by decide +kernel
theorem wit_StationsHandOutAndGatesKeepOrder_4 : ((((stn0 env0 false).setThrState 0 0).hatch (inHatch 0)).xFifo = []) ∧ ((((stn0 env0 false).setThrState 0 0).hatch (inHatch 0)).gFifo = ⟨.env env0 ([]), 3, false⟩ :: ([])) ∧ (eVoid env0 = false) ∧ (stationThread (advance ((stn0 env0 false).setThrState 0 0) 1) 0 env0 = none) := by decide +kernel
theorem wit_StationsHandOutAndGatesKeepOrder_5 : ((advance (gated true) 1).dataPath = true) ∧ (0 < 48) ∧ (((gated true).station 0).gate[0]? = some (gate0 true)) ∧ (gateMay ((gated true).station 0).gate 0 = true) := by decide +kernel
theorem wit_StationsHandOutAndGatesKeepOrder_6 : (((gated false).station 0).gate[0]? = some (gate0 false)) ∧ (gateMay ((gated false).station 0).gate 0 = false) := by decide +kernel
theorem wit_StationsHandOutAndGatesKeepOrder_7 : ((advance (gated false) 1).dataPath = true) ∧ (0 < 48) ∧ (((gated false).station 0).gate[0]? = some (gate0 false)) ∧ ((gate0 false).released = false) ∧ (envOk (gate0 false).env = true) ∧ ((gate0 false).thread = some 0) ∧ ((gate0 false).since + (gate0 false).limit < (gated false).up + 1) := by decide +kernel
theorem wit_InternalPigeonholeDelivers_1 : ((advance (int0 env0 1) 1).dataPath = true) ∧ (0 < 64) ∧ ((int0 env0 1).rb (Reg.intCfg0 0) 31 = true) ∧ (mapGet [] (int0 env0 1).depot.ph (4352 + 0) = env0 :: ([])) ∧ (eCut env0 = false ∨ ((int0 env0 1).frame (eCell env0)).ended ≠ 2) ∧ (((int0 env0 1).frame (eCell env0)).ended ≠ 0) ∧ (0 = mapGet 0 (int0 env0 1).depot.ringPos 0 % 2 ^ (int0 env0 1).rf (Reg.intCfg0 0) 30 27) ∧ (bitOf (shmWord (int0 env0 1) (intIsland 0) (((int0 env0 1).reg (Reg.intCfg1 0)).toNat + 0 * 256)).data 31 = false) ∧ (intIsland 0 = 81 ∨ dispatchRoom (int0 env0 1) (intIsland 0 - 73) = true) := by decide +kernel
theorem wit_InternalPigeonholeDelivers_2 : ((advance (int0 envC 2) 1).dataPath = true) ∧ (0 < 64) ∧ (mapGet [] (int0 envC 2).depot.ph (4352 + 0) = envC :: ([])) ∧ (eCut envC = true) ∧ (((int0 envC 2).frame (eCell envC)).ended = 2) := by decide +kernel

/-! ### depot -/

def env1 : Env := modAt (List.replicate 16 0) 0 fun _ => 9
/-- Envelopes at the Depot: a void, one for no pigeonhole, and one of class 7 for port 4. -/
def eNo : Env := modAt env1 9 fun _ => 0xFFF80000
def e7 : Env := modAt (modAt env1 1 fun _ => 0x03800000) 9 fun _ => 0x01381000
def ph7 : Nat := 39
def frm (n : Nat) : Frame := { (default : Frame) with cells := [9], bytes := List.replicate n 0, refs := 1, landing := some 0, ended := 1 }
def arr (e : Env) (r : Nat) : State :=
  (net.setHatch (hatchNo 4 0) { (default : Hatch) with gFifo := [⟨.env e [], 0, false⟩] }).setFrame 9 { frm 64 with refs := r }
def landing (c : Nat) : State := (svc.setReg Reg.depotLandCfg (BitVec.ofNat 32 c)).setFrame 9 { frm 400 with ended := 0 }
def voq1 (q : Nat) (l : List (Nat × Nat)) : State :=
  { net with depot := { net.depot with voq := [(q, [{ env := e7, arr := 0, next := 0, lead := false }])], matched := l } }
def ph4 (e : Env) (en : Nat) : State :=
  let s := net.setFrame 9 { frm 64 with ended := en }
  { s with depot := { s.depot with ph := [(39, [e])] } }
def gcl (n : Nat) (w : Word) : State := svc.setPort 0 { (default : PortSt) with gclStaging := if w = 0 then [] else [(0, w)], gclActive := [w], gateEnd := n }
def gclDue : State := (svc.setRf (Reg.portGateCtl 0) 29 29 1).setPort 0 { (default : PortSt) with gclNext := [0x01000100] }
theorem wit_DepotAdmitsAndVoids_1 : ((arr e7 1).dataPath = true) ∧ (0 < 16) ∧ (((arr e7 1).hatch (hatchNo 4 0)).front = some ⟨.env (e7 : Env) ([]), 0, false⟩) := by decide +kernel
theorem wit_DepotAdmitsAndVoids_2 : ((arr e7 1).dataPath = true) ∧ (0 < 16) ∧ (((arr e7 1).hatch (hatchNo 4 0)).front = some ⟨.env (e7 : Env) ([]), 0, false⟩) ∧ (eVoid (e7 : Env) = false) ∧ (eColour (e7 : Env) ≠ 3) ∧ (eMc (e7 : Env) = true ∨ entryCheck (e7 : Env) = none) ∧ (eCut (e7 : Env) = false ∨ ((arr e7 1).frame (eCell (e7 : Env))).ended ≠ 2) := by decide +kernel
theorem wit_DepotAdmitsAndVoids_3 : ((arr (modAt env1 11 fun _ => 1) 2).dataPath = true) ∧ (0 < 16) ∧ (((arr (modAt env1 11 fun _ => 1) 2).hatch (hatchNo 4 0)).front = some ⟨.env (modAt env1 11 fun _ => 1) ([]), 0, false⟩) ∧ (envOk (modAt env1 11 fun _ => 1) = true) ∧ (eVoid (modAt env1 11 fun _ => 1) = true) ∧ (2 ≤ ((arr (modAt env1 11 fun _ => 1) 2).frame (eCell (modAt env1 11 fun _ => 1))).refs) ∧ (hasFrame (arr (modAt env1 11 fun _ => 1) 2) (eCell (modAt env1 11 fun _ => 1)) = true) := by decide +kernel
theorem wit_DepotAdmitsAndVoids_4 : ((arr eNo 1).dataPath = true) ∧ (0 < 16) ∧ (((arr eNo 1).hatch (hatchNo 4 0)).front = some ⟨.env eNo ([]), 0, false⟩) ∧ (envOk eNo = true) ∧ (eVoid eNo = false) ∧ (eMc eNo = false) ∧ (4416 ≤ ePh eNo) ∧ (mapGet 0 (arr eNo 1).depot.expSeq (eDomain eNo) = eSeq eNo) ∧ (((arr eNo 1).reg (Reg.depotVoidCnt 4)).toNat < 0xFFFFFFFE) := by decide +kernel
theorem wit_DepotAdmitsAndVoids_5 : ((arr e7 1).dataPath = true) ∧ (0 < 16) ∧ (((arr e7 1).hatch (hatchNo 4 0)).front = some ⟨.env (e7 : Env) ([]), 0, false⟩) ∧ (envOk (e7 : Env) = true) ∧ (eVoid (e7 : Env) = false) ∧ (eMc (e7 : Env) = false) ∧ (eClass (e7 : Env) = 7) ∧ (4 < 512) ∧ (ePh (e7 : Env) = 4 * 8 + 7) ∧ (eEgrPort (e7 : Env) = 4) ∧ (mapGet 0 (arr e7 1).depot.expSeq (eDomain (e7 : Env)) = eSeq (e7 : Env)) ∧ (eCut (e7 : Env) = false) ∧ (tenResetting (arr e7 1) (eTenancy (e7 : Env)) = false) ∧ ((∀ r < 16, (arr e7 1).rb (Reg.redCfg0 r) 31 = false)) ∧ (hasFrame (arr e7 1) (eCell (e7 : Env)) = true) ∧ (((arr e7 1).frame (eCell (e7 : Env))).refs = 1) ∧ (phAccepts (arr e7 1) (ePh (e7 : Env)) (eTenancy (e7 : Env)) = true) ∧ (phUse (arr e7 1) (ePh (e7 : Env)) + ((arr e7 1).frame (eCell (e7 : Env))).cells.length ≤ phMin (arr e7 1) (ePh (e7 : Env))) := by decide +kernel
theorem wit_CellsAndMulticastGroups_1 : ((landing 500).dataPath = true) ∧ ((landing 500).clear (hatchNo 1 (((landing 500).frame 9).inPort / 32)) = true) ∧ (hasFrame (landing 500) 9 = true) ∧ ((((landing 500).frame 9).cells = [] ∧ 10 = 9) ∨ (((landing 500).frame 9).cells ≠ [] ∧ cellFree (landing 500) 10 = true)) ∧ (10 < cellCount) ∧ (((landing 500).frame 9).ended ≠ 2) ∧ ((List.replicate 400 0) = (if ((landing 500).ports.any fun p => p.2.rxAll.any fun r => r.cell == 9 && r.admitted) = true then ((landing 500).frame 9).bytes ++ ([]) else ((landing 500).frame 9).bytes)) ∧ (((landing 500).frame 9).cells.length * 256 < (List.replicate 400 0).length) ∧ (landRoom (landing 500) ((landing 500).frame 9) = true) := by decide +kernel
theorem wit_CellsAndMulticastGroups_2 : ((landing 0).dataPath = true) ∧ ((landing 0).clear (hatchNo 1 (((landing 0).frame 9).inPort / 32)) = true) ∧ (hasFrame (landing 0) 9 = true) ∧ (((landing 0).frame 9).cells ≠ []) ∧ (cellFree (landing 0) 10 = true) ∧ (((landing 0).frame 9).ended ≠ 2) ∧ (((landing 0).ports.any fun p => p.2.rxAll.any fun r => r.cell == 9 && r.admitted) = false) ∧ (portsWith (landing 0) 9 = []) ∧ (((landing 0).frame 9).cells.length * 256 < ((landing 0).frame 9).bytes.length) ∧ (landRoom (landing 0) ((landing 0).frame 9) = false) ∧ (isFormed (landing 0) 9 = true) ∧ (((landing 0).reg Reg.depotLandFullCnt).toNat < 0xFFFFFFFE) := by decide +kernel
theorem wit_CellsAndMulticastGroups_3 : ((svc.setReg (Reg.mcData 1) 5).life.rails = true) ∧ (takes (svc.setReg (Reg.mcData 1) 5) 0x0F00 Reg.mcSel (0x80000003 : Word) = true) ∧ (bitOf (0x80000003 : Word) 31 = true) := by decide +kernel
theorem wit_CellsAndMulticastGroups_4 : (svc.life.rails = true) ∧ (takes svc 0x0F00 Reg.mcSel (0x40000003 : Word) = true) ∧ (bitOf (0x40000003 : Word) 30 = true) ∧ (bitOf (0x40000003 : Word) 31 = false) := by decide +kernel
theorem wit_MatchingMovesAndRelease_1 : ((advance (voq1 (voqNo 0 0 7) []) 1).dataPath = true) := by decide +kernel
theorem wit_MatchingMovesAndRelease_2 : ((advance (voq1 (voqNo 0 0 7) []) 1).dataPath = true) ∧ ((voq1 (voqNo 0 0 7) []).depot.matched = []) ∧ (0 < 16) ∧ (0 < 16) ∧ (7 < 8) ∧ ((voq1 (voqNo 0 0 7) []).depot.voq = [(voqNo 0 0 7, ({ env := e7, arr := 0, next := 0, lead := false } : VoqEntry) :: ([]))]) := by decide +kernel
theorem wit_MatchingMovesAndRelease_3 : ((advance (voq1 (voqNo 0 0 7) [(0, 0)]) 1).dataPath = true) ∧ ((voq1 (voqNo 0 0 7) [(0, 0)]).depot.matched = [(0, 0)]) ∧ (0 < 16) ∧ (0 < 16) ∧ ((voq1 (voqNo 0 0 7) [(0, 0)]).depot.voq = [(voqNo 0 0 7, [({ env := e7, arr := 0, next := 0, lead := false } : VoqEntry)])]) ∧ (eMc ({ env := e7, arr := 0, next := 0, lead := false } : VoqEntry).env = false) ∧ (({ env := e7, arr := 0, next := 0, lead := false } : VoqEntry).lead = false) := by decide +kernel
theorem wit_MatchingMovesAndRelease_4 : ((advance (ph4 e7 1) 1).dataPath = true) ∧ (4 < 512) ∧ (schedPick (advance (ph4 e7 1) 1) 4 = some (7, (net.port 4))) ∧ (7 = 7 ∨ expressFirst (advance (ph4 e7 1) 1) 4 = false) ∧ (mapGet [] (ph4 e7 1).depot.ph (4 * 8 + 7) = (e7 : Env) :: ([])) ∧ (eCut (e7 : Env) = false ∨ ((ph4 e7 1).frame (eCell (e7 : Env))).ended ≠ 2) ∧ ((((ph4 e7 1).hatch (hatchNo 5 (4 / 32))).channel (hatchNo 5 (4 / 32)) (envCEntry (ph4 e7 1) (4 * 8 + 7) (withLength (ph4 e7 1) (e7 : Env)))).isSome = true) ∧ (((ph4 e7 1).hatch (hatchNo 5 (4 / 32))).held = []) := by decide +kernel
theorem wit_MatchingMovesAndRelease_5 : ((advance (ph4 (modAt e7 11 fun _ => 0x10000) 2) 1).dataPath = true) ∧ (4 < 512) ∧ (schedPick (advance (ph4 (modAt e7 11 fun _ => 0x10000) 2) 1) 4 = some (7, (net.port 4))) ∧ (7 = 7 ∨ expressFirst (advance (ph4 (modAt e7 11 fun _ => 0x10000) 2) 1) 4 = false) ∧ (mapGet [] (ph4 (modAt e7 11 fun _ => 0x10000) 2).depot.ph (4 * 8 + 7) = (modAt e7 11 fun _ => 0x10000) :: ([])) ∧ (eCut (modAt e7 11 fun _ => 0x10000) = true) ∧ (((ph4 (modAt e7 11 fun _ => 0x10000) 2).frame (eCell (modAt e7 11 fun _ => 0x10000))).ended = 2) := by decide +kernel
theorem wit_MatchingMovesAndRelease_6 : ((advance (ph4 e7 1) 1).dataPath = true) ∧ (4 < 512) ∧ (eligible (advance (ph4 e7 1) 1) 4 7 = true) ∧ (mapGet [] (ph4 e7 1).depot.ph (4 * 8 + 7) = (e7 : Env) :: ([])) ∧ (eCut (e7 : Env) = false) ∧ ((∀ i < 8, (ph4 e7 1).rb (Reg.mirCfg i) 31 = false)) ∧ ((((ph4 e7 1).hatch (hatchNo 5 (4 / 32))).channel (hatchNo 5 (4 / 32)) (envCEntry (ph4 e7 1) (4 * 8 + 7) (e7 : Env))).isSome = true) ∧ (((ph4 e7 1).hatch (hatchNo 5 (4 / 32))).held = []) := by decide +kernel
theorem wit_MatchingMovesAndRelease_7 : ((advance (ph4 (modAt e7 11 fun _ => 0x10000) 2) 1).dataPath = true) ∧ (4 < 512) ∧ (eligible (advance (ph4 (modAt e7 11 fun _ => 0x10000) 2) 1) 4 7 = true) ∧ (mapGet [] (ph4 (modAt e7 11 fun _ => 0x10000) 2).depot.ph (4 * 8 + 7) = (modAt e7 11 fun _ => 0x10000) :: ([])) ∧ (eCut (modAt e7 11 fun _ => 0x10000) = true) ∧ (((ph4 (modAt e7 11 fun _ => 0x10000) 2).frame (eCell (modAt e7 11 fun _ => 0x10000))).ended = 2) ∧ (eVoid (modAt e7 11 fun _ => 0x10000) = false) ∧ (envOk (modAt e7 11 fun _ => 0x10000) = true) ∧ (((ph4 (modAt e7 11 fun _ => 0x10000) 2).reg (Reg.depotVoidCnt 7)).toNat < 0xFFFFFFFE) := by decide +kernel
theorem wit_GateListsSwapAndRun_1 : ((gcl 0 0x01000100).life.rails = true) ∧ (0 = (gcl 0 0x01000100).rf Reg.depotPortSel 8 0) ∧ (takes (gcl 0 0x01000100) 0x0F00 (Reg.portGateCtl 0) (0x40000001 : Word) = true) ∧ (bitOf (0x40000001 : Word) 30 = true) ∧ ((gcl 0 0x01000100).rb (Reg.portGateCtl 0) 29 = false) ∧ (1 ≤ fld (0x40000001 : Word) 5 0) ∧ (fld (0x40000001 : Word) 5 0 ≤ 32) ∧ ((gclStaged (gcl 0 0x01000100) 0 (fld (0x40000001 : Word) 5 0)).any (fun w => gclInterval w == 0) = false) := by decide +kernel
theorem wit_GateListsSwapAndRun_2 : ((gcl 0 0).life.rails = true) ∧ (0 = (gcl 0 0).rf Reg.depotPortSel 8 0) ∧ (takes (gcl 0 0) 0x0F00 (Reg.portGateCtl 0) (0x40000001 : Word) = true) ∧ (bitOf (0x40000001 : Word) 30 = true) ∧ (((gcl 0 0).rb (Reg.portGateCtl 0) 29 = true ∨ fld (0x40000001 : Word) 5 0 = 0 ∨ 32 < fld (0x40000001 : Word) 5 0 ∨ (gclStaged (gcl 0 0) 0 (fld (0x40000001 : Word) 5 0)).any (fun w => gclInterval w == 0) = true)) := by decide +kernel
theorem wit_GateListsSwapAndRun_3 : ((advance gclDue 1).life.rails = true) ∧ (0 < 512) ∧ (gclDue.rb (Reg.portGateCtl 0) 29 = true) ∧ ((gclDue.port 0).gclSwapAt ≤ (advance gclDue 1).now) := by decide +kernel
theorem wit_GateListsSwapAndRun_4 : ((advance (gcl 0 0x01000100) 1).life.rails = true) ∧ (0 < 512) ∧ (((gcl 0 0x01000100).port 0).gclActive ≠ []) ∧ (((gcl 0 0x01000100).port 0).gateEnd ≤ (advance (gcl 0 0x01000100) 1).now) ∧ (gclCycle ((gcl 0 0x01000100).port 0).gclActive ≠ 0) ∧ (((gcl 0 0x01000100).port 0).gclActive.length ≤ 32) := by decide +kernel

/-! ### editor -/

def envE : Env := modAt (List.replicate 16 0) 0 fun _ => 9
def edited (e : Env) (en : Nat) : State :=
  (((net.setReg (Reg.dirLearnCfg 0) 0).setReg (pReg Reg.portEditCfg 4) 0).setHatch (hatchNo 6 0) { (default : Hatch) with gFifo := [⟨.env e [], 32, false⟩] }).setFrame 9
    { (default : Frame) with cells := [9], bytes := whole64, refs := 1, ended := en }
def out4 (w : Bool) : OutFrame := { cell := 9, ph := 32, env := envE, bytes := if w then whole64 else [], whole := w, ptp := 0, hdr := [], udp := 0, rxLen := 64, txPm := 0 }
def sending (up w : Bool) (inP : Nat) : State :=
  let s := net.setFrame 9 { (default : Frame) with cells := [9], bytes := head64, refs := 1 }
  s.setPort 4 { (default : PortSt) with linkUp := up, outBuf := [{ out4 w with env := setEf envE 1 22 14 inP }] }
def sentBad : State := (sending true true 4).setPort 4 { (default : PortSt) with linkUp := true, outBuf := [{ out4 true with bad := true }] }
def begun : State := (net.setFrame 9 { (default : Frame) with cells := [9], bytes := head64, refs := 1 }).setPort 4 { net.port 4 with tx := some (out4 false) }
theorem wit_EditorTakesEnvelopes_1 : ((edited (setEf envE 11 0 0 1) 1).dataPath = true) ∧ (0 < 16) ∧ (((edited (setEf envE 11 0 0 1) 1).hatch (hatchNo 6 0)).front = some ⟨.env (setEf envE 11 0 0 1) ([]), 32, false⟩) ∧ (eVoid (setEf envE 11 0 0 1) = true) ∧ (((edited (setEf envE 11 0 0 1) 1).frame (eCell (setEf envE 11 0 0 1))).refs ≤ 1) := by decide +kernel
theorem wit_EditorTakesEnvelopes_2 : ((edited envE 2).dataPath = true) ∧ (0 < 16) ∧ (((edited envE 2).hatch (hatchNo 6 0)).front = some ⟨.env envE ([]), 32, false⟩) ∧ (eVoid envE = false) ∧ (((edited envE 2).frame (eCell envE)).ended = 2) ∧ (((edited envE 2).reg (pReg Reg.portEgrAbortCnt (32 / 8))).toNat < 0xFFFFFFFE) := by decide +kernel
theorem wit_EditorTakesEnvelopes_3 : ((edited envE 1).dataPath = true) ∧ (0 < 16) ∧ (((edited envE 1).hatch (hatchNo 6 0)).front = some ⟨.env envE ([]), 32, false⟩) ∧ (eVoid envE = false) ∧ ((edited envE 1).clear (cellRead 0) = true) ∧ (((edited envE 1).frame (eCell envE)).ended = 1) ∧ ((edited envE 1).rb (Reg.dirLearnCfg 0) 30 = false) ∧ ((edited envE 1).reg (pReg Reg.portEditCfg (32 / 8)) = 0) ∧ ((∀ r < 16, (edited envE 1).rb (Reg.redCfg0 r) 31 = false)) ∧ (eCe envE = false) ∧ (eTrunc envE = false) ∧ (ePstate envE ≠ 0x18) ∧ (ePstate envE ≠ 0x19) ∧ ((edited envE 1).rb (pReg Reg.portMacsecCfg (32 / 8)) 31 = false) ∧ (4 ≤ ((edited envE 1).frame (eCell envE)).bytes.length) ∧ (((edited envE 1).frame (eCell envE)).bytes.length ≤ maxLen (edited envE 1) (32 / 8)) := by decide +kernel
theorem wit_EditorTakesEnvelopes_4 : ((edited envE 0).dataPath = true) ∧ (0 < 16) ∧ (((edited envE 0).hatch (hatchNo 6 0)).front = some ⟨.env envE ([]), 32, false⟩) ∧ (eVoid envE = false) ∧ ((edited envE 0).clear (cellRead 0) = true) ∧ (((edited envE 0).frame (eCell envE)).ended = 0) ∧ ((edited envE 0).rb (Reg.dirLearnCfg 0) 30 = false) := by decide +kernel
theorem wit_EditorTakesEnvelopes_5 : ((edited envE 1).dataPath = true) ∧ (0 < 16) ∧ (((edited envE 1).hatch (hatchNo 6 0)).front = some ⟨.env envE ([]), 32, false⟩) ∧ (eVoid envE = false) ∧ ((edited envE 1).clear (cellRead 0) = true) ∧ (((edited envE 1).frame (eCell envE)).ended ≠ 2) ∧ (2 ≤ 3) := by decide +kernel
theorem wit_MacSendsFrames_1 : ((advance (sending false true 4) 1).dataPath = true) ∧ (4 < 512) ∧ (macFree (advance (sending false true 4) 1) 4 (((sending false true 4).port 4).outBuf.getD 0 default) = true) ∧ ((sending false true 4).clear (laneOut 4) = true) ∧ (nextOut ((sending false true 4).port 4) = some (0, (((sending false true 4).port 4).outBuf.getD 0 default))) ∧ (portUp (sending false true 4) 4 = false) ∧ ((((sending false true 4).port 4).outBuf.getD 0 default).whole = true) ∧ (((sending false true 4).reg (pReg Reg.portLinkdownDropCnt 4)).toNat < 0xFFFFFFFE) := by decide +kernel
theorem wit_MacSendsFrames_2 : ((advance (sending true true 4) 1).dataPath = true) ∧ (4 < 512) ∧ (macFree (advance (sending true true 4) 1) 4 (((sending true true 4).port 4).outBuf.getD 0 default) = true) ∧ ((sending true true 4).clear (laneOut 4) = true) ∧ (nextOut ((sending true true 4).port 4) = some (0, (((sending true true 4).port 4).outBuf.getD 0 default))) ∧ (portUp (sending true true 4) 4 = true) ∧ ((((sending true true 4).port 4).outBuf.getD 0 default).whole = true) ∧ ((((sending true true 4).port 4).outBuf.getD 0 default).bad = false) ∧ ((sending true true 4).rf (pReg Reg.portMacCfg 4) 21 20 = 0) := by decide +kernel
theorem wit_MacSendsFrames_3 : ((advance sentBad 1).dataPath = true) ∧ (4 < 512) ∧ (macFree (advance sentBad 1) 4 ((sentBad.port 4).outBuf.getD 0 default) = true) ∧ (sentBad.clear (laneOut 4) = true) ∧ (nextOut (sentBad.port 4) = some (0, ((sentBad.port 4).outBuf.getD 0 default))) ∧ (portUp sentBad 4 = true) ∧ (((sentBad.port 4).outBuf.getD 0 default).bad = true) := by decide +kernel
theorem wit_MacSendsFrames_4 : ((advance (sending true false 4) 1).dataPath = true) ∧ (4 < 512) ∧ (((sending true false 4).port 4).tx = none) ∧ (((sending true false 4).port 4).txx = none) ∧ ((sending true false 4).clear (laneOut 4) = true) ∧ (nextOut ((sending true false 4).port 4) = some (0, (((sending true false 4).port 4).outBuf.getD 0 default))) ∧ (portUp (sending true false 4) 4 = true) ∧ ((((sending true false 4).port 4).outBuf.getD 0 default).whole = false) ∧ ((((sending true false 4).port 4).outBuf.getD 0 default).bad = false) ∧ (portRate (sending true false 4) 4 ≤ portRate (sending true false 4) (eInPort (((sending true false 4).port 4).outBuf.getD 0 default).env)) := by decide +kernel
theorem wit_MacSendsFrames_5 : (nextOut ((sending true false 300).port 4) = some (0, (((sending true false 300).port 4).outBuf.getD 0 default))) ∧ (portUp (sending true false 300) 4 = true) ∧ ((((sending true false 300).port 4).outBuf.getD 0 default).whole = false) ∧ ((((sending true false 300).port 4).outBuf.getD 0 default).bad = false) ∧ (portRate (sending true false 300) (eInPort (((sending true false 300).port 4).outBuf.getD 0 default).env) < portRate (sending true false 300) 4) := by decide +kernel
theorem wit_MacSendsFrames_6 : ((advance begun 1).dataPath = true) ∧ ((begun.port 4).sendingAll = (out4 false) :: ([])) := by decide +kernel

/-! ### dir -/

/-- Slice 0 with a fill in flight and a line in its hot cache; with a command; with work for its insertion unit. -/
def dFill (st : Bool) : State := svc.setSlice 0 { (default : SliceSt) with fills := [⟨5, 77, st, 0, 9, []⟩], cache := [(3, ([], 1))] }
def dAns (st : Bool) (n : Nat) : State := (dFill st).setHatch (hatchNo 0x10 48) { (default : Hatch) with gFifo := [⟨.dramRsp 9 n [], 0, false⟩] }
def dRan (b : Bool) : State :=
  let s := svc.setSlice 0 { (default : SliceSt) with cmd := some ⟨3, 2, b, false, [], [], []⟩, cmdRes := some ⟨0, 6, [7], []⟩ }
  { s with dirs := { s.dirs with bcastLeft := if b then [3] else [] } }
def dLearn : State := svc.setSlice 0 { (default : SliceSt) with learnQ := [⟨5, 4, some 9⟩] }
def dLearn2 : State := svc.setSlice 0 { (default : SliceSt) with learnQ := [⟨5, 4, some 9⟩], learn := [((bucketsOf 2 0 (seedOf svc 0 2 false) 5).1, [⟨5, 1⟩])] }
def dFlush : State := svc.setSlice 0 { (default : SliceSt) with hostQ := [⟨7, 0, 0, 0⟩], cmd := some ⟨7, 2, false, false, [], [], []⟩ }
def dHost : State := svc.setSlice 0 { (default : SliceSt) with hostQ := [⟨2, 5, 0, 0⟩] }
def dBuild (b : List Nat) : State := svc.setSlice 0 { (default : SliceSt) with building := [2], shadowBad := b }
theorem dLearn2_find : hashFind (dLearn2.slice 0).learn 2 0 (seedOf dLearn2 0 2 false) 5 = some ⟨5, 1⟩ := by
  have h : seedOf dLearn2 0 2 false = seedOf svc 0 2 false := rfl
  have g : (dLearn2.slice 0).learn = [((bucketsOf 2 0 (seedOf svc 0 2 false) 5).1, [⟨5, 1⟩])] := rfl
  rw [h, g]; simp [hashFind, bucketAt, mapGet]
theorem wit_DirectoryCommandsTakeEffect_1 : (svc.life.rails = true) ∧ (0 < 16) ∧ (takes svc 0x0F00 (Reg.dirCmd 0) (0x80000201 : Word) = true) ∧ (bitOf (0x80000201 : Word) 31 = true) ∧ (dirRefused 0 (0x80000201 : Word) svc = false) ∧ (((Instr.dirInsert 0x0F00 0 0x80000201) = .dirInsert 0x0F00 0 (0x80000201 : Word) ∧ fld (0x80000201 : Word) 3 0 = 1) ∨ ((Instr.dirInsert 0x0F00 0 0x80000201) = .dirDelete 0x0F00 0 (0x80000201 : Word) ∧ fld (0x80000201 : Word) 3 0 = 2) ∨ ((Instr.dirInsert 0x0F00 0 0x80000201) = .dirLookupCmd 0x0F00 0 (0x80000201 : Word) ∧ fld (0x80000201 : Word) 3 0 = 3) ∨ ((Instr.dirInsert 0x0F00 0 0x80000201) = .dirInvalidate 0x0F00 0 (0x80000201 : Word) ∧ fld (0x80000201 : Word) 3 0 = 4) ∨ ((Instr.dirInsert 0x0F00 0 0x80000201) = .dirWriteIdx 0x0F00 0 (0x80000201 : Word) ∧ fld (0x80000201 : Word) 3 0 = 5) ∨ ((Instr.dirInsert 0x0F00 0 0x80000201) = .dirReadIdx 0x0F00 0 (0x80000201 : Word) ∧ fld (0x80000201 : Word) 3 0 = 6) ∨ ((Instr.dirInsert 0x0F00 0 0x80000201) = .dirFlush 0x0F00 0 (0x80000201 : Word) ∧ fld (0x80000201 : Word) 3 0 = 7)) := by decide +kernel
theorem wit_DirectoryCommandsTakeEffect_2 : (svc.life.rails = true) ∧ (0 < 16) ∧ (takes svc 0x0F00 (Reg.dirCmd 0) (0x80000201 : Word) = true) ∧ (bitOf (0x80000201 : Word) 31 = true) ∧ (fld (0x80000201 : Word) 3 0 = 1) ∧ (fld (0x80000201 : Word) 11 8 = 2) ∧ (dirRefused 0 (0x80000201 : Word) svc = false) := by decide +kernel
theorem wit_DirectoryCommandsTakeEffect_3 : (svc.life.rails = true) ∧ (0 < 16) ∧ (takes svc 0x0F00 (Reg.dirCmd 0) (0x80000202 : Word) = true) ∧ (bitOf (0x80000202 : Word) 31 = true) ∧ (fld (0x80000202 : Word) 3 0 = 2) ∧ (fld (0x80000202 : Word) 11 8 = 2) ∧ (dirRefused 0 (0x80000202 : Word) svc = false) := by decide +kernel
theorem wit_DirectoryCommandsTakeEffect_4 : (svc.life.rails = true) ∧ (takes svc 0x0F00 (Reg.dirCmd 0) (0x80020402 : Word) = true) ∧ (bitOf (0x80020402 : Word) 31 = true) ∧ (fld (0x80020402 : Word) 3 0 = 2) ∧ (fld (0x80020402 : Word) 11 8 = 4) ∧ (dirRefused 0 (0x80020402 : Word) svc = false) ∧ (stageHeld svc = false) ∧ ((cmdLpm (latchCmd svc 0 (0x80020402 : Word))).2.2.1 ≤ 32) ∧ (trimAddr false (cmdLpm (latchCmd svc 0 (0x80020402 : Word))).2.1 (cmdLpm (latchCmd svc 0 (0x80020402 : Word))).2.2.1 = (cmdLpm (latchCmd svc 0 (0x80020402 : Word))).2.1) := by decide +kernel
theorem wit_DirectoryCommandsTakeEffect_5 : (svc.life.rails = true) ∧ (0 < 16) ∧ (takes svc 0x0F00 (Reg.dirCmd 0) (0x80000203 : Word) = true) ∧ (bitOf (0x80000203 : Word) 31 = true) ∧ (fld (0x80000203 : Word) 3 0 = 3) ∧ (dirRefused 0 (0x80000203 : Word) svc = false) := by decide +kernel
theorem wit_DirectoryCommandsTakeEffect_6 : (svc.life.rails = true) ∧ (0 < 16) ∧ (takes svc 0x0F00 (Reg.dirCmd 0) (0x80000306 : Word) = true) ∧ (bitOf (0x80000306 : Word) 31 = true) ∧ (fld (0x80000306 : Word) 3 0 = 6) ∧ (dirRefused 0 (0x80000306 : Word) svc = false) := by decide +kernel
theorem wit_DirectoryCommandsTakeEffect_7 : (svc.life.rails = true) ∧ (takes svc 0x0F00 (Reg.dirCmd 0) (0x80020604 : Word) = true) ∧ (bitOf (0x80020604 : Word) 31 = true) ∧ (fld (0x80020604 : Word) 3 0 = 4) ∧ (dirRefused 0 (0x80020604 : Word) svc = false) := by decide +kernel
theorem wit_DirectoryCommandsTakeEffect_8 : ((svc.setReg (Reg.dirData0 0) 7).life.rails = true) ∧ (takes (svc.setReg (Reg.dirData0 0) 7) 0x0F00 (Reg.dirCmd 0) (0x80020305 : Word) = true) ∧ (bitOf (0x80020305 : Word) 31 = true) ∧ (fld (0x80020305 : Word) 3 0 = 5) ∧ (fld (0x80020305 : Word) 11 8 = 3) ∧ (dirRefused 0 (0x80020305 : Word) (svc.setReg (Reg.dirData0 0) 7) = false) ∧ (stageHeld (svc.setReg (Reg.dirData0 0) 7) = false) := by decide +kernel
theorem wit_DirectoryCommandsTakeEffect_9 : ((svc.setRf Reg.epochStatus 18 16 2).life.rails = true) ∧ (bitOf (0x80020305 : Word) 31 = true) ∧ (fld (0x80020305 : Word) 3 0 = 5) ∧ (fld (0x80020305 : Word) 11 8 = 3) ∧ (stageHeld (svc.setRf Reg.epochStatus 18 16 2) = true) := by decide +kernel
theorem wit_DirectoryCommandsTakeEffect_10 : (svc.life.rails = true) ∧ (0 < 16) ∧ (takes svc 0x0F00 (Reg.dirCmd 0) (0x80000207 : Word) = true) ∧ (bitOf (0x80000207 : Word) 31 = true) ∧ (fld (0x80000207 : Word) 3 0 = 7) ∧ (dirRefused 0 (0x80000207 : Word) svc = false) := by decide +kernel
theorem wit_DirectoryCommandsTakeEffect_11 : (svc.life.rails = true) ∧ (0 < 16) ∧ (takes svc 0x0F00 (Reg.dirCmd 0) (0x80000303 : Word) = true) ∧ (bitOf (0x80000303 : Word) 31 = true) ∧ (fld (0x80000303 : Word) 3 0 = 3) ∧ (dirRefused 0 (0x80000303 : Word) svc = true) := by decide +kernel
theorem wit_DirectoryCommandsEndAndLearn_1 : ((advance (dRan false) 1).life.rails = true) ∧ (0 < 16) ∧ ((dRan false).dirs.bcastLeft = []) ∧ (((dRan false).slice 0).cmd = some ((⟨3, 2, false, false, [], [], []⟩ : DirCmd))) ∧ (((dRan false).slice 0).cmdRes = some ((⟨0, 6, [7], []⟩ : CmdRes))) ∧ (((⟨3, 2, false, false, [], [], []⟩ : DirCmd)).bcast = false) ∧ (((⟨0, 6, [7], []⟩ : CmdRes)).status < 16) ∧ (((⟨0, 6, [7], []⟩ : CmdRes)).index < 2 ^ 24) := by decide +kernel
theorem wit_DirectoryCommandsEndAndLearn_2 : ((advance (dRan true) 1).life.rails = true) ∧ (3 < 16) ∧ ((dRan true).dirs.bcastLeft.contains 3 = true) ∧ (((dRan true).slice 0).cmd = some ((⟨3, 2, true, false, [], [], []⟩ : DirCmd))) ∧ (((dRan true).slice 0).cmdRes = some ((⟨0, 6, [7], []⟩ : CmdRes))) ∧ (((⟨3, 2, true, false, [], [], []⟩ : DirCmd)).bcast = true) ∧ ((((⟨0, 6, [7], []⟩ : CmdRes)).each.getD 3 (((⟨0, 6, [7], []⟩ : CmdRes)).status, ((⟨0, 6, [7], []⟩ : CmdRes)).index)).1 < 16) := by decide +kernel
theorem wit_DirectoryCommandsEndAndLearn_3 : ((advance (dRan true) 1).life.rails = true) ∧ (3 < 16) ∧ ((dRan true).dirs.bcastLeft = [3]) ∧ (((dRan true).slice 0).cmd = some ((⟨3, 2, true, false, [], [], []⟩ : DirCmd))) ∧ (((dRan true).slice 0).cmdRes = some ((⟨0, 6, [7], []⟩ : CmdRes))) ∧ (((⟨3, 2, true, false, [], [], []⟩ : DirCmd)).bcast = true) := by decide +kernel
theorem wit_DirectoryCommandsEndAndLearn_4 : (dHost.dataPath = true) ∧ ((dHost.slice 0).hostQ = ((⟨2, 5, 0, 0⟩ : HostWork)) :: ([])) ∧ (((dHost.slice 0).learnQ = [] ∨ (dHost.slice 0).lastHost = false)) := by decide +kernel
theorem wit_DirectoryCommandsEndAndLearn_5 : (dLearn.dataPath = true) ∧ ((dLearn.slice 0).learnQ = ((⟨5, 4, some 9⟩ : LearnReq)) :: ([])) ∧ (((dLearn.slice 0).hostQ = [] ∨ (dLearn.slice 0).lastHost = true)) := by decide +kernel
theorem wit_DirectoryCommandsEndAndLearn_6 : (dFlush.dataPath = true) ∧ ((dFlush.slice 0).hostQ = ((⟨7, 0, 0, 0⟩ : HostWork)) :: ([])) ∧ (((dFlush.slice 0).learnQ = [] ∨ (dFlush.slice 0).lastHost = false)) ∧ (((⟨7, 0, 0, 0⟩ : HostWork)).op = 7) ∧ (((⟨7, 0, 0, 0⟩ : HostWork)).ref = 0) ∧ ((dFlush.slice 0).cmd = some ((⟨7, 2, false, false, [], [], []⟩ : DirCmd))) := by decide +kernel
theorem wit_DirectoryCommandsEndAndLearn_7 : (dLearn.dataPath = true) ∧ ((dLearn.slice 0).learnQ = ((⟨5, 4, some 9⟩ : LearnReq)) :: ([])) ∧ (((dLearn.slice 0).hostQ = [] ∨ (dLearn.slice 0).lastHost = true)) ∧ (hashFind (dLearn.slice 0).learn 2 0 (seedOf dLearn 0 2 false) ((⟨5, 4, some 9⟩ : LearnReq)).key = none) ∧ (learnedOf (dLearn.slice 0) (((⟨5, 4, some 9⟩ : LearnReq)).key / 2 ^ 60) < dLearn.rf (Reg.dirTenLimit 0 (((⟨5, 4, some 9⟩ : LearnReq)).key / 2 ^ 60)) 18 0) ∧ ((bucketAt (dLearn.slice 0).learn (bucketsOf 2 0 (seedOf dLearn 0 2 false) ((⟨5, 4, some 9⟩ : LearnReq)).key).1).length < 4) := by decide +kernel
theorem wit_DirectoryCommandsEndAndLearn_8 : (dLearn2.dataPath = true) ∧ ((dLearn2.slice 0).learnQ = ((⟨5, 4, some 9⟩ : LearnReq)) :: ([])) ∧ ((dLearn2.slice 0).hostQ = []) ∧ (hashFind (dLearn2.slice 0).learn 2 0 (seedOf dLearn2 0 2 false) ((⟨5, 4, some 9⟩ : LearnReq)).key = some ((⟨5, 1⟩ : DirEntry))) := ⟨by decide +kernel, by decide +kernel, by decide +kernel, dLearn2_find⟩
theorem wit_DirectoryCommandsEndAndLearn_9 : (dHost.dataPath = true) ∧ ((dHost.slice 0).hostQ = ((⟨2, 5, 0, 0⟩ : HostWork)) :: ([])) ∧ (((dHost.slice 0).learnQ = [] ∨ (dHost.slice 0).lastHost = false)) ∧ (((⟨2, 5, 0, 0⟩ : HostWork)).op = 2) ∧ (((⟨2, 5, 0, 0⟩ : HostWork)).ref = 0) ∧ (hashFind (dHost.slice 0).learn 2 0 (seedOf dHost 0 2 false) ((⟨2, 5, 0, 0⟩ : HostWork)).key = none) := by decide +kernel
theorem wit_DirectoryFillsSweepsAndBuilds_1 : ((advance (dAns false 0) 1).dataPath = true) ∧ (0 < 16) ∧ (((dAns false 0).slice 0).fills.find? (fun g => g.no == 5 && (fillAnswers (dAns false 0) 0).any fun a => a.1 == g.ref) = some ((⟨5, 77, false, 0, 9, []⟩ : ExtFill))) ∧ (((fillAnswers (dAns false 0) 0).any fun a => a.1 == ((⟨5, 77, false, 0, 9, []⟩ : ExtFill)).ref && a.2 == 0) = true) := by decide +kernel
theorem wit_DirectoryFillsSweepsAndBuilds_2 : ((advance (dAns false 1) 1).dataPath = true) ∧ (0 < 16) ∧ (((dAns false 1).slice 0).fills.find? (fun g => g.no == 5 && (fillAnswers (dAns false 1) 0).any fun a => a.1 == g.ref) = some ((⟨5, 77, false, 0, 9, []⟩ : ExtFill))) ∧ (((fillAnswers (dAns false 1) 0).any fun a => a.1 == ((⟨5, 77, false, 0, 9, []⟩ : ExtFill)).ref && a.2 == 0) = false) := by decide +kernel
theorem wit_DirectoryFillsSweepsAndBuilds_3 : ((advance (dFill true) (20001 * nsUnit)).dataPath = true) ∧ (((dFill true).slice 0).fills.find? (fun g => g.no == 5) = some ((⟨5, 77, true, 0, 9, []⟩ : ExtFill))) ∧ (((⟨5, 77, true, 0, 9, []⟩ : ExtFill)).since + 20000 * nsUnit < (dFill true).up + (20001 * nsUnit)) ∧ (((dFill true).reg (Reg.dirExtTimeoutCnt 0)).toNat + (((dFill true).slice 0).store.filter fun it => it.waiting.contains 5).length < 0xFFFFFFFF) := by decide +kernel
theorem wit_DirectoryFillsSweepsAndBuilds_4 : ((advance (dFill true) (1000000 * nsUnit)).dataPath = true) ∧ (0 < 16) ∧ (((dFill true).slice 0).hotAt + 1000000 * nsUnit ≤ (dFill true).up + (1000000 * nsUnit)) := by decide +kernel
theorem wit_DirectoryFillsSweepsAndBuilds_5 : ((advance (dFill true) secUnit).life.rails = true) ∧ (0 < 16) ∧ (((dFill true).slice 0).sweepAt + secUnit ≤ (dFill true).up + secUnit) ∧ ((dFill true).rb (Reg.dirLearnCfg 0) 31 = true) ∧ (((dFill true).reg (Reg.dirAgeOutCnt 0)).toNat + (hashEntries ((dFill true).slice 0).learn).length < 0xFFFFFFFF) := by decide +kernel
theorem wit_DirectoryFillsSweepsAndBuilds_6 : ((advance ((dFill true).setReg (Reg.dirLearnCfg 0) 0) secUnit).life.rails = true) ∧ (0 < 16) ∧ ((((dFill true).setReg (Reg.dirLearnCfg 0) 0).slice 0).sweepAt + secUnit ≤ ((dFill true).setReg (Reg.dirLearnCfg 0) 0).up + secUnit) ∧ (((dFill true).setReg (Reg.dirLearnCfg 0) 0).rb (Reg.dirLearnCfg 0) 31 = false) := by decide +kernel
theorem wit_DirectoryFillsSweepsAndBuilds_7 : (svc.life.rails = true) ∧ (0 < 16) ∧ (2 = 1 ∨ 2 = 2 ∨ 2 = 6) ∧ (takes svc 0x0F00 (rehashReg 0 2) (1 : Word) = true) ∧ (bitOf (1 : Word) 0 = true) ∧ (buildRefused 0 2 (1 : Word) svc = false) := by decide +kernel
theorem wit_DirectoryFillsSweepsAndBuilds_8 : (svc.life.rails = true) ∧ (0 < 16) ∧ (takes svc 0x0F00 (Reg.dirRehashLearn 0) (1 : Word) = true) ∧ (bitOf (1 : Word) 0 = true) ∧ (buildRefused 0 2 (1 : Word) svc = false) := by decide +kernel
theorem wit_DirectoryFillsSweepsAndBuilds_9 : ((advance (dBuild []) 1).life.rails = true) ∧ (((dBuild []).slice 0).building.contains 2 = true) ∧ ((advance (dBuild []) 1).dramReadyFor 2 = true) := by decide +kernel

/-! ### syl -/

/-- Thread m in the middle of a bundle whose next syllable is y, in a state t; an issue of it; and the state its meaning acts on. -/
def busyIn (t : State) (m : Nat) (y : Syl) : State := t.withThr m fun x => { x with todo := [y], issueAt := 10, next := 32, seqNext := 32, bundle := 16 }
def ixOf (m : Nat) : Issue := ⟨m, 0, 0⟩
def after (t : State) (m : Nat) (y : Syl) : State := (busyIn t m y).withThr m fun x => { x with todo := x.todo.drop 1 }
def syl (unit op : Nat) : Syl := ⟨16, unit, op, 4, 1, 130, none⟩
/-- Thread 0 with INT 5 in g1, a copy in data memory reached through it, and the stores of its engine. -/
def withG (v : TWord) : State := svc.withThr 0 fun x => { x with g := [(1, v), (31, v)] }
def sG : State := withG (tw tagINT 8)
def stored (a : Nat) : State := svc.withEng 0 fun x => { x with stores := [⟨0, a, 4, tw tagINT 7, 0⟩] }
def landed1 : State := (svc.setReg (thrCfgR 0) 0xC0000000).withThr 0 fun x => { x with land := [⟨0, 4, tw tagINT 7, default, 1, 0, 3, 0, 0, false⟩] }
def held0 : State := (withG (tw tagINT 0)).setStation 0 { (default : StationSt) with gate := [⟨List.replicate 16 0, [], 3, false, some 0, false, false, 0, 0, []⟩] }
theorem wit_AluOperationsIssue_1 : ∀ op ∈ ([0x01, 0x02, 0x03, 0x04, 0x09, 0x0A, 0x0B, 0x0C, 0x10, 0x11, 0x12, 0x13, 0x18, 0x19, 0x1A, 0x1B, 0x20, 0x21, 0x22, 0x23, 0x24, 0x25, 0x28, 0x29, 0x2C, 0x2D, 0x30, 0x31] : List Nat), issuing (busyIn sG 0 (syl 1 op)) (ixOf 0) = some (syl 1 op, after sG 0 (syl 1 op)) := by decide +kernel
theorem wit_AluOperationsIssue_2 : ∀ op ∈ ([0x05, 0x06, 0x07, 0x08, 0x14, 0x15, 0x16, 0x2A, 0x2B, 0x38, 0x39, 0x3A, 0x3B] : List Nat), issuing (busyIn sG 0 (syl 1 op)) (ixOf 0) = some (syl 1 op, after sG 0 (syl 1 op)) := by decide +kernel
theorem wit_AluOperationsIssue_3 : issuing (busyIn sG 0 (syl 1 0x3D)) (ixOf 0) = some ((syl 1 0x3D), after sG 0 (syl 1 0x3D)) := by decide +kernel
theorem wit_AluOperationsIssue_4 : issuing (busyIn sG 0 (syl 1 0x3E)) (ixOf 0) = some ((syl 1 0x3E), after sG 0 (syl 1 0x3E)) := by decide +kernel
theorem wit_AluOperationsIssue_5 : issuing (busyIn sG 0 (syl 1 0x3C)) (ixOf 0) = some ((syl 1 0x3C), after sG 0 (syl 1 0x3C)) := by decide +kernel
theorem wit_AluOperationsIssue_6 : issuing (busyIn sG 0 (syl 1 0x3F)) (ixOf 0) = some ((syl 1 0x3F), after sG 0 (syl 1 0x3F)) := by decide +kernel
theorem wit_AluOperationsIssue_7 : issuing (busyIn sG 0 (syl 1 0)) (ixOf 0) = some ((syl 1 0), after sG 0 (syl 1 0)) := by decide +kernel
theorem wit_MultiplierOperationsIssue_1 : ∀ op ∈ ([0x01, 0x02, 0x03, 0x04, 0x05] : List Nat), issuing (busyIn sG 0 (syl 2 op)) (ixOf 0) = some (syl 2 op, after sG 0 (syl 2 op)) := by decide +kernel
theorem wit_MultiplierOperationsIssue_2 : ∀ op ∈ ([0x08, 0x09, 0x0A, 0x0B, 0x0C, 0x10, 0x11, 0x14, 0x15, 0x16] : List Nat), issuing (busyIn sG 0 (syl 2 op)) (ixOf 0) = some (syl 2 op, after sG 0 (syl 2 op)) := by decide +kernel
theorem wit_MultiplierOperationsIssue_3 : ∀ op ∈ ([0x18, 0x19] : List Nat), issuing (busyIn sG 0 (syl 2 op)) (ixOf 0) = some (syl 2 op, after sG 0 (syl 2 op)) := by decide +kernel
theorem wit_MultiplierOperationsIssue_4 : ∀ op ∈ ([0x21, 0x22, 0x24] : List Nat), issuing (busyIn sG 0 (syl 2 op)) (ixOf 0) = some (syl 2 op, after sG 0 (syl 2 op)) ∧ ((after sG 0 (syl 2 op)).eng 0).div = none ∧ ((after sG 0 (syl 2 op)).eng 0).divWait = none := by decide +kernel
theorem wit_MultiplierOperationsIssue_5 : issuing (busyIn sG 0 (syl 2 0x20)) (ixOf 0) = some ((syl 2 0x20), after sG 0 (syl 2 0x20)) ∧ ((after sG 0 (syl 2 0x20)).eng 0).div = none ∧ ((after sG 0 (syl 2 0x20)).eng 0).divWait = none := by decide +kernel
theorem wit_LoadsAndStoresIssue_1 : ∀ op ∈ ([1, 2, 3, 4, 5] : List Nat), issuing (busyIn sG 0 (syl 3 op)) (ixOf 0) = some (syl 3 op, after sG 0 (syl 3 op)) ∧ regionOf 0 (memAddr ((after sG 0 (syl 3 op)).thr 0) (syl 3 op)) ≤ 1 ∧ loadBad (after sG 0 (syl 3 op)) 0 (memAddr ((after sG 0 (syl 3 op)).thr 0) (syl 3 op)) = false := by decide +kernel
theorem wit_LoadsAndStoresIssue_2 : ∀ op ∈ ([0x09, 0x0A, 0x0C] : List Nat), issuing (busyIn sG 0 (syl 3 op)) (ixOf 0) = some (syl 3 op, after sG 0 (syl 3 op)) ∧ regionOf 0 (memAddr ((after sG 0 (syl 3 op)).thr 0) (syl 3 op)) ≤ 1 ∧ ownTap 0 (memAddr ((after sG 0 (syl 3 op)).thr 0) (syl 3 op)) = false := by decide +kernel
theorem wit_LoadsAndStoresIssue_3 : issuing (busyIn (held0.withThr 0 fun x => { x with bk := [(1, 0x100)] }) 0 ⟨16, 3, 9, 4, 1, 1024, none⟩) (ixOf 0) = some (⟨16, 3, 9, 4, 1, 1024, none⟩, after (held0.withThr 0 fun x => { x with bk := [(1, 0x100)] }) 0 ⟨16, 3, 9, 4, 1, 1024, none⟩) ∧ regionOf 0 (memAddr ((after (held0.withThr 0 fun x => { x with bk := [(1, 0x100)] }) 0 ⟨16, 3, 9, 4, 1, 1024, none⟩).thr 0) ⟨16, 3, 9, 4, 1, 1024, none⟩) = 2 ∧ memAddr ((after (held0.withThr 0 fun x => { x with bk := [(1, 0x100)] }) 0 ⟨16, 3, 9, 4, 1, 1024, none⟩).thr 0) ⟨16, 3, 9, 4, 1, 1024, none⟩ % 4 = 0 ∧ (heldItem (after (held0.withThr 0 fun x => { x with bk := [(1, 0x100)] }) 0 ⟨16, 3, 9, 4, 1, 1024, none⟩) 0).isSome = true := by decide +kernel
theorem wit_LoadsAndStoresIssue_4 : (stored 16).life.rails = true ∧ ((advance (stored 16) 1).eng 0).stores = [⟨0, 16, 4, tw tagINT 7, 0⟩] ∧ 0 ≤ engCycle (advance (stored 16) 1) 0 ∧ regionOf 0 16 = 0 := by decide +kernel
theorem wit_LoadsAndStoresIssue_5 : (stored 0x100010).life.rails = true ∧ ((advance (stored 0x100010) 1).eng 0).stores = [⟨0, 0x100010, 4, tw tagINT 7, 0⟩] ∧ 0 ≤ engCycle (advance (stored 0x100010) 1) 0 ∧ regionOf 0 0x100010 ≠ 0 ∧ engIsland 0 ≠ 81 := by decide +kernel
theorem wit_LoadsAndStoresIssue_6 : landed1.life.rails = true ∧ isThread 0 = true ∧ thrIsT landed1 0 = true ∧ (landed1.thr 0).todo = [] ∧
    (landed1.thr 0).land = [⟨0, 4, tw tagINT 7, default, 1, 0, 3, 0, 0, false⟩] ∧ 0 ≤ engCycle (advance landed1 1) 0 := by decide +kernel
theorem wit_ControlOperationsIssue_1 : ∀ op ∈ ([1, 2, 3, 4, 5] : List Nat), issuing (busyIn sG 0 (syl 5 op)) (ixOf 0) = some (syl 5 op, after sG 0 (syl 5 op)) ∧ intFrac (((after sG 0 (syl 5 op)).thr 0).gr 1) = true ∧ ((after sG 0 (syl 5 op)).thr 0).todo = [] ∧ ((after sG 0 (syl 5 op)).thr 0).loopc = none ∧ ((after sG 0 (syl 5 op)).thr 0).halt = false ∧ ((after sG 0 (syl 5 op)).thr 0).next < 65536 := by decide +kernel
theorem wit_ControlOperationsIssue_2 : ∀ op ∈ ([2, 3, 4, 5] : List Nat), issuing (busyIn (withG ⟨tagPOISON, 0⟩) 0 (syl 5 op)) (ixOf 0) = some (syl 5 op, after (withG ⟨tagPOISON, 0⟩) 0 (syl 5 op)) ∧ (((after (withG ⟨tagPOISON, 0⟩) 0 (syl 5 op)).thr 0).gr 1).poison = true ∧ intFrac (((after (withG ⟨tagPOISON, 0⟩) 0 (syl 5 op)).thr 0).gr 1) = false ∧ ((after (withG ⟨tagPOISON, 0⟩) 0 (syl 5 op)).thr 0).todo = [] ∧ ((after (withG ⟨tagPOISON, 0⟩) 0 (syl 5 op)).thr 0).loopc = none ∧ ((after (withG ⟨tagPOISON, 0⟩) 0 (syl 5 op)).thr 0).halt = false ∧ ((after (withG ⟨tagPOISON, 0⟩) 0 (syl 5 op)).thr 0).next < 65536 := by decide +kernel
theorem wit_ControlOperationsIssue_3 : ∀ op ∈ ([6, 9] : List Nat), issuing (busyIn sG 0 (syl 5 op)) (ixOf 0) = some (syl 5 op, after sG 0 (syl 5 op)) ∧ ((after sG 0 (syl 5 op)).thr 0).todo = [] ∧ ((after sG 0 (syl 5 op)).thr 0).loopc = none ∧ ((after sG 0 (syl 5 op)).thr 0).halt = false ∧ ((after sG 0 (syl 5 op)).thr 0).next < 65536 := by decide +kernel
theorem wit_ControlOperationsIssue_4 : issuing (busyIn sG 0 (syl 5 7)) (ixOf 0) = some ((syl 5 7), after sG 0 (syl 5 7)) ∧ ((after sG 0 (syl 5 7)).thr 0).todo = [] ∧ ((after sG 0 (syl 5 7)).thr 0).loopc = none ∧ ((after sG 0 (syl 5 7)).thr 0).halt = false ∧ ((after sG 0 (syl 5 7)).thr 0).next < 65536 := by decide +kernel
theorem wit_ControlOperationsIssue_5 : issuing (busyIn sG 0 (syl 5 8)) (ixOf 0) = some ((syl 5 8), after sG 0 (syl 5 8)) ∧ ((after sG 0 (syl 5 8)).thr 0).todo = [] ∧ ((after sG 0 (syl 5 8)).thr 0).loopc = none ∧ ((after sG 0 (syl 5 8)).thr 0).halt = false ∧ ((after sG 0 (syl 5 8)).thr 0).next < 65536 := by decide +kernel
theorem wit_ControlOperationsIssue_6 : issuing (busyIn sG 0 (syl 5 0x0A)) (ixOf 0) = some ((syl 5 0x0A), after sG 0 (syl 5 0x0A)) ∧ (((after sG 0 (syl 5 0x0A)).thr 0).gr 1).tag = tagINT ∧ (((after sG 0 (syl 5 0x0A)).thr 0).gr 1).data ≠ 0 ∧ ((after sG 0 (syl 5 0x0A)).thr 0).seqNext < branchTarget (syl 5 0x0A) ((after sG 0 (syl 5 0x0A)).thr 0).bundle ∧ ((after sG 0 (syl 5 0x0A)).thr 0).todo = [] ∧ ((after sG 0 (syl 5 0x0A)).thr 0).loopc = none ∧ ((after sG 0 (syl 5 0x0A)).thr 0).halt = false ∧ ((after sG 0 (syl 5 0x0A)).thr 0).next < 65536 := by decide +kernel
theorem wit_ControlOperationsIssue_7 : issuing (busyIn (svc.withThr 0 fun x => { x with bells := 2 }) 0 (syl 5 0x0B)) (ixOf 0) = some ((syl 5 0x0B), after (svc.withThr 0 fun x => { x with bells := 2 }) 0 (syl 5 0x0B)) ∧ ((after (svc.withThr 0 fun x => { x with bells := 2 }) 0 (syl 5 0x0B)).thr 0).bells &&& (130 % 256) ≠ 0 ∧ ((after (svc.withThr 0 fun x => { x with bells := 2 }) 0 (syl 5 0x0B)).thr 0).keyWait = none := by decide +kernel
theorem wit_ControlOperationsIssue_8 : issuing (busyIn svc 0 (syl 5 0x0B)) (ixOf 0) = some ((syl 5 0x0B), after svc 0 (syl 5 0x0B)) ∧ ((after svc 0 (syl 5 0x0B)).thr 0).bells &&& (130 % 256) = 0 ∧ ((after svc 0 (syl 5 0x0B)).thr 0).keyWait = none := by decide +kernel
theorem wit_ControlOperationsIssue_9 : issuing (busyIn svc 0 (syl 5 0x0C)) (ixOf 0) = some ((syl 5 0x0C), after svc 0 (syl 5 0x0C)) := by decide +kernel
theorem wit_ControlOperationsIssue_10 : issuing (busyIn svc 0 (syl 5 0x0D)) (ixOf 0) = some ((syl 5 0x0D), after svc 0 (syl 5 0x0D)) ∧ ((after svc 0 (syl 5 0x0D)).thr 0).todo = [] ∧ ((after svc 0 (syl 5 0x0D)).thr 0).loopc = none ∧ ((after svc 0 (syl 5 0x0D)).thr 0).halt = false ∧ ((after svc 0 (syl 5 0x0D)).thr 0).next < 65536 := by decide +kernel

/-! ### xops -/

/-- Thread 0 about to begin a bundle from an instruction memory whose first word is w: it is READY and its engine's cycle is free. -/
def fresh (w : Nat) : State := ((svc.setReg (thrCfgR 0) 0x80000000).setThrState 0 1).withEng 0 fun x => { x with imem := memWrite [] 0 (leBytes 4 w) }
/-- Threads that hold a key, a dispatch, a command word. -/
def keyed (o : Option Nat) : State :=
  let s := (withG (tw tagKEYREF 5)).setReg (Reg.keyRingCfg 0) 0x80010000
  { s with keys := { s.keys with keys := match o with | some m => [(5, { (default : KeySt) with owner := some m })] | none => [] } }
def benchG (w : Nat) : State := svc.withThr 3072 fun x => { x with g := [(1, tw tagINT w)], disp := some ⟨⟨1, 2, 3072, 0, 0, 0⟩, 3, [], 4⟩ }
def ringG : State := (withG (tw tagINT 0)).setThrState 0 1
def xsyl (op dst s1 low : Nat) : Syl := ⟨16, 4, op, dst, s1, low, none⟩
theorem wit_BundlesBeginOrFault_1 : ((fresh 0x80400000).thr 0).todo = [] ∧ nextBundle ((fresh 0x80400000).tick 0 0) 0 = (.ok [⟨0, 0, 1, 0, 0, 0, none⟩], 4) ∧
    mayBegin ((fresh 0x80400000).tick 0 0) 0 = true ∧ bundleFault ((fresh 0x80400000).tick 0 0) 0 [⟨0, 0, 1, 0, 0, 0, none⟩] = 0 := by decide +kernel
theorem wit_BundlesBeginOrFault_2 : ((fresh 0xD3800000).thr 0).todo = [] ∧ nextBundle ((fresh 0xD3800000).tick 0 0) 0 = (.ok [⟨0, 5, 14, 0, 0, 0, none⟩], 4) ∧
    mayBegin ((fresh 0xD3800000).tick 0 0) 0 = true ∧ bundleFault ((fresh 0xD3800000).tick 0 0) 0 [⟨0, 5, 14, 0, 0, 0, none⟩] = 0x13 := by decide +kernel
theorem wit_BundlesBeginOrFault_3 : ((fresh 0xF0000000).thr 0).todo = [] ∧ (nextBundle ((fresh 0xF0000000).tick 0 0) 0).1 = .fault 2 ∧ mayBegin ((fresh 0xF0000000).tick 0 0) 0 = true := by
  decide +kernel
/-- Key 5, in the keyring homed in the island of the first station, held by a thread whose first waiter is w. -/
def queued (w : Nat) : State := { keyed (some 0) with keys := { (keyed (some 0)).keys with keys := [(5, { (default : KeySt) with owner := some 0, waiters := [(w, 1)] })] } }
theorem wit_BundlesBeginOrFault_4 : ((fresh 0x80400000).thr 0).todo = [] ∧ 0 = thrPc ((fresh 0x80400000).tick 0 0) 0 ∧ fromAlcove (((fresh 0x80400000).tick 0 0).thr 0) 0 = false ∧
    mayBegin ((fresh 0x80400000).tick 0 0) 0 = true := by decide +kernel
theorem wit_CommandUnitOperationsIssue_1 : issuing (busyIn held0 0 (xsyl 1 0 0 0)) (ixOf 0) = some (xsyl 1 0 0 0, after held0 0 (xsyl 1 0 0 0)) ∧
    (heldItem (after held0 0 (xsyl 1 0 0 0)) 0).isSome = true := by decide +kernel
theorem wit_CommandUnitOperationsIssue_2 : issuing (busyIn (benchG 0) 3072 (xsyl 1 0 0 0)) (ixOf 3072) = some (xsyl 1 0 0 0, after (benchG 0) 3072 (xsyl 1 0 0 0)) ∧
    192 ≤ 3072 / 16 ∧ 3072 / 16 < 224 ∧ ((after (benchG 0) 3072 (xsyl 1 0 0 0)).thr 3072).disp = some ⟨⟨1, 2, 3072, 0, 0, 0⟩, 3, [], 4⟩ := by decide +kernel
theorem wit_CommandUnitOperationsIssue_3 : issuing (busyIn (keyed none) 0 (xsyl 9 4 1 0)) (ixOf 0) = some (xsyl 9 4 1 0, after (keyed none) 0 (xsyl 9 4 1 0)) ∧
    (((after (keyed none) 0 (xsyl 9 4 1 0)).thr 0).gr 1).data.toNat = 5 ∧ keyHome (after (keyed none) 0 (xsyl 9 4 1 0)) 5 = engIsland 0 ∧
    keyAllowed (after (keyed none) 0 (xsyl 9 4 1 0)) 0 5 = true ∧ ((after (keyed none) 0 (xsyl 9 4 1 0)).key 5).owner = none := by decide +kernel
theorem wit_CommandUnitOperationsIssue_4 : issuing (busyIn (keyed (some 7)) 0 (xsyl 8 4 1 0)) (ixOf 0) = some (xsyl 8 4 1 0, after (keyed (some 7)) 0 (xsyl 8 4 1 0)) ∧
    keyHome (after (keyed (some 7)) 0 (xsyl 8 4 1 0)) 5 = engIsland 0 ∧ keyAllowed (after (keyed (some 7)) 0 (xsyl 8 4 1 0)) 0 5 = true ∧
    ((after (keyed (some 7)) 0 (xsyl 8 4 1 0)).key 5).owner = some 7 ∧ ((after (keyed (some 7)) 0 (xsyl 8 4 1 0)).key 5).waiters.length < 64 ∧
    ((after (keyed (some 7)) 0 (xsyl 8 4 1 0)).thr 0).halt = false := by decide +kernel
theorem wit_CommandUnitOperationsIssue_5 : issuing (busyIn (keyed (some 0)) 0 (xsyl 0x0A 4 1 0)) (ixOf 0) = some (xsyl 0x0A 4 1 0, after (keyed (some 0)) 0 (xsyl 0x0A 4 1 0)) ∧
    keyHome (after (keyed (some 0)) 0 (xsyl 0x0A 4 1 0)) 5 = engIsland 0 ∧ keyAllowed (after (keyed (some 0)) 0 (xsyl 0x0A 4 1 0)) 0 5 = true ∧
    ((after (keyed (some 0)) 0 (xsyl 0x0A 4 1 0)).key 5).owner = some 0 ∧ ((after (keyed (some 0)) 0 (xsyl 0x0A 4 1 0)).key 5).waiters = [] := by decide +kernel
theorem wit_CommandUnitOperationsIssue_10 : issuing (busyIn ringG 0 (xsyl 0x0C 0 1 3)) (ixOf 0) = some (xsyl 0x0C 0 1 3, after ringG 0 (xsyl 0x0C 0 1 3)) ∧
    (((after ringG 0 (xsyl 0x0C 0 1 3)).thr 0).gr 1).tag = tagINT ∧ 0 = (((after ringG 0 (xsyl 0x0C 0 1 3)).thr 0).gr 1).data.toNat % 65536 ∧ 2 ≤ (xsyl 0x0C 0 1 3).mod % 8 ∧
    thrTenancy (after ringG 0 (xsyl 0x0C 0 1 3)) 0 = 0 ∧ thrState (after ringG 0 (xsyl 0x0C 0 1 3)) 0 ≠ 0 := by decide +kernel
theorem wit_CommandUnitOperationsIssue_13 : issuing (busyIn (benchG 0x04000000) 3072 (xsyl 2 0 1 131)) (ixOf 3072) = some (xsyl 2 0 1 131, after (benchG 0x04000000) 3072 (xsyl 2 0 1 131)) ∧
    cwFunc (((after (benchG 0x04000000) 3072 (xsyl 2 0 1 131)).thr 3072).gr (xsyl 2 0 1 131).s2).data.toNat ≠ 0 := by decide +kernel
theorem wit_CommandUnitOperationsIssue_14 : issuing (busyIn (withG (tw tagINT 0x04000000)) 0 (xsyl 2 0 1 131)) (ixOf 0) = some (xsyl 2 0 1 131, after (withG (tw tagINT 0x04000000)) 0 (xsyl 2 0 1 131)) ∧
    cwFunc (((after (withG (tw tagINT 0x04000000)) 0 (xsyl 2 0 1 131)).thr 0).gr (xsyl 2 0 1 131).s2).data.toNat ≠ 0 := by decide +kernel
theorem wit_CommandUnitOperationsIssue_15 : issuing (busyIn (benchG 0) 3072 (xsyl 2 0 1 131)) (ixOf 3072) = some (xsyl 2 0 1 131, after (benchG 0) 3072 (xsyl 2 0 1 131)) ∧
    cwFunc (((after (benchG 0) 3072 (xsyl 2 0 1 131)).thr 3072).gr (xsyl 2 0 1 131).s2).data.toNat = 0 := by decide +kernel
theorem wit_CommandUnitOperationsIssue_6 : issuing (busyIn (keyed none) 0 (xsyl 8 4 1 0)) (ixOf 0) = some (xsyl 8 4 1 0, after (keyed none) 0 (xsyl 8 4 1 0)) ∧ (((after (keyed none) 0 (xsyl 8 4 1 0)).thr 0).gr 1).data.toNat = 5 ∧ keyHome (after (keyed none) 0 (xsyl 8 4 1 0)) 5 = engIsland 0 ∧
    keyAllowed (after (keyed none) 0 (xsyl 8 4 1 0)) 0 5 = true ∧ ((after (keyed none) 0 (xsyl 8 4 1 0)).key 5).owner = none := by decide +kernel
theorem wit_CommandUnitOperationsIssue_7 : issuing (busyIn (keyed (some 7)) 0 (xsyl 9 4 1 0)) (ixOf 0) = some (xsyl 9 4 1 0, after (keyed (some 7)) 0 (xsyl 9 4 1 0)) ∧ (((after (keyed (some 7)) 0 (xsyl 9 4 1 0)).thr 0).gr 1).data.toNat = 5 ∧ keyHome (after (keyed (some 7)) 0 (xsyl 9 4 1 0)) 5 = engIsland 0 ∧
    keyAllowed (after (keyed (some 7)) 0 (xsyl 9 4 1 0)) 0 5 = true ∧ ((after (keyed (some 7)) 0 (xsyl 9 4 1 0)).key 5).owner = some 7 := by decide +kernel
theorem wit_CommandUnitOperationsIssue_8 : issuing (busyIn (queued 9) 0 (xsyl 0x0A 4 1 0)) (ixOf 0) = some (xsyl 0x0A 4 1 0, after (queued 9) 0 (xsyl 0x0A 4 1 0)) ∧ (((after (queued 9) 0 (xsyl 0x0A 4 1 0)).thr 0).gr 1).data.toNat = 5 ∧ keyHome (after (queued 9) 0 (xsyl 0x0A 4 1 0)) 5 = engIsland 0 ∧
    keyAllowed (after (queued 9) 0 (xsyl 0x0A 4 1 0)) 0 5 = true ∧ ((after (queued 9) 0 (xsyl 0x0A 4 1 0)).key 5).owner = some 0 ∧ ((after (queued 9) 0 (xsyl 0x0A 4 1 0)).key 5).waiters = [(9, 1)] := by decide +kernel
theorem wit_CommandUnitOperationsIssue_9 : issuing (busyIn ((keyed none).setReg (Reg.keyRingCfg 0) 0x80010007) 0 (xsyl 8 4 1 0)) (ixOf 0) = some (xsyl 8 4 1 0, after ((keyed none).setReg (Reg.keyRingCfg 0) 0x80010007) 0 (xsyl 8 4 1 0)) ∧ (((after ((keyed none).setReg (Reg.keyRingCfg 0) 0x80010007) 0 (xsyl 8 4 1 0)).thr 0).gr 1).data.toNat = 5 ∧ keyHome (after ((keyed none).setReg (Reg.keyRingCfg 0) 0x80010007) 0 (xsyl 8 4 1 0)) 5 ≠ engIsland 0 ∧ ((after ((keyed none).setReg (Reg.keyRingCfg 0) 0x80010007) 0 (xsyl 8 4 1 0)).thr 0).halt = false := by decide +kernel
theorem wit_CommandUnitOperationsIssue_11 : issuing (busyIn ((withG (tw tagINT 0x400)).setThrState 0x400 1) 0 (xsyl 0x0C 0 1 3)) (ixOf 0) = some (xsyl 0x0C 0 1 3, after ((withG (tw tagINT 0x400)).setThrState 0x400 1) 0 (xsyl 0x0C 0 1 3)) ∧
    (((after ((withG (tw tagINT 0x400)).setThrState 0x400 1) 0 (xsyl 0x0C 0 1 3)).thr 0).gr 1).tag = tagINT ∧ 0x400 = (((after ((withG (tw tagINT 0x400)).setThrState 0x400 1) 0 (xsyl 0x0C 0 1 3)).thr 0).gr 1).data.toNat % 65536 ∧ isThread 0x400 = true ∧ thrTenancy (after ((withG (tw tagINT 0x400)).setThrState 0x400 1) 0 (xsyl 0x0C 0 1 3)) 0 = 0 ∧ thrState (after ((withG (tw tagINT 0x400)).setThrState 0x400 1) 0 (xsyl 0x0C 0 1 3)) 0x400 ≠ 0 ∧ engIsland (0x400 / 16) ≠ engIsland 0 := by decide +kernel
theorem wit_CommandUnitOperationsIssue_12 : issuing (busyIn (ringG) 0 (xsyl 0x0C 0 1 1)) (ixOf 0) = some (xsyl 0x0C 0 1 1, after (ringG) 0 (xsyl 0x0C 0 1 1)) ∧ (((after (ringG) 0 (xsyl 0x0C 0 1 1)).thr 0).gr 1).tag = tagINT ∧ (xsyl 0x0C 0 1 1).mod % 8 < 2 := by decide +kernel

/-! ### threads -/

/-- Thread 0 READY, enabled and S-type, its engine's cycle free; with an interrupt pending; and T-threads of engine 0. -/
def ready0 : State := (svc.setReg (thrCfgR 0) 0x80000100).setThrState 0 1
def intr0 : State := ready0.withThr 0 fun x => { x with ipend := 4, imask := 4, estat := 1, ivec := 0x200, flags := 3 }
def swapped0 : State := svc.withEng 0 fun x => { x with swapAt := some 16 }
def timed0 : State := ready0.withThr 0 fun x => { x with timerCmp := 5 }
def over0 : State := svc.setStation 0 { (default : StationSt) with takeover := some 1 }
def waits0 : State := (ready0.setThrState 0 2).withThr 0 fun x => { x with waitMask := 8 }
def rings (s : State) : State := { s with keys := { s.keys with rings := [⟨0, 3, 0⟩] } }
def kOwn (m : Nat) : State :=
  let s := svc.setReg (Reg.keyRingCfg 0) 0x80300051
  { s with keys := { s.keys with keys := [(5, { (default : KeySt) with owner := some m })] } }
def kReq : State :=
  let s := svc.setReg (Reg.keyRingCfg 0) 0x80300051
  { s with keys := { s.keys with hallReqs := [⟨3584, 1, 5, 1⟩] } }
def kLand : State :=
  let s := (ready0.setThrState 0 2).withThr 0 fun x => { x with keyWait := some (5, 4), keyNo := 1 }
  { s with keys := { s.keys with granted := [⟨0, 5, 1, 0⟩] } }
theorem wit_ThreadsAreControlled_1 : (((intr0.tick 0 0).thr 0).todo = []) ∧ ((intr0.tick 0 0).dataPath = true) ∧ (intPending ((intr0.tick 0 0).thr 0) = true) ∧ (mayEnter (intr0.tick 0 0) 0 = true) ∧ (((intr0.tick 0 0).thr 0).keyWait = none) ∧ (isThread 0 = true) := by decide +kernel
theorem wit_ThreadsAreControlled_2 : ((advance timed0 (6 * nsUnit)).dataPath = true) ∧ (isThread 0 = true) ∧ (thrState timed0 0 ≠ 0) ∧ (timerDue (advance timed0 (6 * nsUnit)) 0 = true) := by decide +kernel
theorem wit_ThreadsAreControlled_3 : (ready0.life.rails = true) ∧ (isThread 0 = true) ∧ (takes ready0 0x0F00 (thrCtlR 0) (8 : Word) = true) ∧ (thrCtlRefused 0 (8 : Word) ready0 = false) ∧ (bitOf (8 : Word) 3 = true) ∧ (fld (8 : Word) 2 0 = 0) := by decide +kernel
theorem wit_ThreadsAreControlled_4 : (ready0.life.rails = true) ∧ (isThread 0 = true) ∧ (takes ready0 0x0F00 (thrCtlR 0) (1 : Word) = true) ∧ (thrCtlRefused 0 (1 : Word) ready0 = false) ∧ (bitOf (1 : Word) 0 = true) ∧ (bitOf (1 : Word) 2 = false) ∧ ((ready0.thr 0).keyWait = none) ∧ (thrState ready0 0 = 1 ∨ thrState ready0 0 = 2) := by decide +kernel
theorem wit_ThreadsAreControlled_5 : ((ready0.setThrState 0 3).life.rails = true) ∧ (isThread 0 = true) ∧ (takes (ready0.setThrState 0 3) 0x0F00 (thrCtlR 0) (2 : Word) = true) ∧ (thrCtlRefused 0 (2 : Word) (ready0.setThrState 0 3) = false) ∧ (bitOf (2 : Word) 1 = true) ∧ (bitOf (2 : Word) 0 = false) ∧ (bitOf (2 : Word) 2 = false) ∧ (((ready0.setThrState 0 3).thr 0).voiding = false) := by decide +kernel
theorem wit_ThreadsAreControlled_6 : (ready0.life.rails = true) ∧ (isThread 0 = true) ∧ (takes ready0 0x0F00 (thrCtlR 0) (2 : Word) = true) ∧ (thrCtlRefused 0 (2 : Word) ready0 = true) ∧ (bitOf (2 : Word) 1 = true) ∧ (bitOf (2 : Word) 0 = false) ∧ (bitOf (2 : Word) 2 = false) := by decide +kernel
theorem wit_ThreadsAreControlled_7 : (ready0.life.rails = true) ∧ (isThread 0 = true) ∧ (takes ready0 0x0F00 (thrCtlR 0) (4 : Word) = true) ∧ (thrCtlRefused 0 (4 : Word) ready0 = false) ∧ (bitOf (4 : Word) 2 = true) ∧ (thrState ready0 0 ≠ 0) := by decide +kernel
theorem wit_ThreadsAreControlled_8 : (svc.life.rails = true) ∧ (isThread 0 = true) ∧ (takes svc 0x0F00 (thrCfgR 0) (0x80000100 : Word) = true) ∧ (thrCfgRefused 0 (0x80000100 : Word) svc = false) ∧ (bitOf (0x80000100 : Word) 31 = true) ∧ (thrState svc 0 = 0) := by decide +kernel
theorem wit_ThreadsAreControlled_9 : (ready0.life.rails = true) ∧ (isThread 0 = true) ∧ (takes ready0 0x0F00 (thrCfgR 0) (0x80000100 : Word) = true) ∧ (thrCfgRefused 0 (0x80000100 : Word) ready0 = true) := by decide +kernel
theorem wit_EnginesSwapFailAndAreCovered_1 : (svc.life.rails = true) ∧ (0 < engineCount) ∧ (takes svc 0x0F00 (engCtlR 0) (1 : Word) = true) ∧ (bitOf (1 : Word) 0 = true) ∧ (bitOf (1 : Word) 1 = false) ∧ (bitOf (1 : Word) 8 = false) ∧ (swapErr svc 0 = 0) := by decide +kernel
theorem wit_EnginesSwapFailAndAreCovered_2 : ((svc.setReg (engShadowR 0 0) 0x80).life.rails = true) ∧ (0 < engineCount) ∧ (takes (svc.setReg (engShadowR 0 0) 0x80) 0x0F00 (engCtlR 0) (1 : Word) = true) ∧ (bitOf (1 : Word) 0 = true) ∧ (bitOf (1 : Word) 1 = false) ∧ (bitOf (1 : Word) 8 = false) ∧ (swapErr (svc.setReg (engShadowR 0 0) 0x80) 0 ≠ 0) := by decide +kernel
theorem wit_EnginesSwapFailAndAreCovered_3 : (swapped0.life.rails = true) ∧ ((swapped0.eng 0).swapAt = some 16) ∧ (16 ≤ engCycle (advance swapped0 200000000) 0) ∧ (0 < engineCount) := by decide +kernel
theorem wit_EnginesSwapFailAndAreCovered_4 : (svc.life.rails = true) ∧ (0 < engineCount) ∧ (takes svc 0x0F00 (engCtlR 0) (2 : Word) = true) ∧ (bitOf (2 : Word) 1 = true) ∧ (bitOf (2 : Word) 0 = false) ∧ (bitOf (2 : Word) 8 = false) := by decide +kernel
theorem wit_EnginesSwapFailAndAreCovered_5 : (ready0.life.rails = true) ∧ (0 < engineCount) ∧ (takes ready0 0x0F00 (engCtlR 0) (0x100 : Word) = true) ∧ (bitOf (0x100 : Word) 8 = true) ∧ (engCtlBoth (0x100 : Word) ready0 = false) ∧ (engFailed ready0 0 = false) ∧ (ready0.wshop.graphs = []) := by decide +kernel
theorem wit_EnginesSwapFailAndAreCovered_6 : (ready0.life.rails = true) ∧ (0 < engineCount) ∧ (engFailed ready0 0 = false) ∧ (ready0.wshop.graphs = []) := by decide +kernel
theorem wit_EnginesSwapFailAndAreCovered_7 : (svc.life.rails = true) ∧ (0 < 48) ∧ (takes svc 0x0F00 (standbyR (0 * 4)) (7 : Word) = true) ∧ (bitOf (7 : Word) 2 = true) ∧ (svc.rb (standbyR (0 * 4)) 7 = false) ∧ (namedActive svc (0 * 4 + fld (7 : Word) 1 0) = []) ∧ (((otherEngines (0 * 4 + fld (7 : Word) 1 0)).any fun o => (timedOf svc o).any fun t => thrState svc ((0 * 4 + fld (7 : Word) 1 0) * 16 + t) != 0) = false) ∧ (standbyTenancyOk svc (0 * 4 + fld (7 : Word) 1 0) = true) := by decide +kernel
theorem wit_EnginesSwapFailAndAreCovered_8 : ((svc.setReg (standbyR 0) 0x80).life.rails = true) ∧ (0 < 48) ∧ (takes (svc.setReg (standbyR 0) 0x80) 0x0F00 (standbyR (0 * 4)) (7 : Word) = true) ∧ (bitOf (7 : Word) 2 = true) ∧ ((svc.setReg (standbyR 0) 0x80).rb (standbyR (0 * 4)) 7 = true) := by decide +kernel
theorem wit_EnginesSwapFailAndAreCovered_9 : (over0.life.rails = true) ∧ (0 < 48) ∧ ((over0.station 0).takeover = some 1) ∧ (1 / 4 = 0) ∧ (engFailed over0 (0 * 4 + over0.rf (standbyR (0 * 4)) 1 0) = false) := by decide +kernel
theorem wit_KeysAndDoorbellsServe_1 : ((rings waits0).life.rails = true) ∧ ((rings waits0).keys.rings = ⟨0, 3, 0⟩ :: ([])) ∧ (isThread 0 = true) ∧ (3 < 8) ∧ (thrState (rings waits0) 0 = 2) ∧ (((rings waits0).thr 0).keyWait = none) ∧ (((rings waits0).thr 0).waitMask.testBit 3 = true) := by decide +kernel
theorem wit_KeysAndDoorbellsServe_2 : ((rings ready0).life.rails = true) ∧ ((rings ready0).keys.rings = ⟨0, 3, 0⟩ :: ([])) ∧ (isThread 0 = true) ∧ (thrState (rings ready0) 0 = 1) := by decide +kernel
theorem wit_KeysAndDoorbellsServe_3 : (kReq.life.rails = true) ∧ (kReq.keys.hallReqs = ⟨3584, 1, 5, 1⟩ :: ([])) ∧ (3584 / 16 / 4 = 56) ∧ (keyAllowed kReq 3584 5 = true) ∧ ((kReq.key 5).owner = none) := by decide +kernel
theorem wit_KeysAndDoorbellsServe_4 : (kLand.life.rails = true) ∧ (kLand.keys.granted = ⟨0, 5, 1, 0⟩ :: ([])) ∧ ((kLand.thr 0).keyWait = some (5, 4)) ∧ ((kLand.thr 0).keyNo = 1) ∧ ((kLand.thr 0).keyMask = 0) ∧ (4 ≠ 0) ∧ (thrState kLand 0 = 2) ∧ (isThread 0 = true) := by decide +kernel
theorem wit_KeysAndDoorbellsServe_5 : (svc.life.rails = true) ∧ (0 < 64) ∧ (takes svc 0x0F00 (Reg.keyRingCfg 0) (0x80010051 : Word) = true) ∧ (fld (0x80010051 : Word) 7 0 < 48 ∨ (73 ≤ fld (0x80010051 : Word) 7 0 ∧ fld (0x80010051 : Word) 7 0 ≤ 81)) ∧ ((svc.keys.keys.any fun p => p.1 / 64 == 0) = false) := by decide +kernel
theorem wit_KeysAndDoorbellsServe_6 : ((kOwn 7).life.rails = true) ∧ (0 < 64) ∧ (takes (kOwn 7) 0x0F00 (Reg.keyRingCfg 0) (0x80010051 : Word) = true) ∧ ((5, (kOwn 7).key 5) ∈ (kOwn 7).keys.keys) ∧ (5 / 64 = 0) ∧ (((kOwn 7).key 5).owner.isSome = true) := by decide +kernel
theorem wit_KeysAndDoorbellsServe_7 : ((kOwn 7).life.rails = true) ∧ (takes (kOwn 7) 0x0F00 Reg.keySel (0x80000005 : Word) = true) ∧ (bitOf (0x80000005 : Word) 31 = true) ∧ (((kOwn 7).key (fld (0x80000005 : Word) 11 0)).waiters.length ≤ 64) ∧ (((kOwn 7).key (fld (0x80000005 : Word) 11 0)).owner.getD 0xFFFF < 65536) := by decide +kernel
theorem wit_KeysAndDoorbellsServe_8 : ((svc.setReg (Reg.keyRingCfg 0) 0x80200051).life.rails = true) ∧ (takes (svc.setReg (Reg.keyRingCfg 0) 0x80200051) 0x0F00 Reg.keyHostOp (0x80000005 : Word) = true) ∧ (bitOf (0x80000005 : Word) 31 = true) ∧ (fld (0x80000005 : Word) 17 16 = 0) ∧ ((svc.setReg (Reg.keyRingCfg 0) 0x80200051).rb Reg.keyHostRes 31 = false) ∧ (keyAllowed (svc.setReg (Reg.keyRingCfg 0) 0x80200051) (0x0F00 + funcOf 0x0F00) (fld (0x80000005 : Word) 11 0) = true) ∧ (((svc.setReg (Reg.keyRingCfg 0) 0x80200051).key (fld (0x80000005 : Word) 11 0)).owner = none) := by decide +kernel
theorem wit_KeysAndDoorbellsServe_9 : ((kOwn 0x0F00).life.rails = true) ∧ (takes (kOwn 0x0F00) 0x0F00 Reg.keyHostOp (0x80010005 : Word) = true) ∧ (bitOf (0x80010005 : Word) 31 = true) ∧ (fld (0x80010005 : Word) 17 16 = 1) ∧ ((kOwn 0x0F00).rb Reg.keyHostRes 31 = false) ∧ (keyAllowed (kOwn 0x0F00) (0x0F00 + funcOf 0x0F00) (fld (0x80010005 : Word) 11 0) = true) ∧ (((kOwn 0x0F00).key (fld (0x80010005 : Word) 11 0)).owner = some (0x0F00 + funcOf 0x0F00)) ∧ (((kOwn 0x0F00).key (fld (0x80010005 : Word) 11 0)).waiters = []) := by decide +kernel
theorem wit_KeysAndDoorbellsServe_10 : (svc.life.rails = true) ∧ (takes svc 0x0F00 Reg.keyRingHost (0x80020E10 : Word) = true) ∧ (bitOf (0x80020E10 : Word) 31 = true) ∧ (2 ≤ fld (0x80020E10 : Word) 18 16) ∧ (isThread (fld (0x80020E10 : Word) 15 0) = true) ∧ (engIsland (fld (0x80020E10 : Word) 15 0 / 16) = 81) ∧ (fld (0x80020E10 : Word) 15 0 / 16 ≠ 224) := by decide +kernel

/-! ### arith -/

theorem wit_ArithmeticFollowsTheRules_5 : (⟨tagPOISON, 0⟩ : TWord).poison = true := by decide +kernel
theorem wit_ArithmeticFollowsTheRules_6 : (3 : Word) ≠ 0 := by decide +kernel
theorem wit_ArithmeticFollowsTheRules_8 : 0 ≤ (5 : Word).toInt := by decide +kernel
theorem wit_ArithmeticFollowsTheRules_9 : (5 : Word).toNat % 2 ^ 30 < 1000000000 ∧ -2000000000 ≤ (7 : Word).toInt ∧ (7 : Word).toInt < 2000000000 := by decide +kernel
theorem wit_ArithmeticFollowsTheRules_11 : 32 ≤ (33 : Word).toNat % 64 := by decide +kernel
theorem wit_ArithmeticFollowsTheRules_12 : (1 : Word) ≠ 0 := by decide +kernel

/-! ### helpers -/

/-- A helper command of a thread, and a state in which it waits in its unit with its block at 0x100000 and a source at 0x100100. -/
def hpc (m f fl len : Nat) (timed : Bool) : HelpCmd := ⟨m, 0, 0x100000, f * 2 ^ 26 + fl * 2 ^ 18 + len, timed, none⟩
def hblk (m h f fl len : Nat) (w src : List Nat) : State :=
  let i := engIsland (m / 16)
  ((wordsAt i 0x100100 src (wordsAt i 0x100000 w svc)).withThr m fun x => { x with tags := [0] }).setHunit h (helpUnitOf f) { (default : HelpUnit) with waitS := some (hpc m f fl len false, 3) }
def hkey : List Byte := [1, 2, 3, 4, 5, 6, 7, 8, 9, 10, 11, 12, 13, 14, 15, 16]
def hzero (n : Nat) : List Byte := List.replicate n 0
def hsrc : List Byte := [1, 0, 0, 0, 2, 0, 0, 0]
/-- A command of the cipher and hash units with AES and HMAC keys in slots 7 and 8, and an authentication code at AUX. -/
def hauth (f w3 : Nat) (aux : Nat) (mac : List Byte) : State :=
  { wordsAt 81 aux (wordsOf mac) (hblk 3584 24 f 0 8 [0x100100, 0x100200, 0x100300, w3] [1, 2]) with keySlots := [(7, ⟨1, 0, false, 16, hkey⟩), (8, ⟨3, 0, false, 16, hkey⟩)] }
def hdram (f : Nat) : State := (hblk 3584 24 f 0 8 [0x100100, 0x100200] [1, 2]).setReg (Reg.tenDramCfg 0) 0x8000
/-- Thread 0 holds the envelope of frame 9 while its CELL_RD waits. -/
def hcell : State :=
  let e : Env := modAt (List.replicate 16 0) 0 fun _ => 9
  let s := (hblk 0 0 0x12 0 8 [0, 0x100200, 0, 0, 9] []).setFrame 9 { (default : Frame) with cells := [9], bytes := head64, refs := 1 }
  s.setStation 0 { (default : StationSt) with gate := [{ (default : GateItem) with env := e, thread := some 0, cmds := [(0, 0)] }] }
def hstation : State := svc.setHatch (hatchNo 9 0) { (default : Hatch) with xFifo := [⟨.helpCmd (hpc 0 2 0 8 true), 5, true⟩] }
def hqueue (f : Nat) : State := svc.withThr 3584 fun x => { x with tags := [0], hq := [hpc 3584 f 0 8 false] }
def hnop : State := (hqueue 1).withThr 3584 fun x => { x with ring := some 0x101000 }
def hnopTaken : State := ((takeCmd (advance hnop 1) 24 (fun k => cwFunc k.word == 1)).map (·.1)).getD svc
def hparked : State := (hblk 3584 24 0x0A 0 8 [0x100100, 0x100200] [1, 2]).setHunit 24 1 { (default : HelpUnit) with parked := [(hpc 3584 0x0A 0 8 true, 3)] }
def hparkedS : State := (hblk 3584 24 0x0A 0 8 [0x100100, 0x100200] [1, 2]).setHunit 24 1 { (default : HelpUnit) with parked := [(hpc 3584 0x0A 0 8 false, 3)] }
def hjob (st : Nat) : HelpJob := { cmd := hpc 3584 0x0A 0 8 false, status := st, writes := if st = 0 then [(0x100200, hzero 32, false)] else [] }
def hruns (st : Nat) (ring : Option Nat) : State := ((hqueue 0).withThr 3584 fun x => { x with ring := ring, tags := [0, 1] }).setHunit 24 1 { (default : HelpUnit) with run := some (hjob st) }
/-- A job of function f in unit 2 of the Hall's helper. -/
def hruns2 (j : HelpJob) : State := ((hqueue 0).withThr 3584 fun x => { x with ring := some 0x101000, tags := [0, 1] }).setHunit 24 2 { (default : HelpUnit) with run := some j }
def hjob2 (f refs : Nat) : HelpJob := { cmd := hpc 3584 f 0 8 false, refs := refs, since := 0 }
def hanswered : State := (hruns2 (hjob2 0x10 1)).setHatch (hatchNo 0x10 81) { (default : Hatch) with gFifo := [⟨.dramRsp 0 0 [], 0, false⟩] }
def hlate (v : Nat) : State := ((wordsAt 81 0x101080 [v] svc).withDram fun d => { d with late := [(3584, 2, 64)] }).withThr 3584 fun x => { x with ring := some 0x101000 }
theorem wit_CipherAndHashHelpersStart_1 : (starts (hauth 2 7 0x100400 []) 24 1 2 ((hpc 3584 2 0 8 false, 3)) = true) ∧ (fetchIn (begunAt (hauth 2 7 0x100400 []) 24 1 ((hpc 3584 2 0 8 false, 3))) (blockAt (hauth 2 7 0x100400 []) 24 1 ((hpc 3584 2 0 8 false, 3))) (blockAt (hauth 2 7 0x100400 []) 24 1 ((hpc 3584 2 0 8 false, 3))).srck ((blockAt (hauth 2 7 0x100400 []) 24 1 ((hpc 3584 2 0 8 false, 3))).word 0) (blockAt (hauth 2 7 0x100400 []) 24 1 ((hpc 3584 2 0 8 false, 3))).len = ⟨hsrc, [], false⟩) ∧ (fetchIn (begunAt (hauth 2 7 0x100400 []) 24 1 ((hpc 3584 2 0 8 false, 3))) (blockAt (hauth 2 7 0x100400 []) 24 1 ((hpc 3584 2 0 8 false, 3))) false ((blockAt (hauth 2 7 0x100400 []) 24 1 ((hpc 3584 2 0 8 false, 3))).word 2) 12 = ⟨(hzero 12), [], false⟩) ∧ (slotKey (begunAt (hauth 2 7 0x100400 []) 24 1 ((hpc 3584 2 0 8 false, 3))) (blockAt (hauth 2 7 0x100400 []) 24 1 ((hpc 3584 2 0 8 false, 3))) [1, 2] = ⟨hkey, [], false⟩) ∧ (roomIn (begunAt (hauth 2 7 0x100400 []) 24 1 ((hpc 3584 2 0 8 false, 3))) (blockAt (hauth 2 7 0x100400 []) 24 1 ((hpc 3584 2 0 8 false, 3))) ((blockAt (hauth 2 7 0x100400 []) 24 1 ((hpc 3584 2 0 8 false, 3))).word 1) (blockAt (hauth 2 7 0x100400 []) 24 1 ((hpc 3584 2 0 8 false, 3))).len = []) ∧ (roomIn (begunAt (hauth 2 7 0x100400 []) 24 1 ((hpc 3584 2 0 8 false, 3))) (blockAt (hauth 2 7 0x100400 []) 24 1 ((hpc 3584 2 0 8 false, 3))) ((blockAt (hauth 2 7 0x100400 []) 24 1 ((hpc 3584 2 0 8 false, 3))).word 2 + 16) 16 = []) := by decide +kernel
theorem wit_CipherAndHashHelpersStart_2 : (starts (hauth 3 7 0x100310 (gcmDec hkey (hzero 12) [] hsrc).2) 24 1 3 ((hpc 3584 3 0 8 false, 3)) = true) ∧ (fetchIn (begunAt (hauth 3 7 0x100310 (gcmDec hkey (hzero 12) [] hsrc).2) 24 1 ((hpc 3584 3 0 8 false, 3))) (blockAt (hauth 3 7 0x100310 (gcmDec hkey (hzero 12) [] hsrc).2) 24 1 ((hpc 3584 3 0 8 false, 3))) (blockAt (hauth 3 7 0x100310 (gcmDec hkey (hzero 12) [] hsrc).2) 24 1 ((hpc 3584 3 0 8 false, 3))).srck ((blockAt (hauth 3 7 0x100310 (gcmDec hkey (hzero 12) [] hsrc).2) 24 1 ((hpc 3584 3 0 8 false, 3))).word 0) (blockAt (hauth 3 7 0x100310 (gcmDec hkey (hzero 12) [] hsrc).2) 24 1 ((hpc 3584 3 0 8 false, 3))).len = ⟨hsrc, [], false⟩) ∧ (fetchIn (begunAt (hauth 3 7 0x100310 (gcmDec hkey (hzero 12) [] hsrc).2) 24 1 ((hpc 3584 3 0 8 false, 3))) (blockAt (hauth 3 7 0x100310 (gcmDec hkey (hzero 12) [] hsrc).2) 24 1 ((hpc 3584 3 0 8 false, 3))) (blockAt (hauth 3 7 0x100310 (gcmDec hkey (hzero 12) [] hsrc).2) 24 1 ((hpc 3584 3 0 8 false, 3))).srck ((blockAt (hauth 3 7 0x100310 (gcmDec hkey (hzero 12) [] hsrc).2) 24 1 ((hpc 3584 3 0 8 false, 3))).word 2) 12 = ⟨(hzero 12), [], false⟩) ∧ (fetchIn (begunAt (hauth 3 7 0x100310 (gcmDec hkey (hzero 12) [] hsrc).2) 24 1 ((hpc 3584 3 0 8 false, 3))) (blockAt (hauth 3 7 0x100310 (gcmDec hkey (hzero 12) [] hsrc).2) 24 1 ((hpc 3584 3 0 8 false, 3))) (blockAt (hauth 3 7 0x100310 (gcmDec hkey (hzero 12) [] hsrc).2) 24 1 ((hpc 3584 3 0 8 false, 3))).srck ((blockAt (hauth 3 7 0x100310 (gcmDec hkey (hzero 12) [] hsrc).2) 24 1 ((hpc 3584 3 0 8 false, 3))).word 2 + 16) 16 = ⟨((gcmDec hkey (hzero 12) [] hsrc).2), [], false⟩) ∧ (slotKey (begunAt (hauth 3 7 0x100310 (gcmDec hkey (hzero 12) [] hsrc).2) 24 1 ((hpc 3584 3 0 8 false, 3))) (blockAt (hauth 3 7 0x100310 (gcmDec hkey (hzero 12) [] hsrc).2) 24 1 ((hpc 3584 3 0 8 false, 3))) [1, 2] = ⟨hkey, [], false⟩) ∧ (roomIn (begunAt (hauth 3 7 0x100310 (gcmDec hkey (hzero 12) [] hsrc).2) 24 1 ((hpc 3584 3 0 8 false, 3))) (blockAt (hauth 3 7 0x100310 (gcmDec hkey (hzero 12) [] hsrc).2) 24 1 ((hpc 3584 3 0 8 false, 3))) ((blockAt (hauth 3 7 0x100310 (gcmDec hkey (hzero 12) [] hsrc).2) 24 1 ((hpc 3584 3 0 8 false, 3))).word 1) (blockAt (hauth 3 7 0x100310 (gcmDec hkey (hzero 12) [] hsrc).2) 24 1 ((hpc 3584 3 0 8 false, 3))).len = []) ∧ ((gcmDec hkey (hzero 12) [] hsrc).2 = ((gcmDec hkey (hzero 12) [] hsrc).2)) := by decide +kernel
theorem wit_CipherAndHashHelpersStart_3 : (starts (hauth 3 7 0x100400 []) 24 1 3 ((hpc 3584 3 0 8 false, 3)) = true) ∧ (fetchIn (begunAt (hauth 3 7 0x100400 []) 24 1 ((hpc 3584 3 0 8 false, 3))) (blockAt (hauth 3 7 0x100400 []) 24 1 ((hpc 3584 3 0 8 false, 3))) (blockAt (hauth 3 7 0x100400 []) 24 1 ((hpc 3584 3 0 8 false, 3))).srck ((blockAt (hauth 3 7 0x100400 []) 24 1 ((hpc 3584 3 0 8 false, 3))).word 0) (blockAt (hauth 3 7 0x100400 []) 24 1 ((hpc 3584 3 0 8 false, 3))).len = ⟨hsrc, [], false⟩) ∧ (fetchIn (begunAt (hauth 3 7 0x100400 []) 24 1 ((hpc 3584 3 0 8 false, 3))) (blockAt (hauth 3 7 0x100400 []) 24 1 ((hpc 3584 3 0 8 false, 3))) (blockAt (hauth 3 7 0x100400 []) 24 1 ((hpc 3584 3 0 8 false, 3))).srck ((blockAt (hauth 3 7 0x100400 []) 24 1 ((hpc 3584 3 0 8 false, 3))).word 2) 12 = ⟨(hzero 12), [], false⟩) ∧ (fetchIn (begunAt (hauth 3 7 0x100400 []) 24 1 ((hpc 3584 3 0 8 false, 3))) (blockAt (hauth 3 7 0x100400 []) 24 1 ((hpc 3584 3 0 8 false, 3))) (blockAt (hauth 3 7 0x100400 []) 24 1 ((hpc 3584 3 0 8 false, 3))).srck ((blockAt (hauth 3 7 0x100400 []) 24 1 ((hpc 3584 3 0 8 false, 3))).word 2 + 16) 16 = ⟨(hzero 16), [], false⟩) ∧ (slotKey (begunAt (hauth 3 7 0x100400 []) 24 1 ((hpc 3584 3 0 8 false, 3))) (blockAt (hauth 3 7 0x100400 []) 24 1 ((hpc 3584 3 0 8 false, 3))) [1, 2] = ⟨hkey, [], false⟩) ∧ (roomIn (begunAt (hauth 3 7 0x100400 []) 24 1 ((hpc 3584 3 0 8 false, 3))) (blockAt (hauth 3 7 0x100400 []) 24 1 ((hpc 3584 3 0 8 false, 3))) ((blockAt (hauth 3 7 0x100400 []) 24 1 ((hpc 3584 3 0 8 false, 3))).word 1) (blockAt (hauth 3 7 0x100400 []) 24 1 ((hpc 3584 3 0 8 false, 3))).len = []) ∧ ((gcmDec hkey (hzero 12) [] hsrc).2 ≠ (hzero 16)) := by decide +kernel
theorem wit_CipherAndHashHelpersStart_4 : (starts (hauth 4 0x100007 0x100400 []) 24 1 4 ((hpc 3584 4 0 8 false, 3)) = true) ∧ (fetchIn (begunAt (hauth 4 0x100007 0x100400 []) 24 1 ((hpc 3584 4 0 8 false, 3))) (blockAt (hauth 4 0x100007 0x100400 []) 24 1 ((hpc 3584 4 0 8 false, 3))) (blockAt (hauth 4 0x100007 0x100400 []) 24 1 ((hpc 3584 4 0 8 false, 3))).srck ((blockAt (hauth 4 0x100007 0x100400 []) 24 1 ((hpc 3584 4 0 8 false, 3))).word 0) (blockAt (hauth 4 0x100007 0x100400 []) 24 1 ((hpc 3584 4 0 8 false, 3))).len = ⟨hsrc, [], false⟩) ∧ (fetchIn (begunAt (hauth 4 0x100007 0x100400 []) 24 1 ((hpc 3584 4 0 8 false, 3))) (blockAt (hauth 4 0x100007 0x100400 []) 24 1 ((hpc 3584 4 0 8 false, 3))) false ((blockAt (hauth 4 0x100007 0x100400 []) 24 1 ((hpc 3584 4 0 8 false, 3))).word 2) 12 = ⟨(hzero 12), [], false⟩) ∧ (slotKey (begunAt (hauth 4 0x100007 0x100400 []) 24 1 ((hpc 3584 4 0 8 false, 3))) (blockAt (hauth 4 0x100007 0x100400 []) 24 1 ((hpc 3584 4 0 8 false, 3))) [1, 2] = ⟨hkey, [], false⟩) ∧ ((blockAt (hauth 4 0x100007 0x100400 []) 24 1 ((hpc 3584 4 0 8 false, 3))).tlen = 16) ∧ (roomIn (begunAt (hauth 4 0x100007 0x100400 []) 24 1 ((hpc 3584 4 0 8 false, 3))) (blockAt (hauth 4 0x100007 0x100400 []) 24 1 ((hpc 3584 4 0 8 false, 3))) ((blockAt (hauth 4 0x100007 0x100400 []) 24 1 ((hpc 3584 4 0 8 false, 3))).word 1) 16 = []) := by decide +kernel
theorem wit_CipherAndHashHelpersStart_5 : (starts (hauth 5 0x100007 0x100310 ((gcmTag (aesExpand hkey) (hzero 12) hsrc []).take 16)) 24 1 5 ((hpc 3584 5 0 8 false, 3)) = true) ∧ (fetchIn (begunAt (hauth 5 0x100007 0x100310 ((gcmTag (aesExpand hkey) (hzero 12) hsrc []).take 16)) 24 1 ((hpc 3584 5 0 8 false, 3))) (blockAt (hauth 5 0x100007 0x100310 ((gcmTag (aesExpand hkey) (hzero 12) hsrc []).take 16)) 24 1 ((hpc 3584 5 0 8 false, 3))) (blockAt (hauth 5 0x100007 0x100310 ((gcmTag (aesExpand hkey) (hzero 12) hsrc []).take 16)) 24 1 ((hpc 3584 5 0 8 false, 3))).srck ((blockAt (hauth 5 0x100007 0x100310 ((gcmTag (aesExpand hkey) (hzero 12) hsrc []).take 16)) 24 1 ((hpc 3584 5 0 8 false, 3))).word 0) (blockAt (hauth 5 0x100007 0x100310 ((gcmTag (aesExpand hkey) (hzero 12) hsrc []).take 16)) 24 1 ((hpc 3584 5 0 8 false, 3))).len = ⟨hsrc, [], false⟩) ∧ (fetchIn (begunAt (hauth 5 0x100007 0x100310 ((gcmTag (aesExpand hkey) (hzero 12) hsrc []).take 16)) 24 1 ((hpc 3584 5 0 8 false, 3))) (blockAt (hauth 5 0x100007 0x100310 ((gcmTag (aesExpand hkey) (hzero 12) hsrc []).take 16)) 24 1 ((hpc 3584 5 0 8 false, 3))) (blockAt (hauth 5 0x100007 0x100310 ((gcmTag (aesExpand hkey) (hzero 12) hsrc []).take 16)) 24 1 ((hpc 3584 5 0 8 false, 3))).srck ((blockAt (hauth 5 0x100007 0x100310 ((gcmTag (aesExpand hkey) (hzero 12) hsrc []).take 16)) 24 1 ((hpc 3584 5 0 8 false, 3))).word 2) 12 = ⟨(hzero 12), [], false⟩) ∧ (fetchIn (begunAt (hauth 5 0x100007 0x100310 ((gcmTag (aesExpand hkey) (hzero 12) hsrc []).take 16)) 24 1 ((hpc 3584 5 0 8 false, 3))) (blockAt (hauth 5 0x100007 0x100310 ((gcmTag (aesExpand hkey) (hzero 12) hsrc []).take 16)) 24 1 ((hpc 3584 5 0 8 false, 3))) (blockAt (hauth 5 0x100007 0x100310 ((gcmTag (aesExpand hkey) (hzero 12) hsrc []).take 16)) 24 1 ((hpc 3584 5 0 8 false, 3))).srck ((blockAt (hauth 5 0x100007 0x100310 ((gcmTag (aesExpand hkey) (hzero 12) hsrc []).take 16)) 24 1 ((hpc 3584 5 0 8 false, 3))).word 2 + 16) 16 = ⟨((gcmTag (aesExpand hkey) (hzero 12) hsrc []).take 16), [], false⟩) ∧ (slotKey (begunAt (hauth 5 0x100007 0x100310 ((gcmTag (aesExpand hkey) (hzero 12) hsrc []).take 16)) 24 1 ((hpc 3584 5 0 8 false, 3))) (blockAt (hauth 5 0x100007 0x100310 ((gcmTag (aesExpand hkey) (hzero 12) hsrc []).take 16)) 24 1 ((hpc 3584 5 0 8 false, 3))) [1, 2] = ⟨hkey, [], false⟩) ∧ ((blockAt (hauth 5 0x100007 0x100310 ((gcmTag (aesExpand hkey) (hzero 12) hsrc []).take 16)) 24 1 ((hpc 3584 5 0 8 false, 3))).tlen = 16) := by decide +kernel
theorem wit_CipherAndHashHelpersStart_6 : (starts (hauth 8 0x100008 0x100400 []) 24 1 8 ((hpc 3584 8 0 8 false, 3)) = true) ∧ (fetchIn (begunAt (hauth 8 0x100008 0x100400 []) 24 1 ((hpc 3584 8 0 8 false, 3))) (blockAt (hauth 8 0x100008 0x100400 []) 24 1 ((hpc 3584 8 0 8 false, 3))) (blockAt (hauth 8 0x100008 0x100400 []) 24 1 ((hpc 3584 8 0 8 false, 3))).srck ((blockAt (hauth 8 0x100008 0x100400 []) 24 1 ((hpc 3584 8 0 8 false, 3))).word 0) (blockAt (hauth 8 0x100008 0x100400 []) 24 1 ((hpc 3584 8 0 8 false, 3))).len = ⟨hsrc, [], false⟩) ∧ (slotKey (begunAt (hauth 8 0x100008 0x100400 []) 24 1 ((hpc 3584 8 0 8 false, 3))) (blockAt (hauth 8 0x100008 0x100400 []) 24 1 ((hpc 3584 8 0 8 false, 3))) [3] = ⟨hkey, [], false⟩) ∧ (16 ≤ (blockAt (hauth 8 0x100008 0x100400 []) 24 1 ((hpc 3584 8 0 8 false, 3))).tlen) ∧ ((blockAt (hauth 8 0x100008 0x100400 []) 24 1 ((hpc 3584 8 0 8 false, 3))).tlen ≤ 32) ∧ (roomIn (begunAt (hauth 8 0x100008 0x100400 []) 24 1 ((hpc 3584 8 0 8 false, 3))) (blockAt (hauth 8 0x100008 0x100400 []) 24 1 ((hpc 3584 8 0 8 false, 3))) ((blockAt (hauth 8 0x100008 0x100400 []) 24 1 ((hpc 3584 8 0 8 false, 3))).word 1) (blockAt (hauth 8 0x100008 0x100400 []) 24 1 ((hpc 3584 8 0 8 false, 3))).tlen = []) := by decide +kernel
theorem wit_CipherAndHashHelpersStart_7 : (starts (hauth 9 0x100008 0x100300 ((hmacSha256 hkey hsrc).take 16)) 24 1 9 ((hpc 3584 9 0 8 false, 3)) = true) ∧ (fetchIn (begunAt (hauth 9 0x100008 0x100300 ((hmacSha256 hkey hsrc).take 16)) 24 1 ((hpc 3584 9 0 8 false, 3))) (blockAt (hauth 9 0x100008 0x100300 ((hmacSha256 hkey hsrc).take 16)) 24 1 ((hpc 3584 9 0 8 false, 3))) (blockAt (hauth 9 0x100008 0x100300 ((hmacSha256 hkey hsrc).take 16)) 24 1 ((hpc 3584 9 0 8 false, 3))).srck ((blockAt (hauth 9 0x100008 0x100300 ((hmacSha256 hkey hsrc).take 16)) 24 1 ((hpc 3584 9 0 8 false, 3))).word 0) (blockAt (hauth 9 0x100008 0x100300 ((hmacSha256 hkey hsrc).take 16)) 24 1 ((hpc 3584 9 0 8 false, 3))).len = ⟨hsrc, [], false⟩) ∧ (slotKey (begunAt (hauth 9 0x100008 0x100300 ((hmacSha256 hkey hsrc).take 16)) 24 1 ((hpc 3584 9 0 8 false, 3))) (blockAt (hauth 9 0x100008 0x100300 ((hmacSha256 hkey hsrc).take 16)) 24 1 ((hpc 3584 9 0 8 false, 3))) [3] = ⟨hkey, [], false⟩) ∧ (16 ≤ (blockAt (hauth 9 0x100008 0x100300 ((hmacSha256 hkey hsrc).take 16)) 24 1 ((hpc 3584 9 0 8 false, 3))).tlen) ∧ ((blockAt (hauth 9 0x100008 0x100300 ((hmacSha256 hkey hsrc).take 16)) 24 1 ((hpc 3584 9 0 8 false, 3))).tlen ≤ 32) ∧ (fetchIn (begunAt (hauth 9 0x100008 0x100300 ((hmacSha256 hkey hsrc).take 16)) 24 1 ((hpc 3584 9 0 8 false, 3))) (blockAt (hauth 9 0x100008 0x100300 ((hmacSha256 hkey hsrc).take 16)) 24 1 ((hpc 3584 9 0 8 false, 3))) (blockAt (hauth 9 0x100008 0x100300 ((hmacSha256 hkey hsrc).take 16)) 24 1 ((hpc 3584 9 0 8 false, 3))).srck ((blockAt (hauth 9 0x100008 0x100300 ((hmacSha256 hkey hsrc).take 16)) 24 1 ((hpc 3584 9 0 8 false, 3))).word 2) (blockAt (hauth 9 0x100008 0x100300 ((hmacSha256 hkey hsrc).take 16)) 24 1 ((hpc 3584 9 0 8 false, 3))).tlen = ⟨((hmacSha256 hkey hsrc).take (blockAt (hauth 9 0x100008 0x100300 ((hmacSha256 hkey hsrc).take 16)) 24 1 ((hpc 3584 9 0 8 false, 3))).tlen), [], false⟩) := by decide +kernel
theorem wit_CipherAndHashHelpersStart_8 : (starts (hauth 10 0 0x100400 []) 24 1 0x0A ((hpc 3584 10 0 8 false, 3)) = true) ∧ (fetchIn (begunAt (hauth 10 0 0x100400 []) 24 1 ((hpc 3584 10 0 8 false, 3))) (blockAt (hauth 10 0 0x100400 []) 24 1 ((hpc 3584 10 0 8 false, 3))) (blockAt (hauth 10 0 0x100400 []) 24 1 ((hpc 3584 10 0 8 false, 3))).srck ((blockAt (hauth 10 0 0x100400 []) 24 1 ((hpc 3584 10 0 8 false, 3))).word 0) (blockAt (hauth 10 0 0x100400 []) 24 1 ((hpc 3584 10 0 8 false, 3))).len = ⟨hsrc, [], false⟩) ∧ (roomIn (begunAt (hauth 10 0 0x100400 []) 24 1 ((hpc 3584 10 0 8 false, 3))) (blockAt (hauth 10 0 0x100400 []) 24 1 ((hpc 3584 10 0 8 false, 3))) ((blockAt (hauth 10 0 0x100400 []) 24 1 ((hpc 3584 10 0 8 false, 3))).word 1) 32 = []) := by decide +kernel
theorem wit_ChecksumMoveAndDirectoryHelpersStart_1 : (starts (hauth 0x0C 0 0x100400 []) 24 1 0x0C ((hpc 3584 0x0C 0 8 false, 3)) = true) ∧ (fetchIn (begunAt (hauth 0x0C 0 0x100400 []) 24 1 ((hpc 3584 0x0C 0 8 false, 3))) (blockAt (hauth 0x0C 0 0x100400 []) 24 1 ((hpc 3584 0x0C 0 8 false, 3))) (blockAt (hauth 0x0C 0 0x100400 []) 24 1 ((hpc 3584 0x0C 0 8 false, 3))).srck ((blockAt (hauth 0x0C 0 0x100400 []) 24 1 ((hpc 3584 0x0C 0 8 false, 3))).word 0) (blockAt (hauth 0x0C 0 0x100400 []) 24 1 ((hpc 3584 0x0C 0 8 false, 3))).len = ⟨hsrc, [], false⟩) := by decide +kernel
theorem wit_ChecksumMoveAndDirectoryHelpersStart_2 : (starts (hauth 0x0D 0 0x100400 []) 24 1 0x0D ((hpc 3584 0x0D 0 8 false, 3)) = true) ∧ (fetchIn (begunAt (hauth 0x0D 0 0x100400 []) 24 1 ((hpc 3584 0x0D 0 8 false, 3))) (blockAt (hauth 0x0D 0 0x100400 []) 24 1 ((hpc 3584 0x0D 0 8 false, 3))) (blockAt (hauth 0x0D 0 0x100400 []) 24 1 ((hpc 3584 0x0D 0 8 false, 3))).srck ((blockAt (hauth 0x0D 0 0x100400 []) 24 1 ((hpc 3584 0x0D 0 8 false, 3))).word 0) (blockAt (hauth 0x0D 0 0x100400 []) 24 1 ((hpc 3584 0x0D 0 8 false, 3))).len = ⟨hsrc, [], false⟩) := by decide +kernel
theorem wit_ChecksumMoveAndDirectoryHelpersStart_3 : (starts (hauth 0x0E 0 0x100400 []) 24 1 0x0E ((hpc 3584 0x0E 0 8 false, 3)) = true) ∧ (fetchIn (begunAt (hauth 0x0E 0 0x100400 []) 24 1 ((hpc 3584 0x0E 0 8 false, 3))) (blockAt (hauth 0x0E 0 0x100400 []) 24 1 ((hpc 3584 0x0E 0 8 false, 3))) (blockAt (hauth 0x0E 0 0x100400 []) 24 1 ((hpc 3584 0x0E 0 8 false, 3))).srck ((blockAt (hauth 0x0E 0 0x100400 []) 24 1 ((hpc 3584 0x0E 0 8 false, 3))).word 0) (blockAt (hauth 0x0E 0 0x100400 []) 24 1 ((hpc 3584 0x0E 0 8 false, 3))).len = ⟨hsrc, [], false⟩) := by decide +kernel
theorem wit_ChecksumMoveAndDirectoryHelpersStart_4 : (starts hcell 0 1 0x12 ((hpc 0 0x12 0 8 false, 3)) = true) ∧ (fetchIn (begunAt hcell 0 1 ((hpc 0 0x12 0 8 false, 3))) (blockAt hcell 0 1 ((hpc 0 0x12 0 8 false, 3))) true ((blockAt hcell 0 1 ((hpc 0 0x12 0 8 false, 3))).word 0) (blockAt hcell 0 1 ((hpc 0 0x12 0 8 false, 3))).len = ⟨(head64.take 8), [], false⟩) ∧ (roomIn (begunAt hcell 0 1 ((hpc 0 0x12 0 8 false, 3))) (blockAt hcell 0 1 ((hpc 0 0x12 0 8 false, 3))) ((blockAt hcell 0 1 ((hpc 0 0x12 0 8 false, 3))).word 1) (blockAt hcell 0 1 ((hpc 0 0x12 0 8 false, 3))).len = []) := by decide +kernel
theorem wit_ChecksumMoveAndDirectoryHelpersStart_5 : (starts (hdram 0x10) 24 1 0x10 ((hpc 3584 0x10 0 8 false, 3)) = true) ∧ (fetchIn (begunAt (hdram 0x10) 24 1 ((hpc 3584 0x10 0 8 false, 3))) (blockAt (hdram 0x10) 24 1 ((hpc 3584 0x10 0 8 false, 3))) (blockAt (hdram 0x10) 24 1 ((hpc 3584 0x10 0 8 false, 3))).srck ((blockAt (hdram 0x10) 24 1 ((hpc 3584 0x10 0 8 false, 3))).word 0) (blockAt (hdram 0x10) 24 1 ((hpc 3584 0x10 0 8 false, 3))).len = ⟨hsrc, [], false⟩) ∧ (dramBad (begunAt (hdram 0x10) 24 1 ((hpc 3584 0x10 0 8 false, 3))) (blockAt (hdram 0x10) 24 1 ((hpc 3584 0x10 0 8 false, 3))) = []) := by decide +kernel
theorem wit_ChecksumMoveAndDirectoryHelpersStart_6 : (starts (hdram 0x11) 24 1 0x11 ((hpc 3584 0x11 0 8 false, 3)) = true) ∧ (dramBad (begunAt (hdram 0x11) 24 1 ((hpc 3584 0x11 0 8 false, 3))) (blockAt (hdram 0x11) 24 1 ((hpc 3584 0x11 0 8 false, 3))) = []) ∧ (roomIn (begunAt (hdram 0x11) 24 1 ((hpc 3584 0x11 0 8 false, 3))) (blockAt (hdram 0x11) 24 1 ((hpc 3584 0x11 0 8 false, 3))) ((blockAt (hdram 0x11) 24 1 ((hpc 3584 0x11 0 8 false, 3))).word 1) (blockAt (hdram 0x11) 24 1 ((hpc 3584 0x11 0 8 false, 3))).len = []) := by decide +kernel
theorem wit_ChecksumMoveAndDirectoryHelpersStart_7 : (starts (hblk 3584 24 0x13 0 60 [0x100100, 0, 0x100300] [1, 2]) 24 1 0x13 ((hpc 3584 0x13 0 60 false, 3)) = true) ∧ (24 = 24) ∧ (fetchIn (begunAt (hblk 3584 24 0x13 0 60 [0x100100, 0, 0x100300] [1, 2]) 24 1 ((hpc 3584 0x13 0 60 false, 3))) (blockAt (hblk 3584 24 0x13 0 60 [0x100100, 0, 0x100300] [1, 2]) 24 1 ((hpc 3584 0x13 0 60 false, 3))) false ((blockAt (hblk 3584 24 0x13 0 60 [0x100100, 0, 0x100300] [1, 2]) 24 1 ((hpc 3584 0x13 0 60 false, 3))).word 0) (blockAt (hblk 3584 24 0x13 0 60 [0x100100, 0, 0x100300] [1, 2]) 24 1 ((hpc 3584 0x13 0 60 false, 3))).len = ⟨(hsrc ++ hzero 52), [], false⟩) ∧ (fetchIn (begunAt (hblk 3584 24 0x13 0 60 [0x100100, 0, 0x100300] [1, 2]) 24 1 ((hpc 3584 0x13 0 60 false, 3))) (blockAt (hblk 3584 24 0x13 0 60 [0x100100, 0, 0x100300] [1, 2]) 24 1 ((hpc 3584 0x13 0 60 false, 3))) false ((blockAt (hblk 3584 24 0x13 0 60 [0x100100, 0, 0x100300] [1, 2]) 24 1 ((hpc 3584 0x13 0 60 false, 3))).word 2) 16 = ⟨(hzero 16), [], false⟩) ∧ (60 ≤ (blockAt (hblk 3584 24 0x13 0 60 [0x100100, 0, 0x100300] [1, 2]) 24 1 ((hpc 3584 0x13 0 60 false, 3))).len) ∧ ((blockAt (hblk 3584 24 0x13 0 60 [0x100100, 0, 0x100300] [1, 2]) 24 1 ((hpc 3584 0x13 0 60 false, 3))).len ≤ 9212) ∧ (leNat ((hzero 16).drop 12) = 0) ∧ ((shmWord (begunAt (hblk 3584 24 0x13 0 60 [0x100100, 0, 0x100300] [1, 2]) 24 1 ((hpc 3584 0x13 0 60 false, 3))) (blockAt (hblk 3584 24 0x13 0 60 [0x100100, 0, 0x100300] [1, 2]) 24 1 ((hpc 3584 0x13 0 60 false, 3))).isl (((blockAt (hblk 3584 24 0x13 0 60 [0x100100, 0, 0x100300] [1, 2]) 24 1 ((hpc 3584 0x13 0 60 false, 3))).word 2 + 12) / 4 * 4)).tag = tagINT) := by decide +kernel
theorem wit_ChecksumMoveAndDirectoryHelpersStart_8 : (starts (hblk 0 0 0x18 0 0 [0x100100, 0, 0, 1] [1, 2]) 0 1 0x18 ((hpc 0 0x18 0 0 false, 3)) = true) ∧ (0 < 16) ∧ (fetchIn (begunAt (hblk 0 0 0x18 0 0 [0x100100, 0, 0, 1] [1, 2]) 0 1 ((hpc 0 0x18 0 0 false, 3))) (blockAt (hblk 0 0 0x18 0 0 [0x100100, 0, 0, 1] [1, 2]) 0 1 ((hpc 0 0x18 0 0 false, 3))) false ((blockAt (hblk 0 0 0x18 0 0 [0x100100, 0, 0, 1] [1, 2]) 0 1 ((hpc 0 0x18 0 0 false, 3))).word 0) 24 = ⟨(hsrc ++ hzero 16), [], false⟩) ∧ ([1, 2, 4, 5, 6, 7].contains ((blockAt (hblk 0 0 0x18 0 0 [0x100100, 0, 0, 1] [1, 2]) 0 1 ((hpc 0 0x18 0 0 false, 3))).word 3 % 16) = true) ∧ (queryOld (begunAt (hblk 0 0 0x18 0 0 [0x100100, 0, 0, 1] [1, 2]) 0 1 ((hpc 0 0x18 0 0 false, 3))) ((hpc 0 0x18 0 0 false, 3)).1 = some false) ∧ (((blockAt (hblk 0 0 0x18 0 0 [0x100100, 0, 0, 1] [1, 2]) 0 1 ((hpc 0 0x18 0 0 false, 3))).word 3 % 16 = 6 → ((hpc 0 0x18 0 0 false, 3)).1.timed = false ∧ (begunAt (hblk 0 0 0x18 0 0 [0x100100, 0, 0, 1] [1, 2]) 0 1 ((hpc 0 0x18 0 0 false, 3))).dramReady = true ∧ (cacheLook (begunAt (hblk 0 0 0x18 0 0 [0x100100, 0, 0, 1] [1, 2]) 0 1 ((hpc 0 0x18 0 0 false, 3))) 0 ((wordsOf (hsrc ++ hzero 16)).getD 2 0 * 2 ^ 64 + (wordsOf (hsrc ++ hzero 16)).getD 1 0 * 2 ^ 32 + (wordsOf (hsrc ++ hzero 16)).getD 0 0) false).2 = [])) := by decide +kernel
theorem wit_ChecksumMoveAndDirectoryHelpersStart_9 : (starts (hblk 0 0 0x19 0 0 [0x100100, 0, 0, 5] [1, 2]) 0 1 0x19 ((hpc 0 0x19 0 0 false, 3)) = true) ∧ (0 < 16) ∧ (fetchIn (begunAt (hblk 0 0 0x19 0 0 [0x100100, 0, 0, 5] [1, 2]) 0 1 ((hpc 0 0x19 0 0 false, 3))) (blockAt (hblk 0 0 0x19 0 0 [0x100100, 0, 0, 5] [1, 2]) 0 1 ((hpc 0 0x19 0 0 false, 3))) false ((blockAt (hblk 0 0 0x19 0 0 [0x100100, 0, 0, 5] [1, 2]) 0 1 ((hpc 0 0x19 0 0 false, 3))).word 0) 8 = ⟨hsrc, [], false⟩) := by decide +kernel
theorem wit_HelpersTakeCommands_1 : ((advance hstation 1).life.rails = true) ∧ (0 < 16) ∧ (((advance hstation 1).helper 0).rotate < 3) ∧ ((∀ i < 3, ((advance hstation 1).hatch (hatchNo 9 (0 * 3 + i))).taken = [])) ∧ (((advance hstation 1).hatch (hatchNo 9 (0 * 3 + ((advance hstation 1).helper 0).rotate))).xFifo = ⟨.helpCmd (hpc 0 2 0 8 true), 5, true⟩ :: ([])) ∧ ((hpc 0 2 0 8 true).timed = true) ∧ (cwFunc (hpc 0 2 0 8 true).word ≠ 1) ∧ (((advance hstation 1).hunit 0 (helpUnitOf (cwFunc (hpc 0 2 0 8 true).word))).waitT = none) := by decide +kernel
theorem wit_HelpersTakeCommands_2 : ((advance (hqueue 2) 1).life.rails = true) ∧ (24 < 25) ∧ (takeCmd (advance (hqueue 2) 1) 24 (hasPlace (advance (hqueue 2) 1) 24) = some ((((takeCmd (advance (hqueue 2) 1) 24 (hasPlace (advance (hqueue 2) 1) 24)).map (·.1)).getD svc), some (hpc 3584 2 0 8 false))) := by decide +kernel
theorem wit_HelpersTakeCommands_3 : ((advance hnop 1).life.rails = true) ∧ (24 < 25) ∧ (takeCmd (advance hnop 1) 24 (fun k => cwFunc k.word == 1 && mayStart (advance hnop 1) k && doneRoom (advance hnop 1) k) = some (hnopTaken, some (hpc 3584 1 0 8 false))) ∧ (((advance hnop 1).thr (hpc 3584 1 0 8 false).thread).voiding = false) ∧ (cwSrck (hpc 3584 1 0 8 false).word = false) ∧ ((hnopTaken.thr (hpc 3584 1 0 8 false).thread).voiding = false) ∧ ((hnopTaken.thr (hpc 3584 1 0 8 false).thread).ring = some 0x101000) ∧ (0x100000 ≤ 0x101000) ∧ (0x101000 % 4 = 0) := by decide +kernel
theorem wit_HelpersTakeCommands_4 : ((advance hparked 1).life.rails = true) ∧ (24 < 25) ∧ (1 < 4) ∧ (resumable (advance hparked 1) 24 1 true = some ((hpc 3584 0x0A 0 8 true, 3))) ∧ (unitTakes (advance hparked 1) 24 1 true = true) := by decide +kernel
theorem wit_HelpersTakeCommands_5 : ((advance hparkedS 1).life.rails = true) ∧ (24 < 25) ∧ (1 < 4) ∧ (resumable (advance hparkedS 1) 24 1 true = none) ∧ (resumable (advance hparkedS 1) 24 1 false = some ((hpc 3584 0x0A 0 8 false, 3))) ∧ (unitTakes (advance hparkedS 1) 24 1 false = true) := by decide +kernel
theorem wit_HelpersTakeCommands_6 : ((advance hnop 1).life.rails = true) ∧ (24 < 25) ∧ (takeCmd (advance hnop 1) 24 (fun k => cwFunc k.word == 1 && mayStart (advance hnop 1) k && doneRoom (advance hnop 1) k) = some (hnopTaken, some (hpc 3584 1 0 8 false))) := by decide +kernel
theorem wit_HelpersCompleteCommands_1 : ((advance (hruns 4 (some 0x101000)) 1).life.rails = true) ∧ (24 < 25) ∧ (1 < 4) ∧ (((advance (hruns 4 (some 0x101000)) 1).hunit 24 1).run = some (hjob 4)) ∧ (jobReady (advance (hruns 4 (some 0x101000)) 1) 24 (hjob 4) = true) ∧ (doneRoom (advance (hruns 4 (some 0x101000)) 1) (hjob 4).cmd = true) ∧ (((advance (hruns 4 (some 0x101000)) 1).thr (hjob 4).cmd.thread).voiding = false) ∧ ((hjob 4).refs = 0) ∧ ((hjob 4).learn = 0) ∧ ((hjob 4).status ≠ 0) ∧ (((advance (hruns 4 (some 0x101000)) 1).thr (hjob 4).cmd.thread).ring = some 0x101000) ∧ (0x100000 ≤ 0x101000) ∧ (0x101000 % 4 = 0) := by decide +kernel
theorem wit_HelpersCompleteCommands_2 : ((advance (hruns 0 none) 1).life.rails = true) ∧ (24 < 25) ∧ (1 < 4) ∧ (((advance (hruns 0 none) 1).hunit 24 1).run = some (hjob 0)) ∧ (jobReady (advance (hruns 0 none) 1) 24 (hjob 0) = true) ∧ (doneRoom (advance (hruns 0 none) 1) (hjob 0).cmd = true) ∧ (((advance (hruns 0 none) 1).thr (hjob 0).cmd.thread).voiding = false) ∧ ((hjob 0).refs = 0) ∧ ((hjob 0).learn = 0) ∧ ((hjob 0).status = 0) ∧ (cwFunc (hjob 0).cmd.word ≠ 0x13) ∧ (((advance (hruns 0 none) 1).thr (hjob 0).cmd.thread).ring = none) := by decide +kernel
theorem wit_HelpersCompleteCommands_3 : ((advance (hruns 0 (some 0x101000)) 1).life.rails = true) ∧ (24 < 25) ∧ (1 < 4) ∧ (((advance (hruns 0 (some 0x101000)) 1).hunit 24 1).run = some (hjob 0)) ∧ (jobReady (advance (hruns 0 (some 0x101000)) 1) 24 (hjob 0) = true) ∧ (doneRoom (advance (hruns 0 (some 0x101000)) 1) (hjob 0).cmd = true) ∧ (((advance (hruns 0 (some 0x101000)) 1).thr (hjob 0).cmd.thread).voiding = false) ∧ ((hjob 0).refs = 0) ∧ ((hjob 0).learn = 0) ∧ ((hjob 0).status = 0) ∧ (cwFunc (hjob 0).cmd.word ≠ 0x13) ∧ (((advance (hruns 0 (some 0x101000)) 1).thr (hjob 0).cmd.thread).ring = some 0x101000) ∧ (0x100000 ≤ 0x101000) ∧ (0x101000 % 4 = 0) := by decide +kernel
theorem wit_HelpersCompleteCommands_4 : ((advance (hruns2 (hjob2 0x13 0)) 1).life.rails = true) ∧ (24 < 25) ∧ (2 < 4) ∧ (((advance (hruns2 (hjob2 0x13 0)) 1).hunit 24 2).run = some (hjob2 0x13 0)) ∧ (jobReady (advance (hruns2 (hjob2 0x13 0)) 1) 24 (hjob2 0x13 0) = true) ∧ (doneRoom (advance (hruns2 (hjob2 0x13 0)) 1) (hjob2 0x13 0).cmd = true) ∧ (((advance (hruns2 (hjob2 0x13 0)) 1).thr (hjob2 0x13 0).cmd.thread).voiding = false) ∧ ((hjob2 0x13 0).refs = 0) ∧ ((hjob2 0x13 0).learn = 0) ∧ ((hjob2 0x13 0).status = 0) ∧ (cwFunc (hjob2 0x13 0).cmd.word = 0x13) ∧ (((advance (hruns2 (hjob2 0x13 0)) 1).thr (hjob2 0x13 0).cmd.thread).ring = some 0x101000) ∧ (0x100000 ≤ 0x101000) ∧ (0x101000 % 4 = 0) := by decide +kernel
theorem wit_HelpersCompleteCommands_5 : ((advance hanswered 1).life.rails = true) ∧ (24 < 25) ∧ (2 < 4) ∧ (((advance hanswered 1).hunit 24 2).run = some (hjob2 0x10 1)) ∧ (jobReady (advance hanswered 1) 24 (hjob2 0x10 1) = true) ∧ (doneRoom (advance hanswered 1) (hjob2 0x10 1).cmd = true) ∧ (((advance hanswered 1).thr (hjob2 0x10 1).cmd.thread).voiding = false) ∧ (0 < (hjob2 0x10 1).refs) ∧ (((advance hanswered 1).thr (hjob2 0x10 1).cmd.thread).ring = some 0x101000) ∧ (0x100000 ≤ 0x101000) ∧ (0x101000 % 4 = 0) := by decide +kernel
theorem wit_HelpersCompleteCommands_6 : ((advance (hruns 4 none) 1).life.rails = true) ∧ (24 < 25) ∧ (1 < 4) ∧ (((advance (hruns 4 none) 1).hunit 24 1).run = some (hjob 4)) ∧ (jobReady (advance (hruns 4 none) 1) 24 (hjob 4) = true) ∧ (doneRoom (advance (hruns 4 none) 1) (hjob 4).cmd = true) := by decide +kernel
theorem wit_HelpersCompleteCommands_7 : ((advance (hlate 0) 1).life.rails = true) ∧ ((advance (hlate 0) 1).dram.late = (3584, 2, 64) :: ([])) := by decide +kernel
theorem wit_HelpersCompleteCommands_8 : ((advance (hlate 0) 1).life.rails = true) ∧ ((advance (hlate 0) 1).dram.late = (3584, 2, 64) :: ([])) ∧ (((advance (hlate 0) 1).thr 3584).ring = some 0x101000) ∧ (0x100000 ≤ 0x101000) ∧ (0x101000 % 4 = 0) ∧ (bitOf (shmWord (advance (hlate 0) 1) (engIsland (3584 / 16)) (0x101000 + 0x80)).data 31 = false) := by decide +kernel
theorem wit_HelpersCompleteCommands_9 : ((advance (hlate 0x80070000) 1).life.rails = true) ∧ ((advance (hlate 0x80070000) 1).dram.late = (3584, 2, 64) :: ([])) ∧ (((advance (hlate 0x80070000) 1).thr 3584).ring = some 0x101000) ∧ (0x100000 ≤ 0x101000) ∧ (0x101000 % 4 = 0) ∧ (bitOf (shmWord (advance (hlate 0x80070000) 1) (engIsland (3584 / 16)) (0x101000 + 0x80)).data 31 = true) := by decide +kernel

/-! ### workshop -/

/-- Graph 5 on bench 0: its state, whether it is pinned, its nodes and edges. -/
def gphU (st : Nat) (pin : Bool) (ns : List GNode) (es : List GEdge) : State :=
  (svc.setGraph 5 { (default : Graph) with nodes := ns, edges := es, account := 1, bufBase := 0x100000, bufLen := 256, paramDest := 0x102000, paramLen := 32 }).setReg (Reg.graphStat 5)
    (BitVec.ofNat 32 (st * 2 ^ 29 + (if pin then 2 ^ 21 else 0) + ns.length))
def tapin : GNode := { (default : GNode) with kind := 1, nout := 1, arg := 3 }
def routine : GNode := { (default : GNode) with nin := 1 }
def alignN (es : List AlignSet) : GNode := { (default : GNode) with kind := 2, nin := 1, nout := 1, arg := 0x10000, sets := es }
def edgeB (base n : Nat) : GEdge := ⟨0, 0, 1, 0, 4, base, 0, n, []⟩
def tok5 (g : Nat) : List TWord := [⟨tagINT, BitVec.ofNat 32 (2 ^ 28 + g * 2 ^ 22)⟩, ⟨tagINT, 0x70000⟩]
def tapAt (g : Nat) (s : State) : State :=
  (s.withWshop fun w => { w with tapNext := 3 }).setHatch (hatchNo 0x0B 3) { (default : Hatch) with gFifo := [⟨.token (tok5 g), 192, false⟩] }
def tapPend (w0 : Nat) : State := let s := wordsAt 3 0x1FE000 [w0, 5] svc; s.setShm 3 { s.shm 3 with taps := [⟨192, 0, none⟩] }
def alignS (b : Bool) : State := gphU 2 false [tapin, alignN [⟨7, 0, 0, b⟩], routine] [edgeB 0 0, ⟨1, 0, 2, 0, 4, 0x100000, 0, 0, []⟩]
/-- Thread 3072 of bench 0 waits for work. -/
def worker (s : State) : State := ((s.setReg (thrCfgR 3072) 0xA0000100).setThrState 3072 2).withThr 3072 fun x => { x with waitMask := 1 }
def disp5 : DispHold := ⟨⟨5, 1, 3072, 0, 0, 1⟩, 0, [], 0⟩
def working : State := worker ((gphU 2 false [tapin, routine] [edgeB 0x100000 1]).withWshop fun w => { w with ready := [(5, 1)] })
def pinnedW (w : Bool) : State := let s := gphU 2 true [tapin, routine] [edgeB 0x100000 1]; if w then worker s else s
def ran (d : Bool) : State :=
  let s := (gphU 2 false [tapin, { routine with run := some ⟨3072, 100⟩ }] [edgeB 0x100000 1]).setHatch (hatchNo 0x0D 0) { (default : Hatch) with gFifo := [⟨.nodeDone ⟨5, 1, 3072, 0, 0, 0, 9⟩, 0, false⟩] }
  if d then s.withThr 3072 fun x => { x with disp := some disp5 } else s
def helperRun : NodeRun := ⟨0xFFFF, 9⟩
def windowS (k : Nat) : State :=
  wordsAt 73 0x100000 [7, 8] (gphU 2 false [tapin, { (default : GNode) with kind := 3, nin := 1, nout := 1, arg := 2 * 2 ^ 11 + 1, have_ := k, ring := 0x104000, run := some helperRun }, routine]
    [edgeB 0x100000 1, ⟨1, 0, 2, 0, 4, 0x100100, 0, 0, []⟩])
def emitS (kind : Nat) : State :=
  wordsAt 73 0x102000 [60 * 2 ^ 16, 0x103000, 4, 8 * 2 ^ 16 + 16, 4 * 2 ^ 16] (wordsAt 73 0x100000 [kind * 2 ^ 28] (gphU 2 false
    [tapin, { (default : GNode) with kind := 4, nin := 1, arg := 8 * 2 ^ 19, run := some helperRun }] [edgeB 0x100000 1]))
def pinnedH : State := gphU 2 true [tapin, { (default : GNode) with kind := 3, nin := 1, nout := 1, arg := 2 * 2 ^ 11 + 1 }, routine] [edgeB 0x100000 1, ⟨1, 0, 2, 0, 4, 0x100100, 0, 0, []⟩]
/-- A DATA token whose fields lie beyond the message. -/
def emitBig : State := (emitS 3).setShmWord 73 0x102008 (tw tagINT (400 * 2 ^ 16))
/-- A slot that asks for a sample of ASDU 0 of the held savPdu. -/
def svHead : List Byte := List.replicate 22 0 ++ [0x60, 28, 0x80, 1, 1, 0xA2, 23, 0x30, 21, 0x82, 2, 0, 7, 0x85, 1, 2, 0x87, 12] ++ List.replicate 12 0
def svEnv : Env := List.replicate 16 0
def svHeld : TapPend := ⟨192, 0, some (setEf (setEf svEnv 5 15 0 52) 12 7 0 14, svHead)⟩
def tapSv : State := let s := wordsAt 3 0x1FE000 [0x60000000, 0x01000000] svc; s.setShm 3 { s.shm 3 with taps := [svHeld] }
def svTok : List Word := (svDecode ((advance tapSv 1).drainIsland 3) 0x60000000 0x01000000 svHeld.held).getD []
def emitOut : List Byte := (emitMessage (advance (emitS 3) 1) 5 1 (getToken (emitS 3) 73 0x100000) (wordsOf (shmBytes (emitS 3) 73 0x102000 32)) (shmBytes (emitS 3) 73 0x103000 60)).getD []
/-- A graph image at the start of tenancy 0's region, and a LOAD of it under way. -/
def image5 (magic : Nat) : List Byte :=
  [magic, 0x10000, 0x10002, 0x10000, 104, 0x60000, 0x100000, 0x101000, 0, 256, 0, 0, 0, 0, 0, 0, 0x10040000, 3, 0, 0, 0x00800000, 0, 0, 0, 256, 4].flatMap (leBytes 4)
def loadS (magic : Nat) : State :=
  (((svc.setReg (Reg.tenDramCfg 0) 0x8000).setRf Reg.dramStat 30 30 1).withWshop fun w => { w with load := some ⟨5, 0, 0, 0, 2⟩ }).setHatch (hatchNo 0x10 81)
    { (default : Hatch) with gFifo := [⟨.dramRsp 0 0 ((image5 magic).take 64), 0, false⟩, ⟨.dramRsp 1 0 ((image5 magic).drop 64 ++ List.replicate 24 0), 0, false⟩] }
def loadedG (st : Nat) (pin : Bool) : State := gphU st pin [tapin, routine] [edgeB 0x100000 1]
theorem wit_TapsFeedGraphs_1 : ((tapPend 0x10000000).life.rails = true) ∧ (3 < 48) ∧ ((((advance (tapPend 0x10000000) 1).drainIsland 3).shm 3).taps = ((⟨192, 0, none⟩ : TapPend)) :: ([])) ∧ ((((advance (tapPend 0x10000000) 1).drainIsland 3).eng (((⟨192, 0, none⟩ : TapPend)).thread / 16)).stores = []) ∧ (fld (shmWord ((advance (tapPend 0x10000000) 1).drainIsland 3) 3 (tapBase ((⟨192, 0, none⟩ : TapPend)).thread + ((⟨192, 0, none⟩ : TapPend)).slot * 64)).data 31 28 ≠ 6) ∧ (0 < ((tapPend 0x10000000).hatch (hatchNo 0x0B 3)).credits (hatchNo 0x0B 3)) ∧ (((tapPend 0x10000000).hatch (hatchNo 0x0B 3)).held = []) := by decide +kernel
theorem wit_TapsFeedGraphs_2 : ((tapPend 0x60000000).life.rails = true) ∧ (3 < 48) ∧ ((((advance (tapPend 0x60000000) 1).drainIsland 3).shm 3).taps = ((⟨192, 0, none⟩ : TapPend)) :: ([])) ∧ ((((advance (tapPend 0x60000000) 1).drainIsland 3).eng (((⟨192, 0, none⟩ : TapPend)).thread / 16)).stores = []) ∧ (fld (shmWord ((advance (tapPend 0x60000000) 1).drainIsland 3) 3 (tapBase ((⟨192, 0, none⟩ : TapPend)).thread + ((⟨192, 0, none⟩ : TapPend)).slot * 64)).data 31 28 = 6) ∧ (((⟨192, 0, none⟩ : TapPend)).held = none) := by decide +kernel
theorem wit_TapsFeedGraphs_3 : ((tapPend 0x10000000).life.rails = true) ∧ (3 < 48) ∧ ((((advance (tapPend 0x10000000) 1).drainIsland 3).shm 3).taps = ((⟨192, 0, none⟩ : TapPend)) :: ([])) ∧ ((((advance (tapPend 0x10000000) 1).drainIsland 3).eng (((⟨192, 0, none⟩ : TapPend)).thread / 16)).stores.any (fun x => x.addr / 64 == (tapBase ((⟨192, 0, none⟩ : TapPend)).thread + ((⟨192, 0, none⟩ : TapPend)).slot * 64) / 64) = false) ∧ (fld (shmWord ((advance (tapPend 0x10000000) 1).drainIsland 3) 3 (tapBase ((⟨192, 0, none⟩ : TapPend)).thread + ((⟨192, 0, none⟩ : TapPend)).slot * 64)).data 31 28 ≠ 6) ∧ (0 < ((tapPend 0x10000000).hatch (hatchNo 0x0B 3)).credits (hatchNo 0x0B 3)) ∧ (((tapPend 0x10000000).hatch (hatchNo 0x0B 3)).held = []) := by decide +kernel
theorem wit_TapsFeedGraphs_4 : (tapSv.life.rails = true) ∧ (3 < 48) ∧ ((((advance tapSv 1).drainIsland 3).shm 3).taps = svHeld :: ([])) ∧ ((((advance tapSv 1).drainIsland 3).eng (svHeld.thread / 16)).stores.any (fun x => x.addr / 64 == (tapBase svHeld.thread + svHeld.slot * 64) / 64) = false) ∧ (fld (shmWord ((advance tapSv 1).drainIsland 3) 3 (tapBase svHeld.thread + svHeld.slot * 64)).data 31 28 = 6) ∧ (svDecode ((advance tapSv 1).drainIsland 3) (shmWord ((advance tapSv 1).drainIsland 3) 3 (tapBase svHeld.thread + svHeld.slot * 64)).data (shmWord ((advance tapSv 1).drainIsland 3) 3 (tapBase svHeld.thread + svHeld.slot * 64 + 4)).data svHeld.held = some svTok) ∧ (0 < (tapSv.hatch (hatchNo 0x0B 3)).credits (hatchNo 0x0B 3)) ∧ ((tapSv.hatch (hatchNo 0x0B 3)).held = []) := by decide +kernel
theorem wit_TapsFeedGraphs_5 : ((tapAt 5 (gphU 2 false [tapin, routine] [edgeB 0x100000 0])).life.rails = true) ∧ (3 < 48) ∧ ((tapAt 5 (gphU 2 false [tapin, routine] [edgeB 0x100000 0])).wshop.tapNext = 3) ∧ (((tapAt 5 (gphU 2 false [tapin, routine] [edgeB 0x100000 0])).hatch (hatchNo 0x0B 3)).front = some ⟨.token (tok5 5), 192, false⟩) ∧ (tapJudge (advance (tapAt 5 (gphU 2 false [tapin, routine] [edgeB 0x100000 0])) 1) 3 192 ((tok5 5).map (·.data)) = 3) ∧ ((edgeB 0x100000 0) = gEdge (tapAt 5 (gphU 2 false [tapin, routine] [edgeB 0x100000 0])) (tGraph ((tok5 5).map (·.data))) (edgeOut (tapAt 5 (gphU 2 false [tapin, routine] [edgeB 0x100000 0])) (tGraph ((tok5 5).map (·.data))) (tNode ((tok5 5).map (·.data))) 0)) ∧ ((edgeB 0x100000 0).base ≠ 0) := by decide +kernel
theorem wit_TapsFeedGraphs_6 : ((tapAt 5 (gphU 2 false [tapin, alignN []] [edgeB 0 0])).life.rails = true) ∧ (3 < 48) ∧ ((tapAt 5 (gphU 2 false [tapin, alignN []] [edgeB 0 0])).wshop.tapNext = 3) ∧ (((tapAt 5 (gphU 2 false [tapin, alignN []] [edgeB 0 0])).hatch (hatchNo 0x0B 3)).front = some ⟨.token (tok5 5), 192, false⟩) ∧ (tapJudge (advance (tapAt 5 (gphU 2 false [tapin, alignN []] [edgeB 0 0])) 1) 3 192 ((tok5 5).map (·.data)) = 3) ∧ ((edgeB 0 0) = gEdge (tapAt 5 (gphU 2 false [tapin, alignN []] [edgeB 0 0])) (tGraph ((tok5 5).map (·.data))) (edgeOut (tapAt 5 (gphU 2 false [tapin, alignN []] [edgeB 0 0])) (tGraph ((tok5 5).map (·.data))) (tNode ((tok5 5).map (·.data))) 0)) ∧ ((edgeB 0 0).base = 0) ∧ (badKind (tKind ((tok5 5).map (·.data))) = false) ∧ (tSmp ((tok5 5).map (·.data)) < alignWrap (gNode (tapAt 5 (gphU 2 false [tapin, alignN []] [edgeB 0 0])) (tGraph ((tok5 5).map (·.data))) (edgeB 0 0).dst)) ∧ ((gNode (tapAt 5 (gphU 2 false [tapin, alignN []] [edgeB 0 0])) (tGraph ((tok5 5).map (·.data))) (edgeB 0 0).dst).last = none) ∧ ((edgeB 0 0).toks.any (fun o => tSmp o == tSmp ((tok5 5).map (·.data))) = false) := by decide +kernel
theorem wit_TapsFeedGraphs_7 : ((tapAt 6 svc).life.rails = true) ∧ (3 < 48) ∧ ((tapAt 6 svc).wshop.tapNext = 3) ∧ (((tapAt 6 svc).hatch (hatchNo 0x0B 3)).front = some ⟨.token (tok5 6), 192, false⟩) ∧ (tapJudge (advance (tapAt 6 svc) 1) 3 192 ((tok5 6).map (·.data)) = 1) ∧ (((tapAt 6 svc).reg Reg.wshopTapBadCnt).toNat < 0xFFFFFFFE) := by decide +kernel
theorem wit_TapsFeedGraphs_8 : ((tapAt 5 (gphU 2 false [{ tapin with arg := 0x20003 }, routine] [edgeB 0x100000 4])).life.rails = true) ∧ (3 < 48) ∧ ((tapAt 5 (gphU 2 false [{ tapin with arg := 0x20003 }, routine] [edgeB 0x100000 4])).wshop.tapNext = 3) ∧ (((tapAt 5 (gphU 2 false [{ tapin with arg := 0x20003 }, routine] [edgeB 0x100000 4])).hatch (hatchNo 0x0B 3)).front = some ⟨.token (tok5 5), 192, false⟩) ∧ (tapJudge (advance (tapAt 5 (gphU 2 false [{ tapin with arg := 0x20003 }, routine] [edgeB 0x100000 4])) 1) 3 192 ((tok5 5).map (·.data)) = 2) ∧ (((tapAt 5 (gphU 2 false [{ tapin with arg := 0x20003 }, routine] [edgeB 0x100000 4])).reg Reg.wshopTapDropCnt).toNat < 0xFFFFFFFE) := by decide +kernel
theorem wit_TapsFeedGraphs_9 : ((alignS false).life.rails = true) ∧ (gState (alignS false) 5 = 2) ∧ ((gNode (alignS false) 5 1).kind = 2) ∧ ((gNode (alignS false) 5 1).sets = [((⟨7, 0, 0, false⟩ : AlignSet))]) ∧ (((⟨7, 0, 0, false⟩ : AlignSet)).smp = 7) ∧ (((⟨7, 0, 0, false⟩ : AlignSet)).expired = false) ∧ (((⟨7, 0, 0, false⟩ : AlignSet)).since + alignHold (gNode (alignS false) 5 1) ≤ (alignS false).up + (1000 * nsUnit)) := by decide +kernel
theorem wit_TapsFeedGraphs_10 : ((alignS false).life.rails = true) ∧ (gState (alignS false) 5 = 2) ∧ ((gNode (alignS false) 5 1).kind = 2) ∧ (((⟨7, 0, 0, false⟩ : AlignSet)) ∈ (gNode (alignS false) 5 1).sets) ∧ (((⟨7, 0, 0, false⟩ : AlignSet)).smp = 7) ∧ (((⟨7, 0, 0, false⟩ : AlignSet)).expired = false) ∧ (((⟨7, 0, 0, false⟩ : AlignSet)).since + alignHold (gNode (alignS false) 5 1) ≤ (alignS false).up + (1000 * nsUnit)) := by decide +kernel
theorem wit_TapsFeedGraphs_11 : ((alignS true).life.rails = true) ∧ (gState (alignS true) 5 = 2) ∧ ((gNode (alignS true) 5 1).kind = 2) ∧ (alignNext (alignS true) 5 1 = some ((⟨7, 0, 0, true⟩ : AlignSet))) ∧ (((List.range (gNode (alignS true) 5 1).nout).all fun i => (gEdge (alignS true) 5 (edgeOut (alignS true) 5 1 i)).room && edgeReach (alignS true) 5 (edgeOut (alignS true) 5 1 i)) = true) := by decide +kernel
theorem wit_NodesRunAndEnd_1 : (working.life.rails = true) ∧ (0 < 8) ∧ (hardThrottle working = false) ∧ (dispatchRoom working 0 = true) ∧ (benchReady working 0 = (5, 1) :: ([])) ∧ (placeFor (advance working 1) 5 1 = some 3072) ∧ (benchAfford (advance working 1) 0 false = []) ∧ (pinnedDue (advance working 1) = false) ∧ (1 < (working.graph 5).nodes.length) := by decide +kernel
theorem wit_NodesRunAndEnd_2 : (working.life.rails = true) ∧ (0 < 8) ∧ (hardThrottle working = false) ∧ (dispatchRoom working 0 = true) ∧ (pinnedDue (advance working 1) = false) ∧ ((benchAfford (advance working 1) 0 true).find? (fun p => (placeFor (advance working 1) p.1 p.2).isSome) = some (5, 1)) ∧ (placeFor (advance working 1) 5 1 = some 3072) ∧ (1 < (working.graph 5).nodes.length) := by decide +kernel
theorem wit_NodesRunAndEnd_3 : (pinnedH.life.rails = true) ∧ (gPinned pinnedH 5 = true) ∧ (gState pinnedH 5 = 2) ∧ (dispatchRoom pinnedH (gBench pinnedH 5) = true) ∧ (pinnedNext (advance pinnedH 1) 5 = some 1) ∧ ((gNode pinnedH 5 1).kind ≠ 0) := by decide +kernel
theorem wit_NodesRunAndEnd_4 : ((pinnedW true).life.rails = true) ∧ (gPinned (pinnedW true) 5 = true) ∧ (gState (pinnedW true) 5 = 2) ∧ (dispatchRoom (pinnedW true) (gBench (pinnedW true) 5) = true) ∧ (pinnedNext (advance (pinnedW true) 1) 5 = some 1) ∧ ((gNode (pinnedW true) 5 1).kind = 0) ∧ (waitsWork (pinnedW true) (placement (pinnedW true) 5 1) = true) := by decide +kernel
theorem wit_NodesRunAndEnd_5 : ((pinnedW false).life.rails = true) ∧ (gPinned (pinnedW false) 5 = true) ∧ (dispatchRoom (pinnedW false) (gBench (pinnedW false) 5) = true) ∧ (pinnedNext (advance (pinnedW false) 1) 5 = some 1) ∧ (gState (pinnedW false) 5 = 2) ∧ ((gNode (pinnedW false) 5 1).kind = 0) ∧ (waitsWork (pinnedW false) (placement (pinnedW false) 5 1) = false) ∧ (5 < 64) := by decide +kernel
theorem wit_NodesRunAndEnd_6 : ((ran false).life.rails = true) ∧ (0 < 8) ∧ (((ran false).hatch (hatchNo 0x0D 0)).front = some ⟨.nodeDone ⟨5, 1, 3072, 0, 0, 0, 9⟩, 0, false⟩) ∧ ((gNode (ran false) 5 1).run = some ((⟨3072, 100⟩ : NodeRun))) ∧ (((⟨3072, 100⟩ : NodeRun)).thread = 3072) := by decide +kernel
theorem wit_NodesRunAndEnd_7 : ((ran true).life.rails = true) ∧ ((gNode (ran true) 5 1).run = some ((⟨3072, 100⟩ : NodeRun))) ∧ (((⟨3072, 100⟩ : NodeRun)).thread ≠ 0xFFFF) ∧ (((ran true).thr ((⟨3072, 100⟩ : NodeRun)).thread).disp = some disp5) ∧ (disp5.d.graph = 5) ∧ (disp5.d.node = 1) ∧ (((⟨3072, 100⟩ : NodeRun)).limitAt < (ran true).up + 200) := by decide +kernel
theorem wit_NodesRunAndEnd_8 : ((windowS 0).life.rails = true) ∧ ((gNode (windowS 0) 5 1).run = some helperRun) ∧ (helperRun.thread = 0xFFFF) ∧ (helperRun.limitAt < (windowS 0).up + 200) := by decide +kernel
theorem wit_NodesRunAndEnd_9 : ((windowS 0).life.rails = true) ∧ ((gNode (windowS 0) 5 1).kind = 3) ∧ ((gNode (windowS 0) 5 1).run = some helperRun) ∧ (helperRun.thread = 0xFFFF) ∧ (0x100000 ≤ (gNode (windowS 0) 5 1).ring) ∧ ((gNode (windowS 0) 5 1).have_ + 1 < bits (gNode (windowS 0) 5 1).arg 21 11) := by decide +kernel
theorem wit_NodesRunAndEnd_10 : ((windowS 1).life.rails = true) ∧ ((gNode (windowS 1) 5 1).kind = 3) ∧ ((gNode (windowS 1) 5 1).run = some helperRun) ∧ (helperRun.thread = 0xFFFF) ∧ (0x100000 ≤ (gEdge (windowS 1) 5 (edgeOut (windowS 1) 5 1 0)).free) ∧ ((gNode (windowS 1) 5 1).have_ + 1 = bits (gNode (windowS 1) 5 1).arg 21 11) := by decide +kernel
theorem wit_NodesRunAndEnd_11 : ((windowS 2).life.rails = true) ∧ ((gNode (windowS 2) 5 1).kind = 3) ∧ ((gNode (windowS 2) 5 1).run = some helperRun) ∧ (helperRun.thread = 0xFFFF) := by decide +kernel
theorem wit_NodesRunAndEnd_12 : ((emitS 3).life.rails = true) ∧ ((gNode (emitS 3) 5 1).kind = 4) ∧ ((gNode (emitS 3) 5 1).run = some helperRun) ∧ (helperRun.thread = 0xFFFF) ∧ ((getToken (emitS 3) 73 0x100000) = getToken (emitS 3) (gIsland (emitS 3) 5) (gEdge (emitS 3) 5 (edgeIn (emitS 3) 5 1 0)).oldest) ∧ (tKind (getToken (emitS 3) 73 0x100000) = 3 ∨ tKind (getToken (emitS 3) 73 0x100000) = 4) ∧ ((emitS 3).clear (hatchNo 0x0E (gBench (emitS 3) 5)) = true) ∧ ((wordsOf (shmBytes (emitS 3) 73 0x102000 32)) = wordsOf (shmBytes (emitS 3) (gIsland (emitS 3) 5) (((emitS 3).graph 5).paramDest + (gNode (emitS 3) 5 1).param) 32)) ∧ (emitMessage (advance (emitS 3) 1) 5 1 (getToken (emitS 3) 73 0x100000) (wordsOf (shmBytes (emitS 3) 73 0x102000 32)) (shmBytes (emitS 3) (gIsland (emitS 3) 5) ((wordsOf (shmBytes (emitS 3) 73 0x102000 32)).getD 1 0) ((wordsOf (shmBytes (emitS 3) 73 0x102000 32)).getD 0 0 / 65536)) = some emitOut) := by decide +kernel
theorem wit_NodesRunAndEnd_13 : ((emitS 1).life.rails = true) ∧ ((gNode (emitS 1) 5 1).kind = 4) ∧ ((gNode (emitS 1) 5 1).run = some helperRun) ∧ (helperRun.thread = 0xFFFF) ∧ (((emitS 1).graph 5).account < 32) ∧ (tKind (getToken (emitS 1) (gIsland (emitS 1) 5) (gEdge (emitS 1) 5 (edgeIn (emitS 1) 5 1 0)).oldest) = 1) ∧ (((emitS 1).reg Reg.wshopEmitDropCnt).toNat < 0xFFFFFFFE) := by decide +kernel
theorem wit_NodesRunAndEnd_14 : (emitBig.life.rails = true) ∧ ((gNode emitBig 5 1).kind = 4) ∧ ((gNode emitBig 5 1).run = some helperRun) ∧ (helperRun.thread = 0xFFFF) ∧ ((getToken emitBig 73 0x100000) = getToken emitBig (gIsland emitBig 5) (gEdge emitBig 5 (edgeIn emitBig 5 1 0)).oldest) ∧ (badKind (tKind (getToken emitBig 73 0x100000)) = false) ∧ ((wordsOf (shmBytes emitBig 73 0x102000 32)) = wordsOf (shmBytes emitBig (gIsland emitBig 5) ((emitBig.graph 5).paramDest + (gNode emitBig 5 1).param) 32)) ∧ (emitMessage (advance emitBig 1) 5 1 (getToken emitBig 73 0x100000) (wordsOf (shmBytes emitBig 73 0x102000 32)) (shmBytes emitBig (gIsland emitBig 5) ((wordsOf (shmBytes emitBig 73 0x102000 32)).getD 1 0) ((wordsOf (shmBytes emitBig 73 0x102000 32)).getD 0 0 / 65536)) = none) := by decide +kernel
theorem wit_GraphCommandsFollowTheirStates_1 : (svc.life.rails = true) ∧ (takes svc 0x0F00 Reg.graphCmd (0x80010005 : Word) = true) ∧ (graphCmdRefused (0x80010005 : Word) svc = false) ∧ (bitOf (0x80010005 : Word) 31 = true) ∧ (fld (0x80010005 : Word) 18 16 = 1) ∧ (gState svc (fld (0x80010005 : Word) 5 0) = 0) := by decide +kernel
theorem wit_GraphCommandsFollowTheirStates_2 : ((loadedG 1 false).life.rails = true) ∧ (takes (loadedG 1 false) 0x0F00 Reg.graphCmd (0x80010005 : Word) = true) ∧ (graphCmdRefused (0x80010005 : Word) (loadedG 1 false) = false) ∧ (bitOf (0x80010005 : Word) 31 = true) ∧ (fld (0x80010005 : Word) 18 16 = 1) ∧ (gState (loadedG 1 false) (fld (0x80010005 : Word) 5 0) ≠ 0) := by decide +kernel
theorem wit_GraphCommandsFollowTheirStates_3 : ((loadS 0x57475231).life.rails = true) ∧ ((loadS 0x57475231).wshop.load = some ((⟨5, 0, 0, 0, 2⟩ : LoadJob))) ∧ (((⟨5, 0, 0, 0, 2⟩ : LoadJob)).graph < 64) ∧ (loadWaits (advance (loadS 0x57475231) 1) ((⟨5, 0, 0, 0, 2⟩ : LoadJob)) = false) ∧ (loadError (advance (loadS 0x57475231) 1) (readImage (advance (loadS 0x57475231) 1) ((⟨5, 0, 0, 0, 2⟩ : LoadJob)) (loadAnswers (advance (loadS 0x57475231) 1) ((⟨5, 0, 0, 0, 2⟩ : LoadJob)))) ((⟨5, 0, 0, 0, 2⟩ : LoadJob)).graph ((⟨5, 0, 0, 0, 2⟩ : LoadJob)).ten ((⟨5, 0, 0, 0, 2⟩ : LoadJob)).ofs (decide ((loadAnswers (advance (loadS 0x57475231) 1) ((⟨5, 0, 0, 0, 2⟩ : LoadJob))).length < ((⟨5, 0, 0, 0, 2⟩ : LoadJob)).refs) || (loadAnswers (advance (loadS 0x57475231) 1) ((⟨5, 0, 0, 0, 2⟩ : LoadJob))).any fun p => p.2.1 != 0) = 0) := by decide +kernel
theorem wit_GraphCommandsFollowTheirStates_4 : ((loadS 1).life.rails = true) ∧ ((loadS 1).wshop.load = some ((⟨5, 0, 0, 0, 2⟩ : LoadJob))) ∧ (((⟨5, 0, 0, 0, 2⟩ : LoadJob)).graph < 64) ∧ (loadWaits (advance (loadS 1) 1) ((⟨5, 0, 0, 0, 2⟩ : LoadJob)) = false) ∧ (loadError (advance (loadS 1) 1) (readImage (advance (loadS 1) 1) ((⟨5, 0, 0, 0, 2⟩ : LoadJob)) (loadAnswers (advance (loadS 1) 1) ((⟨5, 0, 0, 0, 2⟩ : LoadJob)))) ((⟨5, 0, 0, 0, 2⟩ : LoadJob)).graph ((⟨5, 0, 0, 0, 2⟩ : LoadJob)).ten ((⟨5, 0, 0, 0, 2⟩ : LoadJob)).ofs (decide ((loadAnswers (advance (loadS 1) 1) ((⟨5, 0, 0, 0, 2⟩ : LoadJob))).length < ((⟨5, 0, 0, 0, 2⟩ : LoadJob)).refs) || (loadAnswers (advance (loadS 1) 1) ((⟨5, 0, 0, 0, 2⟩ : LoadJob))).any fun p => p.2.1 != 0) ≠ 0) := by decide +kernel
theorem wit_GraphCommandsFollowTheirStates_5 : ((loadedG 1 false).life.rails = true) ∧ (takes (loadedG 1 false) 0x0F00 Reg.graphCmd (0x80020005 : Word) = true) ∧ (graphCmdRefused (0x80020005 : Word) (loadedG 1 false) = false) ∧ (bitOf (0x80020005 : Word) 31 = true) ∧ (fld (0x80020005 : Word) 18 16 = 2) ∧ (gState (loadedG 1 false) (fld (0x80020005 : Word) 5 0) = 1) ∧ (((loadedG 1 false).wshop.graphs.all fun p => decide (p.1 < 64)) = true) ∧ (noThread (loadedG 1 false) (fld (0x80020005 : Word) 5 0) = false) ∧ (tapConflict (loadedG 1 false) (fld (0x80020005 : Word) 5 0) = false) := by decide +kernel
theorem wit_GraphCommandsFollowTheirStates_6 : ((loadedG 1 true).life.rails = true) ∧ (takes (loadedG 1 true) 0x0F00 Reg.graphCmd (0x80020005 : Word) = true) ∧ (graphCmdRefused (0x80020005 : Word) (loadedG 1 true) = false) ∧ (bitOf (0x80020005 : Word) 31 = true) ∧ (fld (0x80020005 : Word) 18 16 = 2) ∧ (gState (loadedG 1 true) (fld (0x80020005 : Word) 5 0) = 1) ∧ (noThread (loadedG 1 true) (fld (0x80020005 : Word) 5 0) = true) := by decide +kernel
theorem wit_GraphCommandsFollowTheirStates_7 : ((loadedG 2 false).life.rails = true) ∧ (takes (loadedG 2 false) 0x0F00 Reg.graphCmd (0x80030005 : Word) = true) ∧ (graphCmdRefused (0x80030005 : Word) (loadedG 2 false) = false) ∧ (bitOf (0x80030005 : Word) 31 = true) ∧ (fld (0x80030005 : Word) 18 16 = 3) ∧ (gState (loadedG 2 false) (fld (0x80030005 : Word) 5 0) = 2 ∨ gState (loadedG 2 false) (fld (0x80030005 : Word) 5 0) = 4) := by decide +kernel
theorem wit_GraphCommandsFollowTheirStates_8 : ((loadedG 3 false).life.rails = true) ∧ (gState (loadedG 3 false) 5 = 3) ∧ ((((loadedG 3 false).graph 5).nodes.all fun x => x.run.isNone) = true) := by decide +kernel
theorem wit_GraphCommandsFollowTheirStates_9 : ((loadedG 1 false).life.rails = true) ∧ (takes (loadedG 1 false) 0x0F00 Reg.graphCmd (0x80040005 : Word) = true) ∧ (graphCmdRefused (0x80040005 : Word) (loadedG 1 false) = false) ∧ (bitOf (0x80040005 : Word) 31 = true) ∧ (fld (0x80040005 : Word) 18 16 = 4) ∧ (gState (loadedG 1 false) (fld (0x80040005 : Word) 5 0) = 1) := by decide +kernel
theorem wit_GraphCommandsFollowTheirStates_10 : ((loadedG 2 false).life.rails = true) ∧ (takes (loadedG 2 false) 0x0F00 Reg.graphCmd (0x80040005 : Word) = true) ∧ (graphCmdRefused (0x80040005 : Word) (loadedG 2 false) = false) ∧ (bitOf (0x80040005 : Word) 31 = true) ∧ (fld (0x80040005 : Word) 18 16 = 4) ∧ (gState (loadedG 2 false) (fld (0x80040005 : Word) 5 0) ≠ 1) := by decide +kernel

/-! ### dram -/

/-- DRAM ready and filled; a request of the Hall's island 81; a queue of one request. -/
def dramUp : State := svc.setRf Reg.dramStat 30 29 3
def dreq (wr : Bool) (line : Nat) : DramReq := ⟨2, 81, 7, 3584, 1, wr, line, 0, if wr then [1, 2, 3, 4] else [], false⟩
def dHatch (wr : Bool) (s : State) : State := s.setHatch (hatchNo 0x0F 81) { (default : Hatch) with gFifo := [⟨.dramReq (dreq wr 5), 0, false⟩] }
def dWait (wr : Bool) : DramWait := ⟨dreq wr 5, 0⟩
def dQueue (wr : Bool) : State := dramUp.withDram fun d => { d with queue := [dWait wr] }
def dMigN (p : Nat) : State := (((dramUp.setRf (Reg.chStat 1) 31 30 3).setRf Reg.spareCfg 7 0 255).withDram fun d => { d with migCopied := [(1, p)], migRate := [(1, (0, p))] })
def dMig : State := dMigN rankLines
def dMigDue : State := (dMigN 7).withDram fun d => { d with migRate := [(1, (0, rankLines))] }
def dMig1 : State := dMig.setRf (Reg.chStat 1) 26 25 1
def dRefused : State := dramUp.setReg Reg.refCfg 1
def recOn (c : Nat) : State := (((dramUp.setReg Reg.recCfg (BitVec.ofNat 32 c)).setReg Reg.recSize 1).setRf Reg.recWptr 26 0 16383).withDram fun d => { d with recQ := [[1, 2], [3]] }
theorem wit_DramServesRequests_1 : ((dHatch false dramUp).life.rails = true) ∧ (81 ≠ 3) ∧ (81 ≠ 4) ∧ (hatchExists (hatchNo 0x0F 81) = true) ∧ (((dHatch false dramUp).hatch (hatchNo 0x0F 81)).front = some ⟨.dramReq (dreq false 5), 0, false⟩) ∧ ((dHatch false dramUp).dramReady = true) ∧ ((dreq false 5).wr = false) := by decide +kernel
theorem wit_DramServesRequests_2 : ((dHatch true dramUp).life.rails = true) ∧ (81 ≠ 3) ∧ (81 ≠ 4) ∧ (hatchExists (hatchNo 0x0F 81) = true) ∧ (((dHatch true dramUp).hatch (hatchNo 0x0F 81)).front = some ⟨.dramReq (dreq true 5), 0, false⟩) ∧ ((dHatch true dramUp).dramReady = true) ∧ ((dreq true 5).wr = true) ∧ (hasRoom (dHatch true dramUp) (dreq true 5) = true) := by decide +kernel
theorem wit_DramServesRequests_3 : ((dHatch false svc).life.rails = true) ∧ (81 ≠ 3) ∧ (81 ≠ 4) ∧ (hatchExists (hatchNo 0x0F 81) = true) ∧ (((dHatch false svc).hatch (hatchNo 0x0F 81)).front = some ⟨.dramReq (dreq false 5), 0, false⟩) ∧ ((dHatch false svc).dramReady = false) ∧ ((dreq false 5).src = 81) := by decide +kernel
theorem wit_DramServesRequests_4 : ((dramUp.withEvt fun e => { e with logQ := [(64, [1, 2])] }).life.rails = true) ∧ ((dramUp.withEvt fun e => { e with logQ := [(64, [1, 2])] }).dramReady = true) ∧ ((dramUp.withEvt fun e => { e with logQ := [(64, [1, 2])] }).evt.logQ = (64, ([1, 2])) :: ([])) ∧ ((ringWrites (dramUp.withEvt fun e => { e with logQ := [(64, [1, 2])] }) 3 64 ([1, 2])).all (hasRoom (dramUp.withEvt fun e => { e with logQ := [(64, [1, 2])] })) = true) := by decide +kernel
theorem wit_DramServesRequests_5 : ((dramUp.withEvt fun e => { e with trcQ := [(64, [1, 2])] }).life.rails = true) ∧ ((dramUp.withEvt fun e => { e with trcQ := [(64, [1, 2])] }).dramReady = true) ∧ ((dramUp.withEvt fun e => { e with trcQ := [(64, [1, 2])] }).evt.trcQ = (64, ([1, 2])) :: ([])) ∧ ((ringWrites (dramUp.withEvt fun e => { e with trcQ := [(64, [1, 2])] }) 4 64 ([1, 2])).all (hasRoom (dramUp.withEvt fun e => { e with trcQ := [(64, [1, 2])] })) = true) := by decide +kernel
theorem wit_DramServesRequests_6 : ((dQueue true).life.rails = true) ∧ ((dQueue true).dramReady = true) ∧ (1 < 4) ∧ (copyNext (serveForced (advance (dQueue true) 1) 1) 1 = false) ∧ (nextRequest (serveForced (advance (dQueue true) 1) 1) 1 = some 0) ∧ ((dQueue true).dram.queue[0]? = some (dWait true)) ∧ ((dWait true).r.wr = true) := by decide +kernel
theorem wit_DramServesRequests_7 : ((dQueue false).life.rails = true) ∧ ((dQueue false).dramReady = true) ∧ (1 < 4) ∧ (copyNext (serveForced (advance (dQueue false) 1) 1) 1 = false) ∧ (nextRequest (serveForced (advance (dQueue false) 1) 1) 1 = some 0) ∧ ((dQueue false).dram.queue[0]? = some (dWait false)) ∧ ((dWait false).r.wr = false) ∧ ((dWait false).r.src < 84) ∧ ((((dQueue false).dram.queue.take 0).any fun o => o.r.line == (dWait false).r.line && o.r.wr) = false) ∧ ((dQueue false).dram.poison.contains (dWait false).r.line = false) := by decide +kernel
theorem wit_DramServesRequests_8 : (((dQueue false).withDram fun d => { d with poison := [5] }).life.rails = true) ∧ (((dQueue false).withDram fun d => { d with poison := [5] }).dramReady = true) ∧ (1 < 4) ∧ (copyNext (serveForced (advance ((dQueue false).withDram fun d => { d with poison := [5] }) 1) 1) 1 = false) ∧ (nextRequest (serveForced (advance ((dQueue false).withDram fun d => { d with poison := [5] }) 1) 1) 1 = some 0) ∧ (((dQueue false).withDram fun d => { d with poison := [5] }).dram.queue[0]? = some (dWait false)) ∧ ((dWait false).r.wr = false) ∧ ((dWait false).r.src < 84) ∧ (((((dQueue false).withDram fun d => { d with poison := [5] }).dram.queue.take 0).any fun o => o.r.line == (dWait false).r.line && o.r.wr) = false) ∧ (((dQueue false).withDram fun d => { d with poison := [5] }).dram.poison.contains (dWait false).r.line = true) := by decide +kernel
theorem wit_DramServesRequests_9 : ((dQueue false).life.rails = true) ∧ ((dQueue false).dramReady = true) ∧ (1 < 4) ∧ (copyNext (serveForced (advance (dQueue false) 1) 1) 1 = false) ∧ (nextRequest (serveForced (advance (dQueue false) 1) 1) 1 = some 0) ∧ ((dQueue false).dram.queue[0]? = some (dWait false)) ∧ ((dWait false).r.wr = false) ∧ (lineFilled (dQueue false) (dWait false).r.line = true) ∧ ((((dQueue false).dram.queue.take 0).any fun o => o.r.line == (dWait false).r.line && o.r.wr) = false) := by decide +kernel
theorem wit_DramServesRequests_10 : ((dQueue true).life.rails = true) ∧ ((dQueue true).dramReady = true) ∧ (1 < 4) ∧ (copyNext (serveForced (advance (dQueue true) 1) 1) 1 = false) ∧ (nextRequest (serveForced (advance (dQueue true) 1) 1) 1 = some 0) ∧ ((dQueue true).dram.queue[0]? = some (dWait true)) ∧ ((dWait true).r.wr = true) ∧ (spareUsed (dQueue true) (lineChan (dWait true).r.line) = false) := by decide +kernel
theorem wit_DramServesRequests_11 : ((dQueue false).life.rails = true) ∧ ((dQueue false).dramReady = true) ∧ (1 < 4) ∧ (copyNext (serveForced (advance (dQueue false) 1) 1) 1 = false) ∧ (nextRequest (serveForced (advance (dQueue false) 1) 1) 1 = some 0) ∧ ((dQueue false).dram.queue[0]? = some (dWait false)) ∧ ((dWait false).r.wr = false) ∧ ((dWait false).r.src < 84) ∧ ((dramAfter (dQueue false).dram (writesBefore ((dQueue false).dram.queue.take 0) (dWait false).r.line)).poison.contains (dWait false).r.line = false) := by decide +kernel
theorem wit_DramServesRequests_12 : ((dMigN 7).life.rails = true) ∧ ((dMigN 7).dramReady = true) ∧ (1 < 4) ∧ (copyNext (serveForced (advance (dMigN 7) (1000 * nsUnit)) 1) 1 = true) := by decide +kernel
theorem wit_DramServesRequests_13 : ((svc.setRf Reg.dramStat 30 29 2).life.rails = true) ∧ ((svc.setRf Reg.dramStat 30 29 2).dramReady = true) ∧ (1 < 4) ∧ (copyNext (serveForced (advance (svc.setRf Reg.dramStat 30 29 2) 1) 1) 1 = false) ∧ (nextRequest (serveForced (advance (svc.setRf Reg.dramStat 30 29 2) 1) 1) 1 = none) ∧ ((svc.setRf Reg.dramStat 30 29 2).rb Reg.dramStat 29 = false) := by decide +kernel
theorem wit_DramRanksAreServedAndSpared_1 : (dramUp.life.rails = true) ∧ (dramUp.dramReady = true) ∧ (1 < 4) ∧ (0 < 3) ∧ (rankActive dramUp 1 0 = true) ∧ (serviceDue (advance dramUp (4000 * nsUnit)) 0 (rankNo 1 0) (refreshInterval dramUp (rankNo 1 0)) = true) ∧ (channelUrgent (advance dramUp (4000 * nsUnit)) 1 = false) := by decide +kernel
theorem wit_DramRanksAreServedAndSpared_2 : ((dQueue false).life.rails = true) ∧ ((dQueue false).dramReady = true) ∧ (1 < 4) ∧ (0 < 3) ∧ (rankActive (dQueue false) 1 0 = true) ∧ (serviceDue (advance (dQueue false) (1000000 * nsUnit)) 0 (rankNo 1 0) (refreshInterval (dQueue false) (rankNo 1 0)) = true) ∧ (channelUrgent (advance (dQueue false) (1000000 * nsUnit)) 1 = true) ∧ (mapGet 0 (dQueue false).dram.postponed (rankNo 1 0) < 4) := by decide +kernel
theorem wit_DramRanksAreServedAndSpared_3 : (dramUp.life.rails = true) ∧ (dramUp.dramReady = true) ∧ (1 < 4) ∧ (0 < 3) ∧ (rankServed dramUp 1 0 = true) ∧ (serviceDue (advance dramUp (1000000 * nsUnit)) 1 (rankNo 1 0) (1000000 * nsUnit) = true) ∧ (95 < 96) ∧ (dramUp.dram.hot.contains (rankNo 1 0) = false) := by decide +kernel
theorem wit_DramRanksAreServedAndSpared_4 : (dramUp.life.rails = true) ∧ (dramUp.dramReady = true) ∧ (1 < 4) ∧ (0 < 3) ∧ (rankServed dramUp 1 0 = true) ∧ (serviceDue (advance dramUp (1000000 * nsUnit)) 1 (rankNo 1 0) (1000000 * nsUnit) = true) ∧ (95 ≤ 95) := by decide +kernel
theorem wit_DramRanksAreServedAndSpared_5 : (dramUp.life.rails = true) ∧ (dramUp.dramReady = true) ∧ (1 < 4) ∧ (0 < 3) ∧ (rankServed dramUp 1 0 = true) ∧ (serviceDue (advance dramUp (128000000 * nsUnit)) 2 (rankNo 1 0) (128000000 * nsUnit) = true) := by decide +kernel
theorem wit_DramRanksAreServedAndSpared_6 : (dramUp.life.rails = true) ∧ (dramUp.dramReady = true) ∧ (1 < 4) ∧ (0 < 3) ∧ (rankServed dramUp 1 0 = true) ∧ (serviceDue (advance dramUp (100000000 * nsUnit)) 3 (rankNo 1 0) (100000000 * nsUnit) = true) := by decide +kernel
theorem wit_DramRanksAreServedAndSpared_7 : (dRefused.life.rails = true) ∧ (dRefused.dramReady = true) ∧ (1 < 4) ∧ (0 < 2) ∧ (dRefused.rf Reg.refCfg 7 0 ≠ 0) ∧ (max (mapGet 0 dRefused.dram.patrolAt (1 * 2 + 0)) dRefused.dram.readyAt + scrubStep dRefused ≤ dRefused.up + (3600 * secUnit)) := by decide +kernel
theorem wit_DramRanksAreServedAndSpared_8 : (svc.life.rails = true) ∧ (svc.dram.trained = false) := by decide +kernel
theorem wit_DramRanksAreServedAndSpared_9 : (svc.life.rails = true) ∧ (svc.dram.trained = false) ∧ (1 < 4) := by decide +kernel
theorem wit_DramRanksAreServedAndSpared_10 : (svc.life.rails = true) ∧ (svc.dram.trained = false) ∧ (1 < 4) := by decide +kernel
theorem wit_DramRanksAreServedAndSpared_11 : (svc.life.rails = true) ∧ (svc.dram.trained = false) ∧ ((∀ ch < 4, ([0, 1, 2].filter fun p => ([0, 5]).contains (rankNo ch p)).length < 2)) := by decide +kernel
theorem wit_DramRanksAreServedAndSpared_12 : (svc.life.rails = true) ∧ (svc.dram.trained = false) ∧ (1 < 4) ∧ (2 ≤ ([0, 1, 2].filter fun p => ([3, 5]).contains (rankNo 1 p)).length) := by decide +kernel
theorem wit_DramRanksAreServedAndSpared_13 : ((svc.setRf Reg.dramStat 30 30 1).life.rails = true) ∧ ((svc.setRf Reg.dramStat 30 30 1).dramReady = true) ∧ ((svc.setRf Reg.dramStat 30 30 1).rb Reg.dramStat 29 = false) := by decide +kernel
theorem wit_DramRanksAreServedAndSpared_14 : (dramUp.life.rails = true) ∧ (takes dramUp 0x0F00 Reg.rankCtl (0x80000004 : Word) = true) ∧ (bitOf (0x80000004 : Word) 31 = true) ∧ (rankCtlRefused (0x80000004 : Word) dramUp = false) := by decide +kernel
theorem wit_DramRanksAreServedAndSpared_15 : (dMig.life.rails = true) ∧ (1 < 4) ∧ (migrating dMig 1 = true) ∧ (migPtr dMig 1 = rankLines) ∧ (mapOf dMig 1 0 = retiredOf dMig 1) := by decide +kernel
theorem wit_DramRanksAreServedAndSpared_16 : (dMig1.life.rails = true) ∧ (1 < 4) ∧ (migrating dMig1 1 = true) ∧ (migPtr dMig1 1 = rankLines) ∧ (mapOf dMig1 1 0 ≠ retiredOf dMig1 1) := by decide +kernel
theorem wit_DramRanksAreServedAndSpared_17 : (dMigDue.life.rails = true) ∧ (1 < 4) ∧ (migrating dMigDue 1 = true) ∧ (migDue (advance dMigDue 1) 1 = rankLines) := by decide +kernel
theorem wit_DramRanksAreServedAndSpared_18 : (dMigDue.life.rails = true) ∧ (1 < 4) ∧ (migrating dMigDue 1 = true) ∧ (migDue (advance dMigDue 1) 1 = rankLines) ∧ (migPtr dMigDue 1 ≤ (rankLines - 1)) ∧ ((rankLines - 1) < rankLines) ∧ (lineFilled dMigDue (lineAt 1 (migRank dMigDue 1) (rankLines - 1)) = true) := by decide +kernel
theorem wit_RecorderWritesTriggersAndFreezes_1 : ((recOn 0x80000000).life.rails = true) ∧ ((recOn 0x80000000).dramReady = true) ∧ ((recOn 0x80000000).rb Reg.recCfg 31 = true) ∧ ((recOn 0x80000000).rb Reg.recCfg 28 = false) ∧ ((recOn 0x80000000).dram.recQ = ([1, 2]) :: ([[3]])) ∧ (0 < recSlots (recOn 0x80000000)) ∧ ((ringWrites (recOn 0x80000000) 5 (recAddr (recOn 0x80000000) ((recOn 0x80000000).rf Reg.recWptr 26 0 % recSlots (recOn 0x80000000))) (wordBytes ([1, 2]))).all (hasRoom (recOn 0x80000000)) = true) := by decide +kernel
theorem wit_RecorderWritesTriggersAndFreezes_2 : ((recOn 0x80000000).life.rails = true) ∧ (takes (recOn 0x80000000) 0x0F00 Reg.recCfg (0xC0000000 : Word) = true) ∧ (bitOf (0xC0000000 : Word) 30 = true) ∧ (bitOf (0xC0000000 : Word) 31 = true) ∧ (bitOf (0xC0000000 : Word) 29 = false) ∧ (recCfgRefused (0xC0000000 : Word) (recOn 0x80000000) = false) := by decide +kernel
theorem wit_RecorderWritesTriggersAndFreezes_3 : ((recOn 0x88000000).life.rails = true) ∧ (takes (recOn 0x88000000) 0x0F00 Reg.recCfg (0xC0000000 : Word) = true) ∧ (bitOf (0xC0000000 : Word) 30 = true) ∧ (recCfgRefused (0xC0000000 : Word) (recOn 0x88000000) = true) := by decide +kernel
theorem wit_RecorderWritesTriggersAndFreezes_4 : ((recOn 0x90000000).life.rails = true) ∧ (takes (recOn 0x90000000) 0x0F00 Reg.recCfg (0xA0000000 : Word) = true) ∧ (bitOf (0xA0000000 : Word) 30 = false) ∧ (bitOf (0xA0000000 : Word) 29 = true) := by decide +kernel
theorem wit_RecorderWritesTriggersAndFreezes_5 : ((recOn 0x88000001).life.rails = true) ∧ ((recOn 0x88000001).rb Reg.recCfg 27 = true) ∧ ((recOn 0x88000001).dram.trigAt + (recOn 0x88000001).rf Reg.recCfg 15 0 * 1000000 * nsUnit ≤ (recOn 0x88000001).up + (1000000 * nsUnit)) := by decide +kernel

/-! ### ledger -/

def meterS (e : Nat) : State := (svc.withLedg fun l => { l with reports := [(3, [4, 6])] }).setHatch (hatchNo 0x13 3) { (default : Hatch) with gFifo := [⟨.meter ⟨3, e, 0⟩, 0, false⟩] }
def tickS : State := svc.withLedg fun l => { l with energy := [(2, 77)] }
def hotAll : List (Option Int) := List.replicate 24 (some 120)
def drains (e : Nat) (w : Bool) : State :=
  let s := (svc.setReg (thrCfgR (e * 16)) 0x80000100).withLedg fun l => { l with draining := [(e, (5, true))] }
  if w then (s.setThrState (e * 16) 2).withThr (e * 16) fun x => { x with waitMask := 1 } else s.setThrState (e * 16) 1
def parkedS (e : Nat) : State :=
  (((svc.setRf (engStatR e) 26 26 1).setThrState (e * 16) 5).withThr (e * 16) fun x => { x with former := 2 }).withLedg fun l => { l with unparking := [e], hostHeld := [e] }
theorem wit_LedgerReportsAndTicks_1 : ((meterS 0).life.rails = true) ∧ (hatchExists (hatchNo 0x13 3) = true) ∧ (((meterS 0).hatch (hatchNo 0x13 3)).front = some ⟨.meter ((⟨3, 0, 0⟩ : MeterRep)), 0, false⟩) ∧ (((⟨3, 0, 0⟩ : MeterRep)).energy < 2 ^ 31) ∧ (((⟨3, 0, 0⟩ : MeterRep)).energy ≤ Config.railRating 3) := ⟨by decide +kernel, by decide +kernel, by decide +kernel, by decide +kernel, Nat.zero_le _⟩
theorem wit_LedgerReportsAndTicks_2 : ((meterS 0x80000001).life.rails = true) ∧ (hatchExists (hatchNo 0x13 3) = true) ∧ (((meterS 0x80000001).hatch (hatchNo 0x13 3)).front = some ⟨.meter ((⟨3, 0x80000001, 0⟩ : MeterRep)), 0, false⟩) ∧ (2 ^ 31 ≤ ((⟨3, 0x80000001, 0⟩ : MeterRep)).energy % 2 ^ 32 ∨ Config.railRating 3 < ((⟨3, 0x80000001, 0⟩ : MeterRep)).energy) := by decide +kernel
theorem wit_LedgerReportsAndTicks_3 : (tickS.life.rails = true) ∧ ((advance tickS (9000 * nsUnit)).now / tickLen ≠ tickS.ledg.tickAt) ∧ ((tickS.ledg.nodes.all fun n => decide (n.1 < 32)) = true) := by decide +kernel
theorem wit_LedgerReportsAndTicks_4 : (4 ≤ 5) ∧ (5 ≤ 9) ∧ (false = false) := by decide +kernel
theorem wit_LedgerReportsAndTicks_5 : ((svc.withLedg fun l => { l with freqs := [(2, 7)] }).life.rails = true) ∧ (((svc.withLedg fun l => { l with freqs := [(2, 7)] }).ledg.freqs.find? fun p => p.1 == 2) = some (2, 7)) ∧ (7 < 32) := by decide +kernel
theorem wit_EnginesParkAndUnpark_1 : ((drains 3 true).life.rails = true) ∧ (3 < 224) ∧ (((drains 3 true).ledg.draining.find? fun p => p.1 == 3) = some (3, 5, true)) ∧ (drained (advance (drains 3 true) 1) 3 = true) ∧ (engFailed (drains 3 true) 3 = false) ∧ ((drains 3 true).up + 1 ≤ 5 + 20000 * nsUnit) := by decide +kernel
theorem wit_EnginesParkAndUnpark_2 : ((drains 3 false).life.rails = true) ∧ (((drains 3 false).ledg.draining.find? fun p => p.1 == 3) = some (3, 5, true)) ∧ ((drained (advance (drains 3 false) (20000 * nsUnit + 9)) 3 = false ∧ 5 + 20000 * nsUnit ≤ (drains 3 false).up + (20000 * nsUnit + 9)) ∨ 5 + 20000 * nsUnit < (drains 3 false).up + (20000 * nsUnit + 9)) := by decide +kernel
theorem wit_EnginesParkAndUnpark_3 : ((parkedS 3).life.rails = true) ∧ (3 < 224) ∧ ((parkedS 3).ledg.unparking.contains 3 = true) ∧ (engFailed (parkedS 3) 3 = false) := by decide +kernel
theorem wit_EnginesParkAndUnpark_4 : (svc.life.rails = true) ∧ (takes svc 0x0F00 Reg.ledgPark (0x80010003 : Word) = true) ∧ (bitOf (0x80010003 : Word) 31 = true) ∧ (fld (0x80010003 : Word) 17 16 = 1) ∧ (parkable svc (fld (0x80010003 : Word) 7 0) = true) := by decide +kernel
theorem wit_EnginesParkAndUnpark_5 : ((parkedS 3).life.rails = true) ∧ (takes (parkedS 3) 0x0F00 Reg.ledgPark (0x80010003 : Word) = true) ∧ (bitOf (0x80010003 : Word) 31 = true) ∧ (fld (0x80010003 : Word) 17 16 = 1) ∧ (parkable (parkedS 3) (fld (0x80010003 : Word) 7 0) = false) := by decide +kernel
theorem wit_EnginesParkAndUnpark_6 : (((parkedS 3).withLedg fun l => { l with unparking := [] }).life.rails = true) ∧ (takes ((parkedS 3).withLedg fun l => { l with unparking := [] }) 0x0F00 Reg.ledgPark (0x80020003 : Word) = true) ∧ (bitOf (0x80020003 : Word) 31 = true) ∧ (fld (0x80020003 : Word) 17 16 = 2) ∧ (fld (0x80020003 : Word) 7 0 < 224) ∧ (engParked ((parkedS 3).withLedg fun l => { l with unparking := [] }) (fld (0x80020003 : Word) 7 0) = true) ∧ (engFailed ((parkedS 3).withLedg fun l => { l with unparking := [] }) (fld (0x80020003 : Word) 7 0) = false) ∧ (((parkedS 3).withLedg fun l => { l with unparking := [] }).ledg.unparking.contains (fld (0x80020003 : Word) 7 0) = false) := by decide +kernel
theorem wit_EnginesParkAndUnpark_7 : ((drains 3 true).life.rails = true) ∧ (takes (drains 3 true) 0x0F00 Reg.ledgPark (0x80020003 : Word) = true) ∧ (bitOf (0x80020003 : Word) 31 = true) ∧ (fld (0x80020003 : Word) 17 16 = 2) ∧ (fld (0x80020003 : Word) 7 0 < 224) ∧ (engParked (drains 3 true) (fld (0x80020003 : Word) 7 0) = false) := by decide +kernel
theorem wit_EnginesParkAndUnpark_8 : ((parkedS 3).life.rails = true) ∧ (takes (parkedS 3) 0x0F00 Reg.ledgPark (0x80030003 : Word) = true) ∧ (bitOf (0x80030003 : Word) 31 = true) ∧ (fld (0x80030003 : Word) 17 16 = 3) ∧ (fld (0x80030003 : Word) 7 0 < 224) := by decide +kernel

/-! ### links -/

/-- Link 3 in a state; with a parcel in its replay buffer; with an alarm waiting. -/
def lnk (st : Nat) : State := svc.setRf (Reg.linkStat 3) 31 29 st
/-- A parcel as a peer sends it: type, SEQ, the words that name its frame, and its payload. -/
def par (typ seq dst rph hops : Nat) (p : List Byte) : List Byte := parcelOf svc 3 ⟨dst, 9, typ, 0, 0, false, seq, 0, rph, 0, hops⟩ p
def hzero28 : List Byte := List.replicate 28 0
/-- A parcel with a given ACK. -/
def parAck (typ a : Nat) : List Byte := let s := svc.withLink 3 fun l => { l with exp := a + 1 }; parcelOf s 3 ⟨0, 9, typ, 0, 0, false, 0, 0, 0, 0, 0⟩ []
def badPar : List Byte := (par 1 0 0 32 0 head64).map (· + 1)
def hello (sys m : Nat) : List Byte := par 9 0 0 0 0 (beBytes 4 sys ++ beBytes 2 m ++ beBytes 2 16)
def sent0 : Sent := ⟨0, par 1 0 0 32 0 head64, 0, 0⟩
def lnkSent (n : Nat) : State := ((lnk 4).withLink 3 fun l => { l with unacked := [sent0], next := 1 }).setRf (Reg.linkStat 3) 16 13 n
def lnkAck : State := (lnk 4).withLink 3 fun l => { l with ackDue := some 0 }
def lnkLane (st : Nat) : State := (lnk st).setReg (Reg.laneCfg 7) (BitVec.ofNat 32 (6 + 0x10000 + 3 * 0x80000))
def lnkRef : State := (lnkLane 1).setRf (Reg.laneStat 7) 7 7 1
def lnkPh (cut : Bool) : State :=
  let e := setEf (setEf (modAt (List.replicate 16 0) 0 fun _ => 9) 1 13 0 64) 3 28 28 0
  let e := if cut then setEf e 11 16 16 1 else e
  let s := (lnk 4).setFrame 9 { (default : Frame) with cells := [9], bytes := whole64, refs := 1, ended := if cut then 2 else 1 }
  ({ s with depot := { s.depot with ph := [(4120, [e])] } }).setRf (Reg.linkCfg 3) 29 16 9212
def phE (cut : Bool) : Env := (phOf (lnkPh cut) 4120).headD []
/-- A link in LEAVING with an envelope that was queued when it entered it; and one on which a class 7 parcel fails the seal. -/
def phM : Env := phE false ++ [2]
def lnkLeaving : State := { (lnkPh false).setRf (Reg.linkStat 3) 31 29 6 with depot := { (lnkPh false).depot with ph := [(4120, [phM])] } }
def xsealS : State := (lnk 4).setRf (Reg.linkCfg 3) 31 31 1
def xsealP : List Byte := parcelOf svc 3 ⟨0, 9, 1, 7, 0, false, 0, 9, 32, 0, 0⟩ head64
def lnkTime : State := (lnk 4).withLink 3 fun l => { l with timesSent := [(7, 100)], timeRx := some (4, 900) }
def timePar : List Byte := par 7 0 0 0 0 (pmBytes 500 ++ pmBytes 400 ++ beBytes 4 7 ++ beBytes 4 5)
def al0 : Alarm := { mkAlarm svc 0x0502 82 1 2 0 0 with sev := 1 }
def alPar : List Byte := par 8 0 0 0 0 ((alarmWords al0).flatMap fun w => beBytes 4 w.toNat)
def alGot : Alarm := { alarmOf ((List.range 8).map fun j => beNat (slice alPar (16 + 4 * j) 4)) with fwd := true }
def lnkAlarm : State := (lnk 4).withLink 3 fun l => { l with alarms := [al0] }
def lnkSeal : State := (lnk 4).withCour fun c => { c with seal_ := List.replicate 32 5 }
def xmodS : State := let s := svc.setRf Reg.epochStatus 18 16 1; { s with epoch := { s.epoch with xmod := true } }
/-- Link 3 on lane 7 under MACsec, with one key for both directions; a parcel as it receives it; and what it opens. -/
def sec : State :=
  let s := ((lnkLane 4).setReg (pReg Reg.portMacsecCfg 28) 0x92000000).setPort 28 { svc.port 28 with sas := [(0, [0x80000005, 0, 0, 0, 1]), (2, [0x80000005, 0, 0, 0, 1])] }
  { s with keySlots := [(5, { (default : KSlot) with typ := 1, data := List.replicate 16 7 })] }
def secB : List Byte := (secureParcel sec 3 (par 1 0 0 32 0 head64)).2.getD []
def secQ : List Byte := (openParcel (advance sec 1) 3 secB).2.getD []
def secTime : List Byte := parcelOf sec 3 (ctlInfo sec 3 7 0) (pmBytes 0 ++ pmBytes 0 ++ beBytes 4 0 ++ beBytes 4 ((sec.link 3).timeNo + 1))
def secW : List Byte := (secureParcel (advance sec (1000000 * nsUnit)) 3 secTime).2.getD []
theorem pairOk {α β : Type} (x : α × β) (b : β) (h : x.2 = b) : x = (x.1, b) := by cases x; cases h; rfl
/-- A protected parcel opens to the parcel that was sent, and not when a byte of it changes. -/
theorem test_courier_macsec : secQ = par 1 0 0 32 0 head64 ∧ secB.length = 104 ∧ (openParcel (advance sec 1) 3 (modAt secB 30 (· + 1))).2 = none := by decide +kernel
/-- Group 2 with ways on links 3 and 4, both UP; a bucket of it moving. -/
def grp (mv : List BucketMove) (ld : NMap Nat) : State :=
  (((lnk 4).setRf (Reg.linkStat 4) 31 29 4).withGroup 2 fun x => { x with ways := [131, 132, 0, 0, 0, 0, 0, 0], buckets := List.replicate 256 0, moves := mv, bytes := ld, monAt := 0 })
def mv9 (c : Option Nat) : BucketMove := ⟨9, 0, 1, 0, c, []⟩
theorem wit_LinksComeUpAndFail_1 : (lnkRef.dataPath = true) ∧ (3 < 32) ∧ (linkState lnkRef 3 = 1) ∧ ((linkLane lnkRef 3).any (fun l => lnkRef.rb (Reg.laneStat l) 7) = true) ∧ ((lnkRef.link 3).since + 1000000 * nsUnit ≤ lnkRef.up + (1000000 * nsUnit)) := by decide +kernel
theorem wit_LinksComeUpAndFail_2 : ((lnk 2).dataPath = true) ∧ (3 < 32) ∧ (linkState (lnk 2) 3 = 2) ∧ (linkSecured (lnk 2) 3 = false) ∧ ((((lnk 2).link 3).helloAt = 0 ∨ ((lnk 2).link 3).helloAt + 100000 * nsUnit ≤ (lnk 2).up + 1)) := by decide +kernel
theorem wit_LinksComeUpAndFail_3 : ((lnk 2).dataPath = true) ∧ (3 < 32) ∧ (linkState (lnk 2) 3 = 2) ∧ (pGood (hello 0 5) = true) ∧ (linkSecured (lnk 2) 3 = false) ∧ (pReserved (hello 0 5) = false) ∧ (pType (hello 0 5) = 9) ∧ (beNat (slice (hello 0 5) 16 4) = ((lnk 2).reg Reg.courSystem).toNat) ∧ (beNat (slice (hello 0 5) 20 2) % 1024 ≠ ownModule (lnk 2)) := by decide +kernel
theorem wit_LinksComeUpAndFail_4 : ((lnk 2).dataPath = true) ∧ (3 < 32) ∧ (linkState (lnk 2) 3 = 2) ∧ (pGood (hello 1 5) = true) ∧ (linkSecured (lnk 2) 3 = false) ∧ (pReserved (hello 1 5) = false) ∧ (pType (hello 1 5) = 9) ∧ (beNat (slice (hello 1 5) 16 4) ≠ ((lnk 2).reg Reg.courSystem).toNat) := by decide +kernel
theorem wit_LinksComeUpAndFail_5 : (receives (lnk 3) 3 (par 4 0 0 0 0 (hzero28)) 4 = true) ∧ (inOrder (lnk 3) 3 (par 4 0 0 0 0 (hzero28)) = true) ∧ (linkState (lnk 3) 3 = 3) ∧ ((beNat (slice (pPayload (par 4 0 0 0 0 (hzero28))) 2 1)).testBit 2 = false) := by decide +kernel
theorem wit_LinksComeUpAndFail_6 : ((lnk 4).dataPath = true) ∧ (3 < 32) ∧ (openStates.contains (linkState (lnk 4) 3) = true) ∧ ((((lnk 4).link 3).hbSentAt = 0 ∨ ((lnk 4).link 3).hbSentAt + 1000000 * nsUnit ≤ (lnk 4).up + 1)) ∧ (linkSecured (lnk 4) 3 = false) ∧ (canSend (lnk 4) 3 0 48 = true) := by decide +kernel
theorem wit_LinksComeUpAndFail_7 : ((lnkSent 0).life.rails = true) ∧ (3 < 32) ∧ (linkState (lnkSent 0) 3 = 3 ∨ linkState (lnkSent 0) 3 = 4) := by decide +kernel
theorem wit_LinksComeUpAndFail_8 : ((lnk 6).life.rails = true) ∧ (3 < 32) ∧ (linkState (lnk 6) 3 = 6) := by decide +kernel
theorem wit_LinksComeUpAndFail_9 : ((lnkSent 0).dataPath = true) ∧ (3 < 32) ∧ (openStates.contains (linkState (lnkSent 0) 3) = true) ∧ (((lnkSent 0).link 3).hbAt + 3000000 * nsUnit ≤ (lnkSent 0).up + (3000000 * nsUnit)) := by decide +kernel
theorem wit_LinksComeUpAndFail_10 : ((lnkLane 5).dataPath = true) ∧ (3 < 32) ∧ (linkCarried (lnkLane 5) 3 = true) ∧ (linkState (lnkLane 5) 3 = 5) ∧ (((lnkLane 5).link 3).since + 10000000 * nsUnit ≤ (lnkLane 5).up + (10000000 * nsUnit)) := by decide +kernel
theorem wit_LinksComeUpAndFail_11 : (receives (lnkSent 2) 3 (parAck 2 0) 2 = true) ∧ (((lnkSent 2).link 3).unacked = sent0 :: ([])) ∧ (((lnkSent 2).link 3).ctl = []) ∧ ((pAck (parAck 2 0) + 4096 - sent0.seq) % 4096 < ((lnkSent 2).link 3).unacked.length) := by decide +kernel
theorem wit_LinksComeUpAndFail_12 : (receives (lnkSent 2) 3 (par 3 0 0 0 0 []) 3 = true) ∧ (((lnkSent 2).link 3).unacked = [sent0]) ∧ (((lnkSent 2).link 3).ctl = []) ∧ ((pAck (par 3 0 0 0 0 []) + 4096 - sent0.seq) % 4096 = 4095) ∧ ((lnkSent 2).rf (Reg.linkStat 3) 16 13 < 7) := by decide +kernel
theorem wit_LinksComeUpAndFail_13 : (lnkAck.dataPath = true) ∧ (openStates.contains (linkState lnkAck 3) = true) ∧ (linkSecured lnkAck 3 = false) ∧ ((lnkAck.link 3).ackDue = some 0) ∧ (0 + lnkAck.rf (Reg.linkCfg 3) 15 8 * 10 * nsUnit ≤ lnkAck.up + (1000 * nsUnit * 10)) := by decide +kernel
theorem wit_LinksComeUpAndFail_14 : ((lnkSent 2).dataPath = true) ∧ (3 < 32) ∧ (openStates.contains (linkState (lnkSent 2) 3) = true) ∧ (((lnkSent 2).link 3).unacked.getLast? = some sent0) ∧ (((lnkSent 2).link 3).timerAt + 2000 * nsUnit ≤ (lnkSent 2).up + (2000 * nsUnit)) ∧ ((lnkSent 2).rf (Reg.linkStat 3) 16 13 < 7) ∧ (linkSecured (lnkSent 2) 3 = false) := by decide +kernel
theorem wit_LinksComeUpAndFail_15 : ((lnkSent 7).dataPath = true) ∧ (3 < 32) ∧ (openStates.contains (linkState (lnkSent 7) 3) = true) ∧ (((lnkSent 7).link 3).unacked.getLast? = some sent0) ∧ (((lnkSent 7).link 3).timerAt + 2000 * nsUnit ≤ (lnkSent 7).up + (2000 * nsUnit)) ∧ ((lnkSent 7).rf (Reg.linkStat 3) 16 13 = 7) := by decide +kernel
theorem wit_LinksComeUpAndFail_16 : ((lnk 2).dataPath = true) ∧ (3 < 32) ∧ (linkState (lnk 2) 3 = 2) ∧ ((((lnk 2).link 3).helloAt = 0 ∨ ((lnk 2).link 3).helloAt + 100000 * nsUnit ≤ (lnk 2).up + 1)) := by decide +kernel
theorem wit_LinksComeUpAndFail_17 : (receives (lnk 4) 3 (hello 0 5) 9 = true) := by decide +kernel
theorem wit_LinksComeUpAndFail_18 : (receives (lnk 4) 3 (par 4 0 0 0 0 (hzero28)) 4 = true) ∧ (inOrder (lnk 4) 3 (par 4 0 0 0 0 (hzero28)) = true) := by decide +kernel
theorem wit_LinksComeUpAndFail_19 : ((lnk 4).dataPath = true) ∧ (3 < 32) ∧ (openStates.contains (linkState (lnk 4) 3) = true) ∧ ((((lnk 4).link 3).hbSentAt = 0 ∨ ((lnk 4).link 3).hbSentAt + 1000000 * nsUnit ≤ (lnk 4).up + 1)) ∧ (canSend (lnk 4) 3 0 48 = true) := by decide +kernel
theorem wit_LinksComeUpAndFail_20 : ((lnkLane 0).dataPath = true) ∧ (3 < 32) ∧ (linkCarried (lnkLane 0) 3 = true) ∧ (linkState (lnkLane 0) 3 = 0) := by decide +kernel
theorem wit_LinksComeUpAndFail_21 : (receives (lnkSent 2) 3 (parAck 2 0) 2 = true) := by decide +kernel
theorem wit_LinksComeUpAndFail_22 : (receives (lnkSent 2) 3 (par 3 0 0 0 0 []) 3 = true) := by decide +kernel
theorem wit_LinksComeUpAndFail_23 : (lnkAck.dataPath = true) ∧ (openStates.contains (linkState lnkAck 3) = true) ∧ ((lnkAck.link 3).ackDue = some 0) ∧ (0 + lnkAck.rf (Reg.linkCfg 3) 15 8 * 10 * nsUnit ≤ lnkAck.up + (1000 * nsUnit * 10)) := by decide +kernel
theorem wit_LinksComeUpAndFail_24 : ((lnkSent 2).dataPath = true) ∧ (openStates.contains (linkState (lnkSent 2) 3) = true) ∧ (((lnkSent 2).link 3).unacked ≠ []) ∧ (((lnkSent 2).link 3).timerAt + 2000 * nsUnit ≤ (lnkSent 2).up + (2000 * nsUnit)) := by decide +kernel
theorem wit_ParcelsCarryTheirContents_1 : (receives (lnk 4) 3 (par 1 0 0 32 0 head64) 1 = true) ∧ (inOrder (lnk 4) 3 (par 1 0 0 32 0 head64) = true) ∧ (sealPasses (accepted (lnk 4) 3 1 (par 1 0 0 32 0 head64)) 3 (par 1 0 0 32 0 head64) (rxPm (accepted (lnk 4) 3 1 (par 1 0 0 32 0 head64)) 3 0) = true) ∧ (pf (par 1 0 0 32 0 head64) 0 0 0 = 0) ∧ (pf (par 1 0 0 32 0 head64) 0 31 22 = ownModule (lnk 4)) ∧ (pf (par 1 0 0 32 0 head64) 2 17 4 < 4096) ∧ (((lnk 4).link 3).rxBuf = []) ∧ ((accepted (lnk 4) 3 1 (par 1 0 0 32 0 head64)).clear (hatchNo 0x18 3) = true) := by decide +kernel
theorem wit_ParcelsCarryTheirContents_2 : (receives (lnk 4) 3 (par 1 0 7 32 2 head64) 1 = true) ∧ (inOrder (lnk 4) 3 (par 1 0 7 32 2 head64) = true) ∧ (sealPasses (accepted (lnk 4) 3 1 (par 1 0 7 32 2 head64)) 3 (par 1 0 7 32 2 head64) (rxPm (accepted (lnk 4) 3 1 (par 1 0 7 32 2 head64)) 3 0) = true) ∧ (pf (par 1 0 7 32 2 head64) 0 0 0 = 0) ∧ (pf (par 1 0 7 32 2 head64) 0 31 22 ≠ ownModule (lnk 4)) ∧ (pf (par 1 0 7 32 2 head64) 3 15 11 < 15) ∧ (((lnk 4).link 3).rxBuf = []) ∧ ((accepted (lnk 4) 3 1 (par 1 0 7 32 2 head64)).clear (hatchNo 0x18 3) = true) := by decide +kernel
theorem wit_ParcelsCarryTheirContents_3 : (receives (lnk 4) 3 (par 1 5 0 32 0 head64) 1 = true) ∧ (((lnk 4).link 3).nakSent = false) ∧ (0 < (pSeq (par 1 5 0 32 0 head64) + 4096 - ((lnk 4).link 3).exp) % 4096) ∧ ((pSeq (par 1 5 0 32 0 head64) + 4096 - ((lnk 4).link 3).exp) % 4096 ≤ 2047) := by decide +kernel
theorem wit_ParcelsCarryTheirContents_4 : (receives (lnk 4) 3 (par 1 4095 0 32 0 head64) 1 = true) ∧ (2047 < (pSeq (par 1 4095 0 32 0 head64) + 4096 - ((lnk 4).link 3).exp) % 4096) ∧ (((lnk 4).reg (Reg.courDupCnt 3)).toNat < 0xFFFFFFFE) := by decide +kernel
theorem wit_ParcelsCarryTheirContents_5 : ((lnk 4).dataPath = true) ∧ (3 < 32) ∧ (lockedStates.contains (linkState (lnk 4) 3) = true) ∧ (pGood badPar = false) := by decide +kernel
theorem wit_ParcelsCarryTheirContents_6 : ((lnkPh false).dataPath = true) ∧ (3 < 32) ∧ (0 < 8) ∧ (linkState (lnkPh false) 3 = 4) ∧ (phOf (lnkPh false) (4096 + 3 * 8 + 0) = (phE false) :: ([])) ∧ ((0 = 7 ∨ phOf (lnkPh false) (4096 + 3 * 8 + 7) = [])) ∧ (((lnkPh false).frame (eCell (withLength (lnkPh false) (phE false)))).ended = 1) ∧ (eTrunc (withLength (lnkPh false) (phE false)) = false) ∧ ((0 = 7 ∨ eLength (withLength (lnkPh false) (phE false)) - 4 ≤ (lnkPh false).rf (Reg.linkCfg 3) 29 16)) ∧ (eLength (withLength (lnkPh false) (phE false)) - 4 ≤ ((lnkPh false).frame (eCell (withLength (lnkPh false) (phE false)))).bytes.length) ∧ (canSend (lnkPh false) 3 (eClass (withLength (lnkPh false) (phE false))) (eLength (withLength (lnkPh false) (phE false)) - 4 + 20) = true) ∧ ((lnkPh false).clear (hatchNo 0x19 3) = true) ∧ (linkSecured (lnkPh false) 3 = false) := by decide +kernel
theorem wit_ParcelsCarryTheirContents_7 : ((lnkPh true).dataPath = true) ∧ (3 < 32) ∧ (0 < 8) ∧ (linkState (lnkPh true) 3 = 4) ∧ (phOf (lnkPh true) (4096 + 3 * 8 + 0) = (phE true) :: ([])) ∧ (eCut (withLength (lnkPh true) (phE true)) = true) ∧ (((lnkPh true).frame (eCell (withLength (lnkPh true) (phE true)))).ended = 2) := by decide +kernel
theorem wit_ParcelsCarryTheirContents_8 : ((lnk 4).dataPath = true) ∧ (3 < 32) ∧ (linkState (lnk 4) 3 = 4) ∧ ((((lnk 4).link 3).timeSentAt = 0 ∨ ((lnk 4).link 3).timeSentAt + 1000000 * nsUnit ≤ (lnk 4).up + 1)) ∧ (linkSecured (lnk 4) 3 = false) := by decide +kernel
theorem wit_ParcelsCarryTheirContents_9 : (receives (lnk 4) 3 timePar 7 = true) := by decide +kernel
theorem wit_ParcelsCarryTheirContents_10 : (receives lnkTime 3 timePar 7 = true) ∧ (((lnkTime.link 3).timesSent.find? fun q => q.1 == beNat (slice (pPayload timePar) 32 4)) = some (7, 100)) ∧ ((lnkTime.link 3).timeRx = some (4, 900)) ∧ (4 + 1 = beNat (slice (pPayload timePar) 36 4)) := by decide +kernel
theorem wit_ParcelsCarryTheirContents_11 : (receives (lnk 4) 3 alPar 8 = true) ∧ (inOrder (lnk 4) 3 alPar = true) ∧ (pLen alPar = 32) ∧ (alGot = { alarmOf ((List.range 8).map fun j => beNat (slice alPar (16 + 4 * j) 4)) with fwd := true }) ∧ (alarmForwards (accepted (lnk 4) 3 1 alPar) alGot = false) := by decide +kernel
theorem wit_ParcelsCarryTheirContents_12 : (lnkAlarm.dataPath = true) ∧ (3 < 32) ∧ (linkState lnkAlarm 3 = 4) ∧ ((lnkAlarm.link 3).alarms = [al0]) ∧ ((lnkAlarm.link 3).sums = []) ∧ ((lnkAlarm.link 3).ovr = none) ∧ (al0.sev < 4) ∧ (alarmRoom (advance lnkAlarm 1) 3 (modeLanes lnkAlarm 3) 1 = true) ∧ (canSend lnkAlarm 3 0 52 = true) ∧ (linkSecured lnkAlarm 3 = false) := by decide +kernel
theorem wit_ParcelsCarryTheirContents_13 : (receives lnkSeal 3 (par 5 0 0 0 0 []) 5 = true) ∧ (inOrder lnkSeal 3 (par 5 0 0 0 0 []) = true) ∧ ((lnkSeal.link 3).ctl = []) ∧ ((lnkSeal.link 3).unacked = []) ∧ (canSend (accepted lnkSeal 3 1 (par 5 0 0 0 0 [])) 3 0 53 = true) ∧ (lnkSeal.cour.seal_.length = 32) := by decide +kernel
theorem wit_ParcelsCarryTheirContents_14 : (receives (lnk 4) 3 (par 6 0 0 0 0 (List.replicate 33 7)) 6 = true) ∧ (inOrder (lnk 4) 3 (par 6 0 0 0 0 (List.replicate 33 7)) = true) := by decide +kernel
theorem wit_ParcelsCarryTheirContents_15 : ((lnk 4).life.rails = true) ∧ (takes (lnk 4) 0x0F00 Reg.peerSealSel (0x80000003 : Word) = true) ∧ (bitOf (0x80000003 : Word) 31 = true) ∧ (openStates.contains (linkState (lnk 4) (fld (0x80000003 : Word) 4 0)) = true) ∧ (((lnk 4).link (fld (0x80000003 : Word) 4 0)).ctl = []) ∧ (canSend (lnk 4) (fld (0x80000003 : Word) 4 0) 0 20 = true) ∧ (linkSecured (lnk 4) (fld (0x80000003 : Word) 4 0) = false) := by decide +kernel
theorem wit_ParcelsCarryTheirContents_16 : (sec.dataPath = true) ∧ (3 < 32) ∧ (openStates.contains (linkState sec 3) = true) ∧ (pGood (par 1 0 0 32 0 head64) = true) ∧ (pType (par 1 0 0 32 0 head64) = 1) ∧ (openParcel (advance sec 1) 3 (par 1 0 0 32 0 head64) = (((openParcel (advance sec 1) 3 (par 1 0 0 32 0 head64)).1), none)) := ⟨by decide +kernel, by decide +kernel, by decide +kernel, by decide +kernel, by decide +kernel, pairOk _ _ (by decide +kernel)⟩
theorem wit_ParcelsCarryTheirContents_17 : (sec.dataPath = true) ∧ (3 < 32) ∧ (openStates.contains (linkState sec 3) = true) ∧ (pGood secB = true) ∧ (pReserved secB = false) ∧ (pType secB = 1) ∧ (openParcel (advance sec 1) 3 secB = (((openParcel (advance sec 1) 3 secB).1), some secQ)) := ⟨by decide +kernel, by decide +kernel, by decide +kernel, by decide +kernel, by decide +kernel, by decide +kernel, pairOk _ _ (by decide +kernel)⟩
theorem wit_ParcelsCarryTheirContents_18 : (sec.dataPath = true) ∧ (3 < 32) ∧ (linkState sec 3 = 4) ∧ ((sec.link 3).timeSentAt + 1000000 * nsUnit ≤ sec.up + (1000000 * nsUnit)) ∧ (linkSecured sec 3 = true) ∧ ((sec.link 3).timesSent = []) ∧ ((sec.link 3).timeRx = none) ∧ (secureParcel (advance sec (1000000 * nsUnit)) 3 (parcelOf sec 3 (ctlInfo sec 3 7 0) (pmBytes 0 ++ pmBytes 0 ++ beBytes 4 0 ++ beBytes 4 ((sec.link 3).timeNo + 1))) = (((secureParcel (advance sec (1000000 * nsUnit)) 3 secTime).1), some secW)) := ⟨by decide +kernel, by decide +kernel, by decide +kernel, by decide +kernel, by decide +kernel, by decide +kernel, by decide +kernel, pairOk _ _ (by decide +kernel)⟩
theorem wit_ParcelsCarryTheirContents_19 : (linkSecured sec 3 = true) ∧ (bitOf (saWord sec (linkPort sec 3) (sec.rf (pReg Reg.portMacsecCfg (linkPort sec 3)) 22 22) 0) 31 = true) ∧ (saPn sec (linkPort sec 3) (sec.rf (pReg Reg.portMacsecCfg (linkPort sec 3)) 22 22) ≠ 0) ∧ (saPn sec (linkPort sec 3) (sec.rf (pReg Reg.portMacsecCfg (linkPort sec 3)) 22 22) < pnSpace sec (linkPort sec 3)) ∧ (20 ≤ (par 1 0 0 32 0 head64).length) := by decide +kernel
theorem wit_ParcelsCarryTheirContents_20 : (xmodS.life.rails = true) ∧ (xmodS.epoch.xmod = true) ∧ (epochState xmodS = 1) ∧ (xmodS.rb Reg.courSealStat 30 = false) := by decide +kernel
theorem wit_ParcelsCarryTheirContents_21 : (receives (lnk 4) 3 (par 1 0 0 32 0 head64) 1 = true) ∧ (inOrder (lnk 4) 3 (par 1 0 0 32 0 head64) = true) ∧ (sealPasses (accepted (lnk 4) 3 1 (par 1 0 0 32 0 head64)) 3 (par 1 0 0 32 0 head64) (rxPm (accepted (lnk 4) 3 1 (par 1 0 0 32 0 head64)) 3 0) = true) := by decide +kernel
theorem wit_ParcelsCarryTheirContents_22 : (receives xsealS 3 xsealP 1 = true) ∧ (inOrder xsealS 3 xsealP = true) ∧ (sealPasses (accepted xsealS 3 1 xsealP) 3 xsealP (rxPm (accepted xsealS 3 1 xsealP) 3 0) = false) := by decide +kernel
theorem wit_ParcelsCarryTheirContents_23 : ((lnkPh false).dataPath = true) ∧ (3 < 32) ∧ (0 < 8) ∧ (linkState (lnkPh false) 3 = 4) ∧ (phOf (lnkPh false) (4096 + 3 * 8 + 0) = (phE false) :: ([])) ∧ ((0 = 7 ∨ phOf (lnkPh false) (4096 + 3 * 8 + 7) = [])) ∧ (((lnkPh false).frame (eCell (withLength (lnkPh false) (phE false)))).ended = 1) ∧ ((0 = 7 ∨ (((lnkPh false).frame (eCell (withLength (lnkPh false) (phE false)))).bytes.take (if eTrunc (withLength (lnkPh false) (phE false)) then min 124 (eLength (withLength (lnkPh false) (phE false)) - 4) else eLength (withLength (lnkPh false) (phE false)) - 4)).length ≤ (lnkPh false).rf (Reg.linkCfg 3) 29 16)) ∧ (canSend (lnkPh false) 3 (eClass (withLength (lnkPh false) (phE false))) ((((lnkPh false).frame (eCell (withLength (lnkPh false) (phE false)))).bytes.take (if eTrunc (withLength (lnkPh false) (phE false)) then min 124 (eLength (withLength (lnkPh false) (phE false)) - 4) else eLength (withLength (lnkPh false) (phE false)) - 4)).length + 20) = true) ∧ ((lnkPh false).clear (hatchNo 0x19 3) = true) := by decide +kernel
theorem wit_ParcelsCarryTheirContents_24 : (lnkLeaving.dataPath = true) ∧ (3 < 32) ∧ (0 < 8) ∧ (linkState lnkLeaving 3 = 6) ∧ (phOf lnkLeaving (4096 + 3 * 8 + 0) = phM :: ([])) ∧ (bitOf (ew phM 16) 1 = true) ∧ ((0 = 7 ∨ phOf lnkLeaving (4096 + 3 * 8 + 7) = [])) ∧ ((lnkLeaving.frame (eCell (withLength lnkLeaving phM))).ended = 1) ∧ ((0 = 7 ∨ ((lnkLeaving.frame (eCell (withLength lnkLeaving phM))).bytes.take (if eTrunc (withLength lnkLeaving phM) then min 124 (eLength (withLength lnkLeaving phM) - 4) else eLength (withLength lnkLeaving phM) - 4)).length ≤ lnkLeaving.rf (Reg.linkCfg 3) 29 16)) ∧ (canSend lnkLeaving 3 (eClass (withLength lnkLeaving phM)) (((lnkLeaving.frame (eCell (withLength lnkLeaving phM))).bytes.take (if eTrunc (withLength lnkLeaving phM) then min 124 (eLength (withLength lnkLeaving phM) - 4) else eLength (withLength lnkLeaving phM) - 4)).length + 20) = true) ∧ (lnkLeaving.clear (hatchNo 0x19 3) = true) := by decide +kernel
theorem wit_ParcelsCarryTheirContents_25 : (((lnkPh false).setRf (Reg.linkCfg 3) 29 16 20).dataPath = true) ∧ (3 < 32) ∧ (0 < 8) ∧ (linkState ((lnkPh false).setRf (Reg.linkCfg 3) 29 16 20) 3 = 4) ∧ (phOf ((lnkPh false).setRf (Reg.linkCfg 3) 29 16 20) (4096 + 3 * 8 + 0) = (phE false) :: ([])) ∧ (0 ≠ 7) ∧ (phOf ((lnkPh false).setRf (Reg.linkCfg 3) 29 16 20) (4096 + 3 * 8 + 7) = []) ∧ ((((lnkPh false).setRf (Reg.linkCfg 3) 29 16 20).frame (eCell (withLength ((lnkPh false).setRf (Reg.linkCfg 3) 29 16 20) (phE false)))).ended = 1) ∧ (((lnkPh false).setRf (Reg.linkCfg 3) 29 16 20).rf (Reg.linkCfg 3) 29 16 < ((((lnkPh false).setRf (Reg.linkCfg 3) 29 16 20).frame (eCell (withLength ((lnkPh false).setRf (Reg.linkCfg 3) 29 16 20) (phE false)))).bytes.take (if eTrunc (withLength ((lnkPh false).setRf (Reg.linkCfg 3) 29 16 20) (phE false)) then min 124 (eLength (withLength ((lnkPh false).setRf (Reg.linkCfg 3) 29 16 20) (phE false)) - 4) else eLength (withLength ((lnkPh false).setRf (Reg.linkCfg 3) 29 16 20) (phE false)) - 4)).length) := by decide +kernel
theorem wit_ParcelsCarryTheirContents_26 : ((lnk 4).dataPath = true) ∧ (3 < 32) ∧ (linkState (lnk 4) 3 = 4) ∧ ((((lnk 4).link 3).timeSentAt = 0 ∨ ((lnk 4).link 3).timeSentAt + 1000000 * nsUnit ≤ (lnk 4).up + 1)) := by decide +kernel
theorem wit_ParcelsCarryTheirContents_27 : (receives (lnk 4) 3 alPar 8 = true) ∧ (inOrder (lnk 4) 3 alPar = true) := by decide +kernel
theorem wit_ParcelsCarryTheirContents_28 : (lnkAlarm.dataPath = true) ∧ (3 < 32) ∧ (linkState lnkAlarm 3 = 4) ∧ (1 = ((alarmOrder (lnkAlarm.link 3)).take 8).length) ∧ (1 ≠ 0) ∧ (alarmRoom (advance lnkAlarm 1) 3 (modeLanes lnkAlarm 3) 1 = true) ∧ (canSend lnkAlarm 3 0 (32 * 1 + 20) = true) := by decide +kernel
theorem wit_ParcelsCarryTheirContents_29 : (receives lnkSeal 3 (par 5 0 0 0 0 []) 5 = true) ∧ (inOrder lnkSeal 3 (par 5 0 0 0 0 []) = true) := by decide +kernel
theorem wit_ParcelsCarryTheirContents_30 : ((lnk 4).life.rails = true) ∧ (takes (lnk 4) 0x0F00 Reg.peerSealSel (0x80000003 : Word) = true) ∧ (bitOf (0x80000003 : Word) 31 = true) ∧ (openStates.contains (linkState (lnk 4) (fld (0x80000003 : Word) 4 0)) = true) ∧ (((lnk 4).link (fld (0x80000003 : Word) 4 0)).ctl = []) ∧ (canSend (lnk 4) (fld (0x80000003 : Word) 4 0) 0 20 = true) := by decide +kernel
theorem wit_ParcelsCarryTheirContents_31 : (((lnk 4).withLink 3 fun l => { l with rfree := 0 }).life.rails = true) ∧ (takes ((lnk 4).withLink 3 fun l => { l with rfree := 0 }) 0x0F00 Reg.peerSealSel (0x80000003 : Word) = true) ∧ (bitOf (0x80000003 : Word) 31 = true) ∧ (openStates.contains (linkState ((lnk 4).withLink 3 fun l => { l with rfree := 0 }) (fld (0x80000003 : Word) 4 0)) = true) ∧ ((((lnk 4).withLink 3 fun l => { l with rfree := 0 }).link (fld (0x80000003 : Word) 4 0)).ctl = []) ∧ (canSend ((lnk 4).withLink 3 fun l => { l with rfree := 0 }) (fld (0x80000003 : Word) 4 0) 0 20 = false) := by decide +kernel
theorem wit_BucketsRoutesAndGroups_1 : ((grp [mv9 (some 0)] []).dataPath = true) ∧ (9 < ((grp [mv9 (some 0)] []).group 2).buckets.length) ∧ (moveOf (noteClear (advance (grp [mv9 (some 0)] []) (255000 * nsUnit))) 2 9 = some (mv9 (some 0))) ∧ ((mv9 (some 0)).clearAt = some 0) ∧ (0 + (grp [mv9 (some 0)] []).rf Reg.courMpCfg 15 8 * 1000 * nsUnit ≤ (grp [mv9 (some 0)] []).up + (255000 * nsUnit)) ∧ ((mv9 (some 0)).held = []) := by decide +kernel
theorem wit_BucketsRoutesAndGroups_2 : ((grp [mv9 none] []).dataPath = true) ∧ (9 < ((grp [mv9 none] []).group 2).buckets.length) ∧ (moveOf (grp [mv9 none] []) 2 9 = some (mv9 none)) ∧ ((mv9 none).since + 50000 * nsUnit ≤ (grp [mv9 none] []).up + (50000 * nsUnit)) ∧ ((mv9 none).held = []) ∧ (((grp [mv9 none] []).reg Reg.courOrderRiskCnt).toNat < 0xFFFFFFFE) := by decide +kernel
theorem wit_BucketsRoutesAndGroups_3 : ((grp [] []).dataPath = true) ∧ (2 < 256) ∧ (2 ≤ (usableWays (grp [] []) 2).length) ∧ (((grp [] []).group 2).monAt + (grp [] []).rf Reg.courMpCfg 7 0 * 1000000 * nsUnit ≤ (grp [] []).up + (1000000000 * nsUnit)) ∧ (monitorPick (grp [] []) 2 = none) := by decide +kernel
theorem wit_BucketsRoutesAndGroups_4 : ((grp [] [(9, 500), (10, 900)]).dataPath = true) ∧ (2 < 256) ∧ (2 ≤ (usableWays (grp [] [(9, 500), (10, 900)]) 2).length) ∧ (((grp [] [(9, 500), (10, 900)]).group 2).monAt + (grp [] [(9, 500), (10, 900)]).rf Reg.courMpCfg 7 0 * 1000000 * nsUnit ≤ (grp [] [(9, 500), (10, 900)]).up + (1000000000 * nsUnit)) ∧ (monitorPick (grp [] [(9, 500), (10, 900)]) 2 = some (10, 1)) := by decide +kernel
theorem wit_BucketsRoutesAndGroups_5 : ((svc.setRf Reg.courMpCfg 23 16 1).life.rails = true) ∧ ((svc.setRf Reg.courMpCfg 23 16 1).rf Reg.courMpCfg 23 16 ≠ 0) ∧ ((svc.setRf Reg.courMpCfg 23 16 1).cour.reseedAt + (svc.setRf Reg.courMpCfg 23 16 1).rf Reg.courMpCfg 23 16 * secUnit ≤ (svc.setRf Reg.courMpCfg 23 16 1).up + secUnit) := by decide +kernel
theorem wit_BucketsRoutesAndGroups_6 : (svc.life.rails = true) ∧ (takes svc 0x0F00 Reg.courMpCfg (svc.reg Reg.courMpCfg ||| 0x80000000) = true) ∧ (bitOf (svc.reg Reg.courMpCfg ||| 0x80000000) 31 = true) := by decide +kernel
theorem wit_BucketsRoutesAndGroups_7 : ((svc.setReg Reg.routeData 5).life.rails = true) ∧ (takes (svc.setReg Reg.routeData 5) 0x0F00 Reg.routeSel (0x80000007 : Word) = true) ∧ (bitOf (0x80000007 : Word) 31 = true) := by decide +kernel
theorem wit_BucketsRoutesAndGroups_8 : ((svc.setReg Reg.routeData 5).life.rails = true) ∧ (takes (svc.setReg Reg.routeData 5) 0x0F00 Reg.routeSel (0x40000007 : Word) = true) ∧ (bitOf (0x40000007 : Word) 31 = false) ∧ (bitOf (0x40000007 : Word) 30 = true) := by decide +kernel
theorem wit_BucketsRoutesAndGroups_9 : ((svc.setReg Reg.grpWays0 0x8483).life.rails = true) ∧ (takes (svc.setReg Reg.grpWays0 0x8483) 0x0F00 Reg.grpSel (0x80000002 : Word) = true) ∧ (bitOf (0x80000002 : Word) 31 = true) := by decide +kernel
theorem wit_BucketsRoutesAndGroups_10 : ((grp [] []).life.rails = true) ∧ (takes (grp [] []) 0x0F00 Reg.grpSel (0x40000002 : Word) = true) ∧ (bitOf (0x40000002 : Word) 31 = false) ∧ (bitOf (0x40000002 : Word) 30 = true) := by decide +kernel
theorem wit_BucketsRoutesAndGroups_11 : ((grp [mv9 (some 0)] []).dataPath = true) ∧ (9 < ((grp [mv9 (some 0)] []).group 2).buckets.length) ∧ (moveOf (noteClear (advance (grp [mv9 (some 0)] []) (255000 * nsUnit))) 2 9 = some (mv9 (some 0))) ∧ ((mv9 (some 0)).clearAt = some 0) ∧ (0 + (grp [mv9 (some 0)] []).rf Reg.courMpCfg 15 8 * 1000 * nsUnit ≤ (grp [mv9 (some 0)] []).up + (255000 * nsUnit)) := by decide +kernel
theorem wit_BucketsRoutesAndGroups_12 : ((grp [mv9 none] []).dataPath = true) ∧ (9 < ((grp [mv9 none] []).group 2).buckets.length) ∧ (moveOf (grp [mv9 none] []) 2 9 = some (mv9 none)) ∧ ((mv9 none).since + 50000 * nsUnit ≤ (grp [mv9 none] []).up + (50000 * nsUnit)) := by decide +kernel

/-! ### tenancy -/

def ten1 (st : Nat) : State := svc.setRf (Reg.tenStatus 1) 31 30 st
def keyFull : State := { svc with keySlots := [(7, ⟨1, 0, true, 16, List.replicate 16 3⟩)] }
def svn3 : State := setup.setRf Reg.bootStat 13 8 3
def barUp : State := (svc.setRf Reg.dramStat 30 29 3).setReg (Reg.tenDramCfg 2) 0x8000
theorem wit_TenanciesKeysAndFuses_1 : ((ten1 0).life.rails = true) ∧ (takes (ten1 0) 0x0F00 Reg.tenCtl (0x80000001 : Word) = true) ∧ (bitOf (0x80000001 : Word) 31 = true) ∧ (tenCtlRefused (0x80000001 : Word) (ten1 0) = false) := by decide +kernel
theorem wit_TenanciesKeysAndFuses_2 : ((ten1 1).life.rails = true) ∧ (takes (ten1 1) 0x0F00 Reg.tenCtl (0x80000001 : Word) = true) ∧ (bitOf (0x80000001 : Word) 31 = true) ∧ (tenCtlRefused (0x80000001 : Word) (ten1 1) = true) := by decide +kernel
theorem wit_TenanciesKeysAndFuses_3 : ((ten1 2).life.rails = true) ∧ (takes (ten1 2) 0x0F00 Reg.tenCtl (0x40000001 : Word) = true) ∧ (bitOf (0x40000001 : Word) 31 = false) ∧ (bitOf (0x40000001 : Word) 30 = true) ∧ ((ten1 2).rf (Reg.tenStatus (fld (0x40000001 : Word) 3 0)) 31 30 = 2) := by decide +kernel
theorem wit_TenanciesKeysAndFuses_4 : (svc.life.rails = true) ∧ (takes svc 0x0F00 Reg.kslotCfg (0x80410007 : Word) = true) ∧ (bitOf (0x80410007 : Word) 31 = true) ∧ (kslotRefused 0x0F00 (0x80410007 : Word) svc = false) := by decide +kernel
theorem wit_TenanciesKeysAndFuses_5 : (svc.life.rails = true) ∧ (takes svc 0x0F00 Reg.kslotCfg (0x80000007 : Word) = true) ∧ (bitOf (0x80000007 : Word) 31 = true) ∧ (kslotRefused 0x0F00 (0x80000007 : Word) svc = true) := by decide +kernel
theorem wit_TenanciesKeysAndFuses_6 : (keyFull.life.rails = true) ∧ (takes keyFull 0x0F00 Reg.kslotCfg (0x40000007 : Word) = true) ∧ (bitOf (0x40000007 : Word) 31 = false) ∧ (bitOf (0x40000007 : Word) 30 = true) ∧ (mayErase keyFull (funcOf 0x0F00) (fld (0x40000007 : Word) 11 0) = true) := by decide +kernel
theorem wit_TenanciesKeysAndFuses_7 : (svn3.life.rails = true) ∧ (takes svn3 0x0F00 Reg.bootCtl (0x80000000 : Word) = true) ∧ (0x0F00 = 0x0F00) ∧ (bitOf (0x80000000 : Word) 31 = true) ∧ (bitOf (0x80000000 : Word) 30 = false) ∧ (svn3.mode = 1) ∧ (svn3.otp.svn < svn3.rf Reg.bootStat 13 8) := by decide +kernel
theorem wit_TenanciesKeysAndFuses_8 : (svn3.life.rails = true) ∧ (takes svn3 0x0F00 Reg.bootCtl (0x40000001 : Word) = true) ∧ (0x0F00 = 0x0F00) ∧ (bitOf (0x40000001 : Word) 31 = false) ∧ (bitOf (0x40000001 : Word) 30 = true) ∧ (svn3.mode = 1) ∧ (fld (0x40000001 : Word) 1 0 ≠ svn3.rf Reg.bootStat 1 0) ∧ (hashesLive svn3 ≠ [fld (0x40000001 : Word) 1 0]) := by decide +kernel
theorem wit_TenanciesKeysAndFuses_9 : (barUp.life.rails = true) ∧ (2 < 16) ∧ (64 % 4 = 0) ∧ (64 + 4 ≤ 0x10000000) ∧ (barUp.rf (Reg.pfWin 2) 7 0 * 0x10000000 + 64 + 4 ≤ regionSize barUp 2) ∧ (barUp.dramReady = true) := by decide +kernel
theorem wit_TenanciesKeysAndFuses_10 : (svc.life.rails = true) ∧ (2 < 16) ∧ (([1, 2]) ≠ []) ∧ (64 + ([1, 2]).length ≤ 0x10000000) ∧ (regionSize svc 2 < svc.rf (Reg.pfWin 2) 7 0 * 0x10000000 + 64 + ([1, 2]).length) ∧ (((splitLines (([1, 2]).length + 1) (regionBase svc 2 + (svc.rf (Reg.pfWin 2) 7 0 * 0x10000000 + 64)) ([1, 2])).all fun p => hasRoom svc ⟨7, 0xFE, 2, 0xFFFF, 0, true, p.1, p.2.1, p.2.2, false⟩) = true) ∧ ((svc.reg Reg.tenDenyCnt).toNat < 0xFFFFFFFE) := by decide +kernel
theorem wit_TenanciesKeysAndFuses_11 : (svn3.life.rails = true) ∧ (takes svn3 0x0F00 Reg.bootCtl (0xC0000001 : Word) = true) ∧ (bitOf (0xC0000001 : Word) 31 = true) ∧ (bootCtlRefused 0x0F00 (0xC0000001 : Word) svn3 = false) := by decide +kernel
theorem wit_TenanciesKeysAndFuses_12 : (barUp.life.rails = true) ∧ (2 < 16) ∧ (([1, 2, 3, 4, 5, 6]) ≠ []) ∧ (60 + ([1, 2, 3, 4, 5, 6]).length ≤ 0x10000000) ∧ (barUp.rf (Reg.pfWin 2) 7 0 * 0x10000000 + 60 + ([1, 2, 3, 4, 5, 6]).length ≤ regionSize barUp 2) ∧ (barUp.dramReady = true) ∧ (((splitLines (([1, 2, 3, 4, 5, 6]).length + 1) (regionBase barUp 2 + (barUp.rf (Reg.pfWin 2) 7 0 * 0x10000000 + 60)) ([1, 2, 3, 4, 5, 6])).all fun p => hasRoom barUp ⟨7, 0xFE, 2, 0xFFFF, 0, true, p.1, p.2.1, p.2.2, false⟩) = true) := by decide +kernel

/-! ### life -/

def flashOf (base n len : Nat) : List Host.Cell := (List.range len).map fun i => (base + i, BitVec.ofNat 8 (n / 2 ^ (8 * i)))
/-- The block at the end of ENTRY, with a boot image in bank A that verifies under key slot 1, which holds the hash of its public key. -/
def booting : State :=
  let s := (State.reset.withLife fun l => { l with wdreqHigh := true }).setRf Reg.lifeHucStat 31 31 1
  { (s.withDram fun d => { d with trained := true }) with
    flash := flashOf 0 0xf77633ddca0ed964fdb56d16f1b48ffd8e8c9ff1c119d00efcd19e0e5618157eda563819add32864860e01db2d5e06afe1d0b68fb4050f04b2ebb9556f52058b501c7bfa9dcc582dfa5feafb97e96fadfedf4e23bf8e9ff28847ce65731d3c28000000000000003a71c1e6ab14441833fbe80a6d687731eb1a90b63365988ce8ded55477444b28c5e7000ae937580f2df94074c796a68fbc846d83c3dbbc0ae697a21c4a2f8837b08365e5cb61664fc58ff9bf1de508f267e425a05eac3c5777c751c2a224de110430ee2ef1d9c59494e0bff09bc3164d8b7939457067cfb0b62988ea83775c53b100000010000000010000000100000002000000015a424f54 0x100 ++ flashOf 0x200 2 16 ++ flashOf 0x8000000 0 24
    otp := { State.reset.otp with hashes := [(1, 0x69a5fbfffffae9319bccfd9afe4b60a151852a7168ce91a705e88452599d0a0a)] } }
/-- Both banks of flash hold zeros where their headers stand. -/
def blankBanks : State := { State.reset with flash := flashOf 0 0 0x100 ++ flashOf 0x8000000 0 0x100 }
def darkS : State := svc.withLife fun l => { l with rails := false, dark := true }
def ejected : State := (svc.setRf Reg.lifeMode 2 0 4).withLife fun l => { l with rails := false, ejectOk := true }
def wdreqS : State := svc.withLife fun l => { l with wdreqArmed := true, wdreqHigh := true }
def parkedH (c : Nat) : State := (svc.setRf Reg.lifeMode 2 0 5).withLife fun l => { l with rails := false, parked := true, holdCause := c }
def wdS (stop : Bool) : State := (svc.setRf Reg.lifeMode 2 0 4).withLife fun l => { l with wdStopped := stop }
def wdFull : State := let s := wdS true; { s with depot := { s.depot with ph := [(4, [List.replicate 16 0])] } }
def im7 : Image := { kind := 7, seq := 4, pm := 0, mode := 4, health := 0, timeStatus := 0, epochs := 0, hucStat := 0, vin := 1200, snapshot := [], records := [], strong := [], valid := true }
def saves (mode c : Nat) (stay : Bool) : State := ((svc.setRf Reg.lifeMode 2 0 mode).setRf Reg.lifeCtl 0 0 (b2n stay)).withLife fun l => { l with saving := some (3, im7), holdCause := c }
def unreadS : State := { svc with cellar := { svc.cellar with unread := some 3, images := [(3, im7)] } }
def testing (g : Nat) : State := (svc.setRf Reg.lifeHucStat 30 30 1).withLife fun l => { l with goodTests := g }
def reducedS : State := ((svc.setRf Reg.lifeMode 2 0 3).setRf Reg.lifeHealth 5 5 1).setRf Reg.lifeHealth 31 31 1
def laneS : State := svc.setRf (Reg.laneStat 9) 7 7 1
theorem wit_SagsAndDips_1 : (950 < svc.rf Reg.lifeSagCfg 7 0 * 10 ∧ 40000 * nsUnit ≤ (40000 * nsUnit) ∨ 950 < 900 ∧ 2000 * nsUnit ≤ (40000 * nsUnit)) ∧ (svc.mayHold = true) ∧ ((svc.reg Reg.lifeSagCnt).toNat < 0xFFFFFFFE) := by decide +kernel
theorem wit_SagsAndDips_2 : ((svc.rf Reg.lifeSagCfg 7 0 * 10 ≤ 1100 ∨ 5 < 40000 * nsUnit)) ∧ ((900 ≤ 1100 ∨ 5 < 2000 * nsUnit)) := by decide +kernel
theorem wit_SagsAndDips_3 : (svc.life.rails = true) ∧ (950 < svc.rf Reg.lifeSagCfg 7 0 * 10) ∧ ((30000 * nsUnit) < 40000 * nsUnit) ∧ ((900 ≤ 950 ∨ (30000 * nsUnit) < 2000 * nsUnit)) ∧ ((svc.reg Reg.lifeDipCnt).toNat < 0xFFFFFFFE) := by decide +kernel
theorem wit_ModesChangeByTheirCauses_1 : (1080 ≤ 1100) ∧ (darkS.life.rails = false) ∧ (darkS.life.dark = true) := by decide +kernel
theorem wit_ModesChangeByTheirCauses_2 : (entering booting = true) ∧ (booting.dram.trained = true) ∧ (testOver (advance booting 1) = true) ∧ ((verify booting ([])).bank = some 0) ∧ (imageOf booting 0 = some (([(2, 0, [])] : List Section))) ∧ (((([(2, 0, [])] : List Section)).all fun x => x.1 != 3) = true) ∧ (hallGone (selfTest (advance booting 1) ([]) ([]) ([])) = false) := by decide +kernel
theorem wit_ModesChangeByTheirCauses_3 : (entering State.reset = true) := by decide +kernel
theorem wit_ModesChangeByTheirCauses_4 : (svc.life.presentHigh = false) ∧ (svc.mayHold = true) := by decide +kernel
theorem wit_ModesChangeByTheirCauses_5 : (svc.life.enableHigh = true) ∧ (svc.mayHold = true) := by decide +kernel
theorem wit_ModesChangeByTheirCauses_6 : (10000 * nsUnit ≤ (10000 * nsUnit)) ∧ (svc.mode ≠ 5) ∧ (svc.life.rails = true) := by decide +kernel
theorem wit_ModesChangeByTheirCauses_7 : (5 < 1000 * nsUnit) := by decide +kernel
theorem wit_ModesChangeByTheirCauses_9 : (wdreqS.life.rails = true) ∧ (wdreqS.life.wdreqHigh = true) ∧ (wdreqS.life.wdreqArmed = true) ∧ (1 ≤ wdreqS.mode) ∧ (wdreqS.mode ≤ 3) := by decide +kernel
theorem wit_ModesChangeByTheirCauses_10 : ((svc.withLife fun l => { l with wdreqHigh := false }).life.rails = true) ∧ ((svc.withLife fun l => { l with wdreqHigh := false }).life.wdreqHigh = false) ∧ ((svc.withLife fun l => { l with wdreqHigh := false }).life.wdreqStuck = false) ∧ ((svc.withLife fun l => { l with wdreqHigh := false }).life.wdreqSince + 60 * secUnit ≤ (svc.withLife fun l => { l with wdreqHigh := false }).up + (60 * secUnit)) := by decide +kernel
theorem wit_ModesChangeByTheirCauses_11 : (setup.life.rails = true) ∧ (takes setup 0x0F00 Reg.lifeCtl (0x80000000 : Word) = true) ∧ (bitOf (0x80000000 : Word) 31 = true) ∧ (bitOf (0x80000000 : Word) 30 = false) ∧ (bitOf (0x80000000 : Word) 29 = false) ∧ (bitOf (0x80000000 : Word) 28 = false) ∧ (setup.mode = 1) := by decide +kernel
theorem wit_ModesChangeByTheirCauses_12 : (svc.life.rails = true) ∧ (takes svc 0x0F00 Reg.lifeCtl (0x80000000 : Word) = true) ∧ (bitOf (0x80000000 : Word) 31 = true) ∧ (svc.mode ≠ 1) := by decide +kernel
theorem wit_ModesChangeByTheirCauses_13 : (svc.life.rails = true) ∧ (takes svc 0x0F00 Reg.lifeCtl (0x40000000 : Word) = true) ∧ (bitOf (0x40000000 : Word) 31 = false) ∧ (bitOf (0x40000000 : Word) 30 = true) ∧ (bitOf (0x40000000 : Word) 29 = false) ∧ (bitOf (0x40000000 : Word) 28 = false) ∧ (svc.rf Reg.epochStatus 18 16 ≠ 2) := by decide +kernel
theorem wit_ModesChangeByTheirCauses_14 : (svc.life.rails = true) ∧ (takes svc 0x0F00 Reg.lifeCtl (0x20000000 : Word) = true) ∧ (bitOf (0x20000000 : Word) 31 = false) ∧ (bitOf (0x20000000 : Word) 30 = false) ∧ (bitOf (0x20000000 : Word) 29 = true) ∧ (bitOf (0x20000000 : Word) 28 = false) ∧ (1 ≤ svc.mode) ∧ (svc.mode ≤ 3) := by decide +kernel
theorem wit_ModesChangeByTheirCauses_15 : (svc.life.rails = true) ∧ (takes svc 0x0F00 Reg.lifeCtl (0x10000000 : Word) = true) ∧ (bitOf (0x10000000 : Word) 31 = false) ∧ (bitOf (0x10000000 : Word) 30 = false) ∧ (bitOf (0x10000000 : Word) 29 = false) ∧ (bitOf (0x10000000 : Word) 28 = true) ∧ (1 ≤ svc.mode) ∧ (svc.mode ≤ 3) := by decide +kernel
theorem wit_ModesChangeByTheirCauses_16 : ((svc.withLedg fun l => { l with critSince := some 0 }).mayHold = true) ∧ ((svc.withLedg fun l => { l with critSince := some 0 }).ledg.critSince = some 0) ∧ (0 + 100 * msUnit ≤ (svc.withLedg fun l => { l with critSince := some 0 }).up + (100 * msUnit)) := by decide +kernel
theorem wit_ModesChangeByTheirCauses_17 : ((parkedH 3).mode = 5) ∧ ((parkedH 3).life.parked = true) ∧ ((parkedH 3).life.dark = false) ∧ (1080 ≤ 1100) ∧ (10 * msUnit ≤ (10 * msUnit)) ∧ ((parkedH 3).life.holdCause ≠ 5) := by decide +kernel
theorem wit_ModesChangeByTheirCauses_18 : ((parkedH 3).mode = 5) ∧ ((parkedH 3).life.parked = true) ∧ ((parkedH 3).life.dark = false) := by decide +kernel
theorem wit_ModesChangeByTheirCauses_19 : (1080 ≤ 1100) ∧ (ejected.life.rails = false) ∧ (ejected.life.dark = false) ∧ (ejected.life.ejectOk = true) ∧ (true = true ∨ ejected.life.cycled = true) := by decide +kernel
theorem wit_ModesChangeByTheirCauses_20 : (entering booting = true) ∧ (booting.dram.trained = true) ∧ (testOver (advance booting 1) = true) ∧ ((verify booting ([])).bank = some 0) ∧ (hallGone (selfTest (advance booting 1) ([]) ([]) ([])) = false) := ⟨by decide +kernel, by decide +kernel, by decide +kernel, wit_ModesChangeByTheirCauses_2.2.2.2.1, by decide +kernel⟩
theorem wit_ModesChangeByTheirCauses_21 : (entering blankBanks = true) ∧ ((verify blankBanks ([])).bank = none) := by decide +kernel
theorem wit_ModesChangeByTheirCauses_22 : (entering State.reset = true) ∧ (hallGone (selfTest (advance State.reset 1) ([224, 225, 226, 227]) ([]) ([])) = true) := by decide +kernel
theorem wit_ModesChangeByTheirCauses_23 : (10000 * nsUnit ≤ (10000 * nsUnit)) ∧ ((saves 5 3 false).mode = 5) ∧ ((saves 5 3 false).life.saving.isSome = true) := by decide +kernel
theorem wit_ModesChangeByTheirCauses_24 : ((svc.withLife fun l => { l with wdreqHigh := false }).life.rails = true) ∧ ((svc.withLife fun l => { l with wdreqHigh := false }).life.wdreqHigh = false) := by decide +kernel
theorem wit_ModesChangeByTheirCauses_25 : (setup.life.rails = true) ∧ (takes setup 0x0F00 Reg.lifeCtl (0xC0000000 : Word) = true) ∧ (bitOf (0xC0000000 : Word) 31 = true) ∧ (bitOf (0xC0000000 : Word) 29 = false) ∧ (bitOf (0xC0000000 : Word) 28 = false) ∧ (lifeCtlRefused (0xC0000000 : Word) setup = false) := by decide +kernel
theorem wit_ModesChangeByTheirCauses_26 : (setup.life.rails = true) ∧ (takes setup 0x0F00 Reg.lifeCtl (0xA0000000 : Word) = true) ∧ (bitOf (0xA0000000 : Word) 31 = true) ∧ (bitOf (0xA0000000 : Word) 29 = true) ∧ (bitOf (0xA0000000 : Word) 28 = false) ∧ (lifeCtlRefused (0xA0000000 : Word) setup = false) := by decide +kernel
theorem wit_ModesChangeByTheirCauses_27 : (setup.life.rails = true) ∧ (takes setup 0x0F00 Reg.lifeCtl (0x90000000 : Word) = true) ∧ (bitOf (0x90000000 : Word) 31 = true) ∧ (bitOf (0x90000000 : Word) 28 = true) ∧ (lifeCtlRefused (0x90000000 : Word) setup = false) := by decide +kernel
theorem wit_ModesChangeByTheirCauses_28 : (svc.life.rails = true) ∧ (takes svc 0x0F00 Reg.lifeCtl (0x60000000 : Word) = true) ∧ (bitOf (0x60000000 : Word) 31 = false) ∧ (bitOf (0x60000000 : Word) 30 = true) ∧ (bitOf (0x60000000 : Word) 29 = true) ∧ (bitOf (0x60000000 : Word) 28 = false) ∧ (lifeCtlRefused (0x60000000 : Word) svc = false) := by decide +kernel
theorem wit_ModesChangeByTheirCauses_29 : (svc.life.rails = true) ∧ (takes svc 0x0F00 Reg.lifeCtl (0x50000000 : Word) = true) ∧ (bitOf (0x50000000 : Word) 31 = false) ∧ (bitOf (0x50000000 : Word) 30 = true) ∧ (bitOf (0x50000000 : Word) 28 = true) ∧ (lifeCtlRefused (0x50000000 : Word) svc = false) := by decide +kernel
theorem wit_ModesChangeByTheirCauses_30 : (svc.life.rails = true) ∧ (takes svc 0x0F00 Reg.lifeCtl (0x30000000 : Word) = true) ∧ (bitOf (0x30000000 : Word) 31 = false) ∧ (bitOf (0x30000000 : Word) 30 = false) ∧ (bitOf (0x30000000 : Word) 29 = true) ∧ (bitOf (0x30000000 : Word) 28 = true) ∧ (lifeCtlRefused (0x30000000 : Word) svc = false) := by decide +kernel
theorem wit_ModesChangeByTheirCauses_31 : ((parkedH 5).mode = 5) ∧ ((parkedH 5).life.parked = true) ∧ ((parkedH 5).life.dark = false) ∧ (1080 ≤ 1100) ∧ (10 * msUnit ≤ (10 * msUnit)) ∧ (true = true ∨ (parkedH 5).life.cycled = true) := by decide +kernel
theorem wit_SavesTestsAndCauses_1 : ((wdS false).mode = 4) ∧ ((wdS false).life.rails = true) ∧ ((wdS false).life.wdStopped = false) ∧ ((wdS false).life.wdAt + (wdS false).rf Reg.lifeWdCfg 15 0 * msUnit ≤ (wdS false).up + (100 * msUnit * 1000)) := by decide +kernel
theorem wit_SavesTestsAndCauses_2 : ((wdS true).mode = 4) ∧ ((wdS true).life.rails = true) ∧ ((wdS true).life.wdStopped = true) ∧ ((wdS true).life.wdDrained = false) ∧ (depotEmpty (wdS true) = true) := by decide +kernel
theorem wit_SavesTestsAndCauses_3 : (wdFull.mode = 4) ∧ (wdFull.life.rails = true) ∧ (wdFull.life.wdStopped = true) ∧ (wdFull.life.wdDrained = false) ∧ (depotEmpty wdFull = false) ∧ (wdFull.life.wdAt + (wdFull.rf Reg.lifeWdCfg 15 0 + wdFull.rf Reg.lifeWdCfg 31 16) * msUnit ≤ wdFull.up + (200 * msUnit * 1000)) := by decide +kernel
theorem wit_SavesTestsAndCauses_4 : ((saves 4 7 false).mode = 4) ∧ ((saves 4 7 false).life.saving = some (3, im7)) ∧ ((saves 4 7 false).rb Reg.lifeCtl 0 = false) := by decide +kernel
theorem wit_SavesTestsAndCauses_5 : ((saves 4 7 true).mode = 4) ∧ ((saves 4 7 true).life.saving = some (3, im7)) ∧ ((saves 4 7 true).rb Reg.lifeCtl 0 = true) := by decide +kernel
theorem wit_SavesTestsAndCauses_6 : ((saves 5 3 false).mode = 5) ∧ ((saves 5 3 false).life.saving = some (3, im7)) ∧ ((saves 5 3 false).life.holdCause ≠ 6) ∧ ((saves 5 3 false).life.resetHeld = false) := by decide +kernel
theorem wit_SavesTestsAndCauses_7 : ((saves 5 6 false).mode = 5) ∧ ((saves 5 6 false).life.saving = some (3, im7)) ∧ ((saves 5 6 false).life.holdCause = 6) := by decide +kernel
theorem wit_SavesTestsAndCauses_8 : (svc.life.rails = true) ∧ (1 ≤ svc.mode) ∧ (svc.mode ≤ 3) ∧ (svc.rb Reg.ckptCfg 31 = true) ∧ (svc.cellar.ckpt = none) ∧ (svc.cellar.ckptSec < (advance svc secUnit).now / secUnit) := by decide +kernel
theorem wit_SavesTestsAndCauses_9 : (unreadS.life.rails = true) ∧ (unreadS.cellar.ckpt = none) ∧ (unreadS.cellar.unread = some 3) := by decide +kernel
theorem wit_SavesTestsAndCauses_10 : (unreadS.life.rails = true) ∧ (unreadS.cellar.ckpt = none) ∧ (unreadS.cellar.unread = some 3) ∧ (5 < 128) ∧ (unreadS.cellar.remapped.length < 112) := by decide +kernel
theorem wit_SavesTestsAndCauses_11 : (svc.life.rails = true) ∧ (svc.mode ≠ 5) ∧ (svc.rb Reg.lifeHucStat 30 = false) ∧ (svc.rb Reg.lifeHucStat 31 = false) ∧ (svc.rf Reg.lifeHucCfg 7 0 * 10 ≤ 9999) := by decide +kernel
theorem wit_SavesTestsAndCauses_12 : (svc.life.rails = true) ∧ (svc.mode ≠ 5) ∧ (svc.rb Reg.lifeHucStat 30 = false) ∧ (svc.rb Reg.lifeHucStat 31 = false) ∧ (1 < svc.rf Reg.lifeHucCfg 7 0 * 10) ∧ (svc.life.chargeAt + secUnit ≤ svc.up + secUnit) := by decide +kernel
theorem wit_SavesTestsAndCauses_13 : (svc.life.rails = true) ∧ (takes svc 0x0F00 Reg.lifeHucCfg (svc.reg Reg.lifeHucCfg ||| 0x80000000) = true) ∧ (bitOf (svc.reg Reg.lifeHucCfg ||| 0x80000000) 31 = true) ∧ (svc.rb Reg.lifeHucStat 30 = false) := by decide +kernel
theorem wit_SavesTestsAndCauses_14 : ((testing 2).life.rails = true) ∧ ((testing 2).rb Reg.lifeHucStat 30 = true) ∧ (0 < 30000) ∧ ((testing 2).life.testAt + 2 * msUnit ≤ (testing 2).up + (2 * msUnit)) := by decide +kernel
theorem wit_SavesTestsAndCauses_15 : (reducedS.life.rails = true) ∧ (reducedS.rf Reg.lifeMargin0 4 0 = 24) ∧ (reducedS.life.sensorsGoodAt + 10 * secUnit ≤ reducedS.up + (10 * secUnit)) ∧ (reducedS.rf Reg.lifeHealth 6 0 = 32) ∧ (reducedS.mode = 3) := by decide +kernel
theorem wit_SavesTestsAndCauses_16 : (laneS.dataPath = true) ∧ (9 < 128) ∧ (laneS.rb (Reg.laneStat 9) 7 = true) ∧ (laneS.life.lanesFailed.contains (groupLane laneS 9) = false) := by decide +kernel
theorem wit_SavesTestsAndCauses_17 : (((saves 5 3 false).withLife fun l => { l with resetHeld := true, vin := 1200, presentHigh := false, enableHigh := true }).mode = 5) ∧ (((saves 5 3 false).withLife fun l => { l with resetHeld := true, vin := 1200, presentHigh := false, enableHigh := true }).life.saving = some (3, im7)) ∧ (((saves 5 3 false).withLife fun l => { l with resetHeld := true, vin := 1200, presentHigh := false, enableHigh := true }).life.holdCause ≠ 6) ∧ (((saves 5 3 false).withLife fun l => { l with resetHeld := true, vin := 1200, presentHigh := false, enableHigh := true }).life.resetHeld = true) ∧ (1080 ≤ ((saves 5 3 false).withLife fun l => { l with resetHeld := true, vin := 1200, presentHigh := false, enableHigh := true }).life.vin) ∧ (((saves 5 3 false).withLife fun l => { l with resetHeld := true, vin := 1200, presentHigh := false, enableHigh := true }).life.presentHigh = false) ∧ (((saves 5 3 false).withLife fun l => { l with resetHeld := true, vin := 1200, presentHigh := false, enableHigh := true }).life.enableHigh = true) := by decide +kernel
theorem wit_SavesTestsAndCauses_18 : (((advance svc secUnit).settleCkpt).life.rails = true) ∧ (1 ≤ ((advance svc secUnit).settleCkpt).mode) ∧ (((advance svc secUnit).settleCkpt).mode ≤ 3) ∧ (((advance svc secUnit).settleCkpt).rb Reg.ckptCfg 31 = true) ∧ (((advance svc secUnit).settleCkpt).cellar.ckpt = none) ∧ (((advance svc secUnit).settleCkpt).cellar.ckptSec ≠ ((advance svc secUnit).settleCkpt).now / secUnit) := by decide +kernel
theorem wit_SavesTestsAndCauses_19 : (((advance unreadS 1).settleCkpt).life.rails = true) ∧ (((advance unreadS 1).settleCkpt).cellar.unread = some 3) := by decide +kernel
theorem wit_SavesTestsAndCauses_20 : (((testing 0).setRf Reg.lifeHucStat 31 30 2).life.rails = true) ∧ (((testing 0).setRf Reg.lifeHucStat 31 30 2).mode ≠ 5) ∧ (((testing 0).setRf Reg.lifeHucStat 31 30 2).rb Reg.lifeHucStat 30 = false) ∧ (((testing 0).setRf Reg.lifeHucStat 31 30 2).life.testAt + ((testing 0).setRf Reg.lifeHucStat 31 30 2).rf Reg.lifeHucCfg 15 8 * 3600 * secUnit ≤ ((testing 0).setRf Reg.lifeHucStat 31 30 2).up + (255 * 3600 * secUnit)) ∧ (((testing 0).setRf Reg.lifeHucStat 31 30 2).rf Reg.lifeHucCfg 7 0 * 10 ≤ 9999) := by decide +kernel
theorem wit_SavesTestsAndCauses_21 : (reducedS.life.rails = true) ∧ (reducedS.rf Reg.lifeMargin0 4 0 = 24) ∧ (reducedS.life.sensorsGoodAt + 10 * secUnit ≤ reducedS.up + (10 * secUnit)) := by decide +kernel
theorem wit_SavesTestsAndCauses_22 : (laneS.dataPath = true) ∧ (9 < 128) ∧ (laneS.rb (Reg.laneStat 9) 7 = true) := by decide +kernel

/-! ### mailbox -/

/-- Function f's page with a request header (opcode, length, tag) and the request's bytes. -/
def reqIn (f op : Nat) (d : List Byte) (s : State) : State := writeShm (setMbxWord s f 0 (BitVec.ofNat 32 (op * 2 ^ 24 + d.length * 2 ^ 16 + 0x4200))) 81 (0x1F0000 + f * 0x200 + 0x40) d false
/-- That request with the agent. -/
def asked (f op : Nat) (d : List Byte) : State := { (reqIn f op d svc).setRf (Reg.mbxStat f) 31 31 1 with mbxQ := [f] }
/-- Bank A booted. -/
def bankA (s : State) : State := s.setReg Reg.bootStat 0x00F00000
/-- A request with firmware of the Hall thread that TARGET names. -/
def fwAsked : State := { ((((reqIn 1 0x90 [1, 2, 3] svc).setRf (Reg.mbxStat 1) 31 31 1).setRf Reg.mbxCfg 15 0 0xE01).setRf Reg.mbxCfg 23 16 5).setThrState 0xE01 1 with mbxFw := [(1, 0)], mbxStored := [1] }
def deadHall : State := { asked 1 0x01 [] with mbxQ := [1] }.setRf (engStatR 224) 27 27 1
def allDead : State := [224, 225, 226, 227].foldl (fun t e => t.setRf (engStatR e) 27 27 1) ({ asked 1 0x01 [] with mbxQ := [1, 2] }.setRf Reg.mbxCfg 25 24 3)
def keyOf (f : Nat) : State := svc.setKey 0x213 { owner := some (0x0F00 + f), mark := false, waiters := [], lost := false }
theorem wit_MailboxRequestsAreServed_1 : ((reqIn 1 0x01 [1, 2] svc).life.rails = true) ∧ (1 < 16) ∧ (takes (reqIn 1 0x01 [1, 2] svc) 0x0F00 (Reg.mbxCtl 1) (0x80000000 : Word) = true) ∧ (bitOf (0x80000000 : Word) 31 = true) ∧ (mbxBusy (reqIn 1 0x01 [1, 2] svc) 1 = false) ∧ (hallGone (reqIn 1 0x01 [1, 2] svc) = false) ∧ (agentOps.contains (reqOp (reqIn 1 0x01 [1, 2] svc) 1) = true) := by decide +kernel
theorem wit_MailboxRequestsAreServed_2 : (((reqIn 1 0x90 [] svc).setRf Reg.mbxCfg 15 0 0xE01).life.rails = true) ∧ (1 < 16) ∧ (takes ((reqIn 1 0x90 [] svc).setRf Reg.mbxCfg 15 0 0xE01) 0x0F00 (Reg.mbxCtl 1) (0x80000000 : Word) = true) ∧ (bitOf (0x80000000 : Word) 31 = true) ∧ (mbxBusy ((reqIn 1 0x90 [] svc).setRf Reg.mbxCfg 15 0 0xE01) 1 = false) ∧ (hallGone ((reqIn 1 0x90 [] svc).setRf Reg.mbxCfg 15 0 0xE01) = false) ∧ (0x80 ≤ reqOp ((reqIn 1 0x90 [] svc).setRf Reg.mbxCfg 15 0 0xE01) 1) ∧ (((reqIn 1 0x90 [] svc).setRf Reg.mbxCfg 15 0 0xE01).rf Reg.mbxCfg 15 0 ≠ agentThread ((reqIn 1 0x90 [] svc).setRf Reg.mbxCfg 15 0 0xE01)) := by decide +kernel
theorem wit_MailboxRequestsAreServed_3 : ((reqIn 1 0x44 [] svc).life.rails = true) ∧ (1 < 16) ∧ (takes (reqIn 1 0x44 [] svc) 0x0F00 (Reg.mbxCtl 1) (0x80000000 : Word) = true) ∧ (bitOf (0x80000000 : Word) 31 = true) ∧ (mbxBusy (reqIn 1 0x44 [] svc) 1 = false) ∧ (hallGone (reqIn 1 0x44 [] svc) = true ∨ agentOps.contains (reqOp (reqIn 1 0x44 [] svc) 1) = false ∧ reqOp (reqIn 1 0x44 [] svc) 1 < 0x80) := by decide +kernel
theorem wit_MailboxRequestsAreServed_4 : ((asked 1 0x01 []).life.rails = true) ∧ (1 < 16) ∧ (takes (asked 1 0x01 []) 0x0F00 (Reg.mbxCtl 1) (0x80000000 : Word) = true) ∧ (bitOf (0x80000000 : Word) 31 = true) ∧ (mbxBusy (asked 1 0x01 []) 1 = true) := by decide +kernel
theorem wit_MailboxRequestsAreServed_5 : (1 < 16) ∧ (serving (asked 1 0x01 [5, 6, 7]) 0x01 = some 1) := by decide +kernel
theorem wit_MailboxRequestsAreServed_6 : (1 < 16) ∧ (serving (asked 1 0x02 [9, 1]) 0x02 = some 1) ∧ (2 ≤ (reqData (asked 1 0x02 [9, 1]) 1).length) ∧ (((reqData (asked 1 0x02 [9, 1]) 1).getD 1 0).toNat < 16) ∧ (1 = 0 ∨ ((reqData (asked 1 0x02 [9, 1]) 1).getD 1 0).toNat = 1) := by decide +kernel
theorem wit_MailboxRequestsAreServed_7 : (1 < 16) ∧ (serving (asked 1 0x02 [9, 2]) 0x02 = some 1) ∧ (2 ≤ (reqData (asked 1 0x02 [9, 2]) 1).length) ∧ (((reqData (asked 1 0x02 [9, 2]) 1).getD 1 0).toNat < 16) ∧ (1 ≠ 0) ∧ (((reqData (asked 1 0x02 [9, 2]) 1).getD 1 0).toNat ≠ 1) := by decide +kernel
theorem wit_MailboxRequestsAreServed_8 : (serving (asked 0 0x10 []) 0x10 = some 0) := by decide +kernel
theorem wit_MailboxRequestsAreServed_9 : (serving (asked 0 0x11 [0, 16, 0, 0, 3]) 0x11 = some 0) ∧ (5 ≤ (reqData (asked 0 0x11 [0, 16, 0, 0, 3]) 0).length) ∧ (leNat (slice (reqData (asked 0 0x11 [0, 16, 0, 0, 3]) 0) 0 4) = 0x1000) ∧ (((reqData (asked 0 0x11 [0, 16, 0, 0, 3]) 0).getD 4 0).toNat = 3) ∧ (0 < 3) ∧ (3 ≤ 128) ∧ (0x1000 + 3 ≤ 0x10000000) := by decide +kernel
theorem wit_MailboxRequestsAreServed_10 : (serving (bankA (asked 0 0x12 [0, 0, 0, 8])) 0x12 = some 0) ∧ (4 ≤ (reqData (bankA (asked 0 0x12 [0, 0, 0, 8])) 0).length) ∧ (leNat (slice (reqData (bankA (asked 0 0x12 [0, 0, 0, 8])) 0) 0 4) = 0x8000000) ∧ (0x8000000 % 0x10000 = 0) ∧ (0x8000000 < 0x10000000) ∧ (inBooted (bankA (asked 0 0x12 [0, 0, 0, 8])) 0x8000000 = false) := by decide +kernel
theorem wit_MailboxRequestsAreServed_11 : (serving (bankA (asked 0 0x13 ([0, 0, 0, 8] ++ List.replicate 16 3))) 0x13 = some 0) ∧ ((reqData (bankA (asked 0 0x13 ([0, 0, 0, 8] ++ List.replicate 16 3))) 0).length = 4 + 16) ∧ (leNat (slice (reqData (bankA (asked 0 0x13 ([0, 0, 0, 8] ++ List.replicate 16 3))) 0) 0 4) = 0x8000000) ∧ (0x8000000 % 16 = 0) ∧ (16 % 16 = 0) ∧ (16 ≤ 16) ∧ (16 ≤ 112) ∧ (0x8000000 + 16 ≤ 0x10000000) ∧ (inBooted (bankA (asked 0 0x13 ([0, 0, 0, 8] ++ List.replicate 16 3))) 0x8000000 = false) := by decide +kernel
theorem wit_MailboxRequestsAreServed_12 : (serving (bankA (asked 0 0x13 ([0, 0, 0, 0] ++ List.replicate 16 3))) 0x13 = some 0) ∧ ((reqData (bankA (asked 0 0x13 ([0, 0, 0, 0] ++ List.replicate 16 3))) 0).length = 4 + 16) ∧ (leNat (slice (reqData (bankA (asked 0 0x13 ([0, 0, 0, 0] ++ List.replicate 16 3))) 0) 0 4) = 0) ∧ (0 % 16 = 0) ∧ (16 % 16 = 0) ∧ (16 ≤ 16) ∧ (16 ≤ 112) ∧ (0 + 16 ≤ 0x10000000) ∧ (inBooted (bankA (asked 0 0x13 ([0, 0, 0, 0] ++ List.replicate 16 3))) 0 = true) := by decide +kernel
theorem wit_MailboxRequestsAreServed_13 : (serving (asked 0 0x1F []) 0x1F = some 0) ∧ (1 ≤ (asked 0 0x1F []).mode) ∧ ((asked 0 0x1F []).mode ≤ 3) := by decide +kernel
theorem wit_MailboxRequestsAreServed_14 : (0 < 16) ∧ (serving ((asked 0 0x1F []).setRf Reg.lifeMode 2 0 4) 0x1F = some 0) ∧ (4 ≤ ((asked 0 0x1F []).setRf Reg.lifeMode 2 0 4).mode) := by decide +kernel
theorem wit_MailboxRequestsAreServed_15 : (fwAsked.life.rails = true) ∧ ((fwAsked.mbxFw.any fun p => p.1 == 1) = true) ∧ (fwAsked.mbxRung.contains 1 = false) ∧ (thrState fwAsked (fwAsked.rf Reg.mbxCfg 15 0) ≠ 0) ∧ (waitsBell fwAsked (fwAsked.rf Reg.mbxCfg 15 0) = false) := by decide +kernel
theorem wit_MailboxRequestsAreServed_16 : (fwAsked.life.rails = true) ∧ (1 < 16) ∧ (fwAsked.mbxStored.contains 1 = true) ∧ (mbxBusy fwAsked 1 = true) := by decide +kernel
theorem wit_MailboxRequestsAreServed_17 : (({ svc with mbxStored := [1] } : State).life.rails = true) ∧ (({ svc with mbxStored := [1] } : State).mbxStored.contains 1 = true) ∧ (mbxBusy ({ svc with mbxStored := [1] } : State) 1 = false) ∧ ((({ svc with mbxStored := [1] } : State).reg Reg.evtMbxLateCnt).toNat < 0xFFFFFFFE) := by decide +kernel
theorem wit_MailboxRequestsAreServed_18 : (fwAsked.life.rails = true) ∧ (1 < 16) ∧ (fwAsked.mbxFw.find? (fun p => p.1 == 1) = some (1, 0)) ∧ (0 + fwAsked.rf Reg.mbxCfg 23 16 * msUnit ≤ fwAsked.up + (5 * msUnit)) := by decide +kernel
theorem wit_MailboxRequestsAreServed_19 : (deadHall.life.rails = true) ∧ (1 < 16) ∧ (deadHall.mbxQ = 1 :: ([])) ∧ (engFailed deadHall (agentEngine deadHall) = true) ∧ ([224, 225, 226, 227].find? (fun k => decide (agentEngine deadHall < k) && !engFailed deadHall k) = some 225) := by decide +kernel
theorem wit_MailboxRequestsAreServed_20 : ((asked 1 0x01 []).life.rails = true) ∧ (1 < 16) ∧ (((asked 1 0x01 []).keys.keys.all fun p => p.2.owner != some (0x0F00 + 1)) = true) := by decide +kernel
theorem wit_MailboxRequestsAreServed_21 : ((keyOf 3).life.rails = true) ∧ (3 < 16) ∧ ((keyOf 3).keys.keys = [(0x213, { owner := some (0x0F00 + 3), mark := false, waiters := [], lost := false })]) := by decide +kernel
theorem wit_MailboxRequestsAreServed_22 : (((reqIn 1 0x90 [] svc).setRf Reg.mbxCfg 15 0 0xE0F).life.rails = true) ∧ (1 < 16) ∧ (takes ((reqIn 1 0x90 [] svc).setRf Reg.mbxCfg 15 0 0xE0F) 0x0F00 (Reg.mbxCtl 1) (0x80000000 : Word) = true) ∧ (bitOf (0x80000000 : Word) 31 = true) ∧ (mbxBusy ((reqIn 1 0x90 [] svc).setRf Reg.mbxCfg 15 0 0xE0F) 1 = false) ∧ (agentOps.contains (reqOp ((reqIn 1 0x90 [] svc).setRf Reg.mbxCfg 15 0 0xE0F) 1) = false) ∧ (((reqIn 1 0x90 [] svc).setRf Reg.mbxCfg 15 0 0xE0F).rf Reg.mbxCfg 15 0 = agentThread ((reqIn 1 0x90 [] svc).setRf Reg.mbxCfg 15 0 0xE0F)) := by decide +kernel
theorem wit_MailboxRequestsAreServed_23 : (1 < 16) ∧ (serving (asked 1 0x02 [9]) 0x02 = some 1) ∧ ((reqData (asked 1 0x02 [9]) 1).length < 2 ∨ 16 ≤ ((reqData (asked 1 0x02 [9]) 1).getD 1 0).toNat) := by decide +kernel
theorem wit_MailboxRequestsAreServed_24 : (1 < 16) ∧ (1 ≠ 0) ∧ (serving (asked 1 0x10 []) 0x10 = some 1) := by decide +kernel
theorem wit_MailboxRequestsAreServed_25 : (1 < 16) ∧ (1 ≠ 0) ∧ (serving (asked 1 0x11 []) 0x11 = some 1) := by decide +kernel
theorem wit_MailboxRequestsAreServed_26 : (1 < 16) ∧ (1 ≠ 0) ∧ (serving (asked 1 0x12 []) 0x12 = some 1) := by decide +kernel
theorem wit_MailboxRequestsAreServed_27 : (1 < 16) ∧ (1 ≠ 0) ∧ (serving (asked 1 0x13 []) 0x13 = some 1) := by decide +kernel
theorem wit_MailboxRequestsAreServed_28 : (serving (asked 0 0x11 [0, 16, 0, 0, 129]) 0x11 = some 0) ∧ ((reqData (asked 0 0x11 [0, 16, 0, 0, 129]) 0).length < 5 ∨ ((reqData (asked 0 0x11 [0, 16, 0, 0, 129]) 0).getD 4 0).toNat = 0 ∨ 128 < ((reqData (asked 0 0x11 [0, 16, 0, 0, 129]) 0).getD 4 0).toNat ∨ 0x10000000 < leNat (slice (reqData (asked 0 0x11 [0, 16, 0, 0, 129]) 0) 0 4) + ((reqData (asked 0 0x11 [0, 16, 0, 0, 129]) 0).getD 4 0).toNat) := by decide +kernel
theorem wit_MailboxRequestsAreServed_29 : (serving (asked 0 0x11 [253, 255, 255, 15, 3]) 0x11 = some 0) ∧ (5 ≤ (reqData (asked 0 0x11 [253, 255, 255, 15, 3]) 0).length) ∧ (leNat (slice (reqData (asked 0 0x11 [253, 255, 255, 15, 3]) 0) 0 4) = 0xFFFFFFD) ∧ (((reqData (asked 0 0x11 [253, 255, 255, 15, 3]) 0).getD 4 0).toNat = 3) ∧ (0 < 3) ∧ (3 ≤ 128) ∧ (0xFFFFFFD + 3 ≤ 0x10000000) := by decide +kernel
theorem wit_MailboxRequestsAreServed_30 : (serving (asked 0 0x12 [0, 0, 0, 16]) 0x12 = some 0) ∧ ((reqData (asked 0 0x12 [0, 0, 0, 16]) 0).length < 4 ∨ leNat (slice (reqData (asked 0 0x12 [0, 0, 0, 16]) 0) 0 4) % 0x10000 ≠ 0 ∨ 0x10000000 ≤ leNat (slice (reqData (asked 0 0x12 [0, 0, 0, 16]) 0) 0 4)) := by decide +kernel
theorem wit_MailboxRequestsAreServed_31 : (serving (bankA (asked 0 0x12 [0, 0, 255, 7])) 0x12 = some 0) ∧ (4 ≤ (reqData (bankA (asked 0 0x12 [0, 0, 255, 7])) 0).length) ∧ (leNat (slice (reqData (bankA (asked 0 0x12 [0, 0, 255, 7])) 0) 0 4) = 0x7FF0000) ∧ (0x7FF0000 % 0x10000 = 0) ∧ (0x7FF0000 < 0x10000000) ∧ (inBooted (bankA (asked 0 0x12 [0, 0, 255, 7])) 0x7FF0000 = true ∨ true = true) := by decide +kernel
theorem wit_MailboxRequestsAreServed_32 : (serving (asked 0 0x13 ([0, 0, 0, 8] ++ List.replicate 15 3)) 0x13 = some 0) ∧ ((reqData (asked 0 0x13 ([0, 0, 0, 8] ++ List.replicate 15 3)) 0).length < 20 ∨ 116 < (reqData (asked 0 0x13 ([0, 0, 0, 8] ++ List.replicate 15 3)) 0).length ∨ ((reqData (asked 0 0x13 ([0, 0, 0, 8] ++ List.replicate 15 3)) 0).length - 4) % 16 ≠ 0 ∨ leNat (slice (reqData (asked 0 0x13 ([0, 0, 0, 8] ++ List.replicate 15 3)) 0) 0 4) % 16 ≠ 0 ∨ 0x10000000 < leNat (slice (reqData (asked 0 0x13 ([0, 0, 0, 8] ++ List.replicate 15 3)) 0) 0 4) + ((reqData (asked 0 0x13 ([0, 0, 0, 8] ++ List.replicate 15 3)) 0).length - 4)) := by decide +kernel
theorem wit_MailboxRequestsAreServed_33 : (serving (bankA (asked 0 0x13 ([0, 0, 0, 8] ++ List.replicate 112 3))) 0x13 = some 0) ∧ ((reqData (bankA (asked 0 0x13 ([0, 0, 0, 8] ++ List.replicate 112 3))) 0).length = 4 + 112) ∧ (leNat (slice (reqData (bankA (asked 0 0x13 ([0, 0, 0, 8] ++ List.replicate 112 3))) 0) 0 4) = 0x8000000) ∧ (0x8000000 % 16 = 0) ∧ (112 % 16 = 0) ∧ (16 ≤ 112) ∧ (112 ≤ 112) ∧ (0x8000000 + 112 ≤ 0x10000000) ∧ (inBooted (bankA (asked 0 0x13 ([0, 0, 0, 8] ++ List.replicate 112 3))) 0x8000000 = false) := by decide +kernel
theorem wit_MailboxRequestsAreServed_34 : (serving ((asked 0 0x1F []).setRf Reg.lifeMode 2 0 0) 0x1F = some 0) ∧ (((asked 0 0x1F []).setRf Reg.lifeMode 2 0 0).mode = 0) := by decide +kernel
theorem wit_MailboxRequestsAreServed_35 : (fwAsked.life.rails = true) ∧ ((fwAsked.mbxFw.any fun p => p.1 == 1) = true) ∧ (fwAsked.mbxRung.contains 1 = false) := by decide +kernel
theorem wit_MailboxRequestsAreServed_36 : (({ fwAsked with mbxRung := [1] } : State).life.rails = true) ∧ (({ fwAsked with mbxRung := [1] } : State).mbxRung.contains 1 = true) := by decide +kernel
theorem wit_MailboxRequestsAreServed_37 : (({ svc with mbxStored := [1] } : State).life.rails = true) ∧ (({ svc with mbxStored := [1] } : State).mbxStored.contains 1 = true) ∧ (mbxBusy ({ svc with mbxStored := [1] } : State) 1 = false) := by decide +kernel
theorem wit_MailboxRequestsAreServed_38 : (({ deadHall with mbxQ := [] } : State).life.rails = true) ∧ (({ deadHall with mbxQ := [] } : State).mbxQ = []) ∧ (engFailed ({ deadHall with mbxQ := [] } : State) (agentEngine ({ deadHall with mbxQ := [] } : State)) = true) ∧ ([224, 225, 226, 227].find? (fun k => decide (agentEngine ({ deadHall with mbxQ := [] } : State) < k) && !engFailed ({ deadHall with mbxQ := [] } : State) k) = some 225) := by decide +kernel
theorem wit_MailboxRequestsAreServed_39 : (allDead.life.rails = true) ∧ ((allDead.mbxQ.all fun g => decide (g < 16)) = true) ∧ (allDead.mbxQ = 1 :: ([2])) ∧ (hallGone allDead = true) ∧ (engFailed allDead (agentEngine allDead) = true) ∧ ([224, 225, 226, 227].find? (fun k => decide (agentEngine allDead < k) && !engFailed allDead k) = none) := by decide +kernel
theorem wit_MailboxRequestsAreServed_40 : ((keyOf 3).life.rails = true) ∧ (3 < 16) := by decide +kernel

/-! ### events -/

/-- An alarm of a severity, and an open summary slot. -/
def alm (sev : Nat) : Alarm := { mkAlarm svc 0x0502 82 1 2 0 0 with sev := sev }
def evtS (f : EvtSt → EvtSt) (s : State) : State := { s with evt := f s.evt }
def boxed (sev : Nat) : State := evtS (fun e => { e with inbox := [alm sev] }) svc
def fromIsland : State := ((svc.setHatch (hatchNo 0x14 5) { (svc.hatch (hatchNo 0x14 5)) with gFifo := [⟨.alarm (alm 1), 0, false⟩] }).setReg Reg.logCfg 0x8C000000).setRf Reg.dramStat 30 30 1
def fullQ : State := evtS (fun e => { e with queue := List.replicate 1023 (alm 1) ++ [alm 3] }) (boxed 2)
def trcOn (n : Nat) : State := evtS (fun e => { e with trcIn := [[7, 8, 9, 10]] }) (((svc.setReg Reg.trcCfg 0x80000000).setReg Reg.trcRptr (BitVec.ofNat 32 n)).setReg Reg.trcWptr 4)
def msixS (mask : Nat) : State := evtS (fun e => { e with msixPend := [(2, 3)], msixSince := [(2, 0)] }) ((svc.setReg (msixMod 2) 5).setRf (Reg.msixTable 0 11) 0 0 mask)
def attnS : State := svc.setRf Reg.attnCfg 31 31 1
def statS : State := { svc with stats := [(0x80800, 5), (0x80801, 0x100000007)] }
def cntS : State := (svc.setReg Reg.evtMbxLateCnt 9).setReg Reg.courAlarmCfg 3
theorem wit_EventsAreRecordedAndCounted_1 : ((boxed 2).life.rails = true) ∧ ((boxed 2).evt.inbox = (alm 2) :: ([])) ∧ ((boxed 2).evt.logGap.count = 0) ∧ ((boxed 2).evt.queue.length < 1024) := by decide +kernel
theorem wit_EventsAreRecordedAndCounted_2 : (fromIsland.life.rails = true) ∧ (5 ≠ 81) ∧ (hatchExists (hatchNo 0x14 5) = true) ∧ ((fromIsland.hatch (hatchNo 0x14 5)).front = some ((⟨.alarm (alm 1), 0, false⟩ : HEntry))) ∧ (((⟨.alarm (alm 1), 0, false⟩ : HEntry)).pay = .alarm (alm 1)) ∧ (fromIsland.rb Reg.courAlarmCfg 31 = false) ∧ (fromIsland.evt.logGap.count = 0) ∧ (fromIsland.evt.queue.length < 1024) ∧ (fromIsland.rb Reg.logCfg 31 = true) ∧ (fromIsland.dramReady = true) ∧ ((alm 1).sev ≤ fromIsland.rf Reg.logCfg 27 26) ∧ (fromIsland.evt.logQ.length < 512) ∧ (fromIsland.rf Reg.logWptr 20 0 < 2097151) := by decide +kernel
theorem wit_EventsAreRecordedAndCounted_3 : (fullQ.life.rails = true) ∧ (fullQ.evt.inbox = (alm 2) :: ([])) ∧ (fullQ.evt.logGap.count = 0) ∧ (fullQ.evt.queue = (List.replicate 1023 (alm 1)) ++ [(alm 3)]) ∧ ((List.replicate 1023 (alm 1)).length = 1023) ∧ ((alm 2).sev < (alm 3).sev) ∧ ((∀ x ∈ (List.replicate 1023 (alm 1)), x.sev ≤ (alm 3).sev)) ∧ ((fullQ.reg Reg.evtCoalesceCnt).toNat < 0xFFFFFFFE) := by decide +kernel
theorem wit_EventsAreRecordedAndCounted_4 : ((evtS (fun e => { e with queue := [alm 2, alm 1, alm 1] }) svc).life.rails = true) ∧ (reaches (evtS (fun e => { e with queue := [alm 2, alm 1, alm 1] }) svc) 0x0F00 (Reg.alqW 0) = true) ∧ ((evtS (fun e => { e with queue := [alm 2, alm 1, alm 1] }) svc).evt.queue = ([alm 2]) ++ (alm 1) :: ([alm 1])) ∧ ((alm 1).sev ≤ 3) ∧ ((∀ x ∈ ([alm 2]), (alm 1).sev < x.sev)) ∧ ((∀ x ∈ ([alm 1]), (alm 1).sev ≤ x.sev)) ∧ ((evtS (fun e => { e with queue := [alm 2, alm 1, alm 1] }) svc).evt.slots = []) := by decide +kernel
theorem wit_EventsAreRecordedAndCounted_5 : (svc.life.rails = true) ∧ (reaches svc 0x0F00 (Reg.alqW 0) = true) ∧ (svc.evt.queue = []) := by decide +kernel
theorem wit_EventsAreRecordedAndCounted_6 : ((evtS (fun e => { e with queue := [alm 2], slots := [openSlot (alm 3)] }) svc).life.rails = true) ∧ (reaches (evtS (fun e => { e with queue := [alm 2], slots := [openSlot (alm 3)] }) svc) 0x0F00 (Reg.alqW 0) = true) ∧ ((evtS (fun e => { e with queue := [alm 2], slots := [openSlot (alm 3)] }) svc).evt.queue = [(alm 2)]) ∧ ((alm 2).sev ≤ 3) ∧ ((evtS (fun e => { e with queue := [alm 2], slots := [openSlot (alm 3)] }) svc).evt.slots = (openSlot (alm 3)) :: ([])) := by decide +kernel
theorem wit_EventsAreRecordedAndCounted_7 : ((trcOn 0).life.rails = true) ∧ ((trcOn 0).evt.trcIn = (([7, 8, 9, 10] : List Word)) :: ([])) ∧ ((trcOn 0).rb Reg.trcCfg 31 = true) ∧ ((trcOn 0).evt.trcGap.count = 0) ∧ (trcRoom (trcOn 0) = true) := by decide +kernel
theorem wit_EventsAreRecordedAndCounted_8 : ((trcOn 5).life.rails = true) ∧ ((trcOn 5).evt.trcIn = (([7, 8, 9, 10] : List Word)) :: ([])) ∧ ((trcOn 5).rb Reg.trcCfg 31 = true) ∧ ((trcOn 5).evt.trcGap.count = 0) ∧ (trcRoom (trcOn 5) = false) ∧ (((trcOn 5).reg Reg.evtTrcDropCnt).toNat < 0xFFFFFFFE) := by decide +kernel
theorem wit_EventsAreRecordedAndCounted_9 : ((trcOn 0).life.rails = true) ∧ (reaches (trcOn 0) 0x0F00 Reg.trcMark = true) ∧ ((trcOn 0).rb Reg.trcCfg 31 = true) ∧ ((trcOn 0).evt.trcGap.count = 0) ∧ (trcRoom (trcOn 0) = true) := by decide +kernel
theorem wit_EventsAreRecordedAndCounted_10 : ((msixS 0).life.rails = true) ∧ ([0, 2, 3].contains 2 = true) ∧ ((msixS 0).evt.msixSince.find? (fun p => p.1 == 2) = some (2, 0)) ∧ (0 + (msixS 0).rf (msixMod 2) 15 0 * 1000 * nsUnit ≤ (msixS 0).up + (5000 * nsUnit)) ∧ ((msixS 0).rb (Reg.msixTable 0 (4 * 2 + 3)) 0 = false) := by decide +kernel
theorem wit_EventsAreRecordedAndCounted_11 : ((msixS 1).life.rails = true) ∧ ([0, 2, 3].contains 2 = true) ∧ ((msixS 1).evt.msixSince.find? (fun p => p.1 == 2) = some (2, 0)) ∧ (0 + (msixS 1).rf (msixMod 2) 15 0 * 1000 * nsUnit ≤ (msixS 1).up + (5000 * nsUnit)) ∧ ((msixS 1).rb (Reg.msixTable 0 (4 * 2 + 3)) 0 = true) := by decide +kernel
theorem wit_EventsAreRecordedAndCounted_12 : (attnS.life.rails = true) ∧ (attnDriven attnS = !false) := by decide +kernel
theorem wit_EventsAreRecordedAndCounted_13 : (attnS.life.rails = true) ∧ (attnDriven attnS = true) ∧ (attnS.evt.attnMismatch = false) ∧ ((attnS.reg Reg.evtAttnMisCnt).toNat < 0xFFFFFFFE) := by decide +kernel
theorem wit_EventsAreRecordedAndCounted_14 : (statS.life.rails = true) ∧ (delivers statS 0x0F00 0x80800 (0x80000000 : Word) = true) ∧ (statSet 0x80800 = some 25) ∧ (bitOf (0x80000000 : Word) 31 = true) ∧ (bitOf (0x80000000 : Word) 30 = false) := by decide +kernel
theorem wit_EventsAreRecordedAndCounted_15 : (statS.life.rails = true) ∧ (delivers statS 0x0F00 0x80800 (0xC0000000 : Word) = true) ∧ (statSet 0x80800 = some 25) ∧ (bitOf (0xC0000000 : Word) 31 = true) ∧ (bitOf (0xC0000000 : Word) 30 = true) := by decide +kernel
theorem wit_EventsAreRecordedAndCounted_16 : (cntS.life.rails = true) ∧ (takes cntS 0x0F00 Reg.cntClr (0xA0000000 : Word) = true) ∧ (bitOf (0xA0000000 : Word) 31 = true) := by decide +kernel
theorem wit_EventsAreRecordedAndCounted_17 : (fullQ.life.rails = true) ∧ (fullQ.evt.inbox = (alm 2) :: ([])) := by decide +kernel
theorem wit_EventsAreRecordedAndCounted_18 : (fromIsland.life.rails = true) ∧ (5 ≠ 81) ∧ (hatchExists (hatchNo 0x14 5) = true) ∧ ((fromIsland.hatch (hatchNo 0x14 5)).front = some ((⟨.alarm (alm 1), 0, false⟩ : HEntry))) ∧ (((⟨.alarm (alm 1), 0, false⟩ : HEntry)).pay = .alarm (alm 1)) := by decide +kernel
theorem wit_EventsAreRecordedAndCounted_19 : ((evtS (fun e => { e with queue := [alm 2, alm 1, alm 1], slots := [openSlot (alm 3)] }) svc).life.rails = true) ∧ (reaches (evtS (fun e => { e with queue := [alm 2, alm 1, alm 1], slots := [openSlot (alm 3)] }) svc) 0x0F00 (Reg.alqW 0) = true) ∧ ((evtS (fun e => { e with queue := [alm 2, alm 1, alm 1], slots := [openSlot (alm 3)] }) svc).evt.queue = ([alm 2]) ++ (alm 1) :: ([alm 1])) ∧ ((alm 1).sev ≤ 3) ∧ ((∀ x ∈ ([alm 2]), (alm 1).sev < x.sev)) ∧ ((∀ x ∈ ([alm 1]), (alm 1).sev ≤ x.sev)) := by decide +kernel
theorem wit_EventsAreRecordedAndCounted_20 : (((trcOn 0).setReg Reg.trcCfg 0).life.rails = true) ∧ (((trcOn 0).setReg Reg.trcCfg 0).evt.trcIn = (([7, 8, 9, 10] : List Word)) :: ([])) ∧ (((trcOn 0).setReg Reg.trcCfg 0).rb Reg.trcCfg 31 = false) ∧ ((((trcOn 0).setReg Reg.trcCfg 0).reg Reg.wshopLogDropCnt).toNat < 0xFFFFFFFE) := by decide +kernel
theorem wit_EventsAreRecordedAndCounted_21 : ((evtS (fun e => { e with trcGap := ⟨2, 3, 4⟩ }) (trcOn 0)).life.rails = true) ∧ ((evtS (fun e => { e with trcGap := ⟨2, 3, 4⟩ }) (trcOn 0)).evt.trcIn = (([7, 8, 9, 10] : List Word)) :: ([])) ∧ ((evtS (fun e => { e with trcGap := ⟨2, 3, 4⟩ }) (trcOn 0)).rb Reg.trcCfg 31 = true) ∧ ((evtS (fun e => { e with trcGap := ⟨2, 3, 4⟩ }) (trcOn 0)).evt.trcGap.count ≠ 0) ∧ (trcRoom (evtS (fun e => { e with trcGap := ⟨2, 3, 4⟩ }) (trcOn 0)) = true) ∧ (trcRoom (evtS (fun e => { e with trcGap := ⟨2, 3, 4⟩ }) (trcOn 0)).traceGap = true) := by decide +kernel
theorem wit_EventsAreRecordedAndCounted_22 : (svc.life.rails = true) ∧ (reaches svc 0x0F00 Reg.trcMark = true) ∧ (svc.rb Reg.trcCfg 31 = false) := by decide +kernel
theorem wit_EventsAreRecordedAndCounted_23 : ((trcOn 5).life.rails = true) ∧ (reaches (trcOn 5) 0x0F00 Reg.trcMark = true) ∧ ((trcOn 5).rb Reg.trcCfg 31 = true) ∧ (trcRoom (trcOn 5) = false) ∧ (((trcOn 5).reg Reg.evtTrcDropCnt).toNat < 0xFFFFFFFE) := by decide +kernel
theorem wit_EventsAreRecordedAndCounted_24 : ((evtS (fun e => { e with attnMismatch := true }) attnS).life.rails = true) ∧ (attnDriven (evtS (fun e => { e with attnMismatch := true }) attnS) = true) ∧ ((evtS (fun e => { e with attnMismatch := true }) attnS).evt.attnMismatch = true) := by decide +kernel
theorem wit_EventsAreRecordedAndCounted_25 : ((svc.setRf Reg.attnCfg 30 30 1).life.rails = true) ∧ (attnDriven (svc.setRf Reg.attnCfg 30 30 1) = false) ∧ ((svc.setRf Reg.attnCfg 30 30 1).rb Reg.attnCfg 30 = true) := by decide +kernel
theorem wit_EventsAreRecordedAndCounted_26 : ((svc.setRf Reg.attnCfg 30 30 0).life.rails = true) ∧ (attnDriven (svc.setRf Reg.attnCfg 30 30 0) = false) ∧ ((svc.setRf Reg.attnCfg 30 30 0).rb Reg.attnCfg 30 = false) ∧ ((svc.setRf Reg.attnCfg 30 30 0).evt.attnMismatch = false) ∧ (((svc.setRf Reg.attnCfg 30 30 0).reg Reg.evtAttnMisCnt).toNat < 0xFFFFFFFE) := by decide +kernel

/-! ### buses -/

/-- The side bus in a state, with its registers of slot 0; an MDIO controller with its command. -/
def sbS (st : Nat) (cmd stat0 stat1 : Word) (b : SbSt) : State :=
  { ((((svc.setRf Reg.sbCfg 31 31 1).setRf Reg.sbCfg 29 28 st).setReg (Reg.sbCmd 0) cmd).setReg (Reg.sbStat 0) stat0).setReg (Reg.sbStat 1) stat1 with sb := b }
def mdS (cmd : Word) : State := (svc.setRf (Reg.mdioCfg 1) 31 31 1).setReg (Reg.mdioCmd 1) cmd
/-- Engine 5 selected with tag 7 for writes. -/
def win : State := (svc.setReg Reg.iwEng 5).setReg Reg.iwTag 7
def winPort : State := net.setReg Reg.iwPort 4
def sysHeld : State := svc.setRf Reg.epochStatus 18 16 2
def aesS : State := { winPort with keySlots := [(3, { typ := 1, tenancy := portTenancy winPort 4 false, persist := false, len := 16, data := List.replicate 16 1 })] }
theorem wit_SideBusAndMdio_1 : ((sbS 0 0 0 0 {}).life.rails = true) ∧ (0 < 2) ∧ (takes (sbS 0 0 0 0 {}) 0x0F00 (Reg.sbCmd 0) (0x80000200 : Word) = true) ∧ (bitOf (0x80000200 : Word) 31 = true) ∧ (sbBusy (sbS 0 0 0 0 {}) 0 = false) ∧ ((sbS 0 0 0 0 {}).rb Reg.sbCfg 31 = true) ∧ (sbState (sbS 0 0 0 0 {}) = 0) ∧ (sbBusy (sbS 0 0 0 0 {}) (1 - 0) = false) ∧ (fld (0x80000200 : Word) 30 29 = 0) ∧ (fld (0x80000200 : Word) 15 8 ≠ 0) := by decide +kernel
theorem wit_SideBusAndMdio_2 : ((sbS 0 0 0 0 {}).life.rails = true) ∧ (0 < 2) ∧ (takes (sbS 0 0 0 0 {}) 0x0F00 (Reg.sbCmd 0) (0xA0000003 : Word) = true) ∧ (bitOf (0xA0000003 : Word) 31 = true) ∧ (sbBusy (sbS 0 0 0 0 {}) 0 = false) ∧ ((sbS 0 0 0 0 {}).rb Reg.sbCfg 31 = true) ∧ (sbState (sbS 0 0 0 0 {}) = 0) ∧ (sbBusy (sbS 0 0 0 0 {}) (1 - 0) = false) ∧ (fld (0xA0000003 : Word) 30 29 = 1) ∧ (fld (0xA0000003 : Word) 7 0 ≠ 0) := by decide +kernel
theorem wit_SideBusAndMdio_3 : ((sbS 0 0 0 0 {}).life.rails = true) ∧ (0 < 2) ∧ (takes (sbS 0 0 0 0 {}) 0x0F00 (Reg.sbCmd 0) (0xC0000203 : Word) = true) ∧ (bitOf (0xC0000203 : Word) 31 = true) ∧ (sbBusy (sbS 0 0 0 0 {}) 0 = false) ∧ ((sbS 0 0 0 0 {}).rb Reg.sbCfg 31 = true) ∧ (sbState (sbS 0 0 0 0 {}) = 0) ∧ (sbBusy (sbS 0 0 0 0 {}) (1 - 0) = false) ∧ (fld (0xC0000203 : Word) 30 29 = 2) ∧ (fld (0xC0000203 : Word) 15 8 ≠ 0) ∧ (fld (0xC0000203 : Word) 7 0 ≠ 0) := by decide +kernel
theorem wit_SideBusAndMdio_4 : ((sbS 1 0 0 0 {}).life.rails = true) ∧ (0 < 2) ∧ (takes (sbS 1 0 0 0 {}) 0x0F00 (Reg.sbCmd 0) (0x80000200 : Word) = true) ∧ (bitOf (0x80000200 : Word) 31 = true) ∧ (sbBusy (sbS 1 0 0 0 {}) 0 = false) ∧ ((sbS 1 0 0 0 {}).rb Reg.sbCfg 31 = true) ∧ (sbState (sbS 1 0 0 0 {}) = 1) ∧ (fld (0x80000200 : Word) 30 29 = 0) ∧ (fld (0x80000200 : Word) 15 8 ≠ 0) := by decide +kernel
theorem wit_SideBusAndMdio_5 : ((sbS 3 0 0 0 {}).life.rails = true) ∧ (0 < 2) ∧ (takes (sbS 3 0 0 0 {}) 0x0F00 (Reg.sbCmd 0) (0xA0000003 : Word) = true) ∧ (bitOf (0xA0000003 : Word) 31 = true) ∧ (sbBusy (sbS 3 0 0 0 {}) 0 = false) ∧ ((sbS 3 0 0 0 {}).rb Reg.sbCfg 31 = true) ∧ (sbState (sbS 3 0 0 0 {}) = 3) ∧ (fld (0xA0000003 : Word) 30 29 = 1) := by decide +kernel
theorem wit_SideBusAndMdio_6 : ((sbS 0 0 0x80000000 0 {}).life.rails = true) ∧ (0 < 2) ∧ (takes (sbS 0 0 0x80000000 0 {}) 0x0F00 (Reg.sbCmd 0) (0xC0000203 : Word) = true) ∧ (bitOf (0xC0000203 : Word) 31 = true) ∧ (fld (0xC0000203 : Word) 30 29 = 2) ∧ (sbBusy (sbS 0 0 0x80000000 0 {}) 0 = true ∨ (sbS 0 0 0x80000000 0 {}).rb Reg.sbCfg 31 = false) := by decide +kernel
theorem wit_SideBusAndMdio_7 : ((sbS 1 0x20000003 0x80000000 0 { active := some 0, last := 0 }).life.rails = true) ∧ (0 < 2) ∧ (sbState (sbS 1 0x20000003 0x80000000 0 { active := some 0, last := 0 }) = 1) ∧ ((sbS 1 0x20000003 0x80000000 0 { active := some 0, last := 0 }).sb.active = some 0) ∧ ((sbS 1 0x20000003 0x80000000 0 { active := some 0, last := 0 }).rf (Reg.sbCmd 0) 30 29 ≠ 0) ∧ ((([1, 2, 3] : List Byte)).length = (sbS 1 0x20000003 0x80000000 0 { active := some 0, last := 0 }).rf (Reg.sbCmd 0) 7 0) ∧ ((([1, 2, 3] : List Byte)).length ≤ 32) ∧ ((sbS 1 0x20000003 0x80000000 0 { active := some 0, last := 0 }).sb.last = 0) ∧ (sbBusy (sbS 1 0x20000003 0x80000000 0 { active := some 0, last := 0 }) (1 - 0) = false) := by decide +kernel
theorem wit_SideBusAndMdio_8 : ((sbS 1 0x20000003 0x80000000 0x80000000 { active := some 0, last := 0 }).life.rails = true) ∧ (0 < 2) ∧ (sbState (sbS 1 0x20000003 0x80000000 0x80000000 { active := some 0, last := 0 }) = 1) ∧ ((sbS 1 0x20000003 0x80000000 0x80000000 { active := some 0, last := 0 }).sb.active = some 0) ∧ ((sbS 1 0x20000003 0x80000000 0x80000000 { active := some 0, last := 0 }).sb.last = 0) ∧ (sbBusy (sbS 1 0x20000003 0x80000000 0x80000000 { active := some 0, last := 0 }) (1 - 0) = true) := by decide +kernel
theorem wit_SideBusAndMdio_9 : ((sbS 1 0x20000003 0x80000000 0 { active := some 0, last := 0 }).life.rails = true) ∧ (0 < 2) ∧ (sbState (sbS 1 0x20000003 0x80000000 0 { active := some 0, last := 0 }) = 1) ∧ ((sbS 1 0x20000003 0x80000000 0 { active := some 0, last := 0 }).sb.active = some 0) := by decide +kernel
theorem wit_SideBusAndMdio_10 : ((sbS 2 0 0 0 {}).life.rails = true) ∧ ((sbS 2 0 0 0 {}).rb Reg.sbCfg 31 = true) ∧ (sbState (sbS 2 0 0 0 {}) = 2) ∧ ((sbS 2 0 0 0 {}).sb.tries = 0) ∧ ((sbS 2 0 0 0 {}).sb.triedAt ≤ (sbS 2 0 0 0 {}).up + 1) ∧ (sbBusy (sbS 2 0 0 0 {}) 0 = false) ∧ (sbBusy (sbS 2 0 0 0 {}) 1 = false) ∧ (((sbS 2 0 0 0 {}).reg Reg.evtSbRecoverCnt).toNat < 0xFFFFFFFE) := by decide +kernel
theorem wit_SideBusAndMdio_11 : ((sbS 2 0 0 0x80000000 { tries := 2 }).life.rails = true) ∧ ((sbS 2 0 0 0x80000000 { tries := 2 }).rb Reg.sbCfg 31 = true) ∧ (sbState (sbS 2 0 0 0x80000000 { tries := 2 }) = 2) ∧ ((sbS 2 0 0 0x80000000 { tries := 2 }).sb.tries = 2) ∧ ((sbS 2 0 0 0x80000000 { tries := 2 }).sb.triedAt + msUnit ≤ (sbS 2 0 0 0x80000000 { tries := 2 }).up + msUnit) := by decide +kernel
theorem wit_SideBusAndMdio_12 : ((mdS 0).life.rails = true) ∧ (1 < 4) ∧ (takes (mdS 0) 0x0F00 (Reg.mdioCmd 1) (0x81000000 : Word) = true) ∧ (bitOf (0x81000000 : Word) 31 = true) ∧ (bitOf (0x81000000 : Word) 26 = false) ∧ (fld (0x81000000 : Word) 25 24 = 1) ∧ ((mdS 0).rb (Reg.mdioCmd 1) 30 = false) ∧ ((mdS 0).rb (Reg.mdioCfg 1) 31 = true) := by decide +kernel
theorem wit_SideBusAndMdio_13 : ((mdS 0).life.rails = true) ∧ (1 < 4) ∧ (takes (mdS 0) 0x0F00 (Reg.mdioCmd 1) (0x82000000 : Word) = true) ∧ (bitOf (0x82000000 : Word) 31 = true) ∧ (bitOf (0x82000000 : Word) 26 = false) ∧ (fld (0x82000000 : Word) 25 24 = 2) ∧ ((mdS 0).rb (Reg.mdioCmd 1) 30 = false) ∧ ((mdS 0).rb (Reg.mdioCfg 1) 31 = true) := by decide +kernel
theorem wit_SideBusAndMdio_14 : ((mdS 0).life.rails = true) ∧ (1 < 4) ∧ (takes (mdS 0) 0x0F00 (Reg.mdioCmd 1) (0x84000000 : Word) = true) ∧ (bitOf (0x84000000 : Word) 31 = true) ∧ (bitOf (0x84000000 : Word) 26 = true) ∧ (fld (0x84000000 : Word) 25 24 = 0) ∧ ((mdS 0).rb (Reg.mdioCmd 1) 30 = false) ∧ ((mdS 0).rb (Reg.mdioCfg 1) 31 = true) := by decide +kernel
theorem wit_SideBusAndMdio_15 : ((mdS 0).life.rails = true) ∧ (1 < 4) ∧ (takes (mdS 0) 0x0F00 (Reg.mdioCmd 1) (0x85000000 : Word) = true) ∧ (bitOf (0x85000000 : Word) 31 = true) ∧ (bitOf (0x85000000 : Word) 26 = true) ∧ (fld (0x85000000 : Word) 25 24 = 1) ∧ ((mdS 0).rb (Reg.mdioCmd 1) 30 = false) ∧ ((mdS 0).rb (Reg.mdioCfg 1) 31 = true) := by decide +kernel
theorem wit_SideBusAndMdio_16 : ((mdS 0).life.rails = true) ∧ (1 < 4) ∧ (takes (mdS 0) 0x0F00 (Reg.mdioCmd 1) (0x86010300 : Word) = true) ∧ (bitOf (0x86010300 : Word) 31 = true) ∧ (bitOf (0x86010300 : Word) 26 = true) ∧ (fld (0x86010300 : Word) 25 24 = 2) ∧ ((mdS 0).rb (Reg.mdioCmd 1) 30 = false) ∧ ((mdS 0).rb (Reg.mdioCfg 1) 31 = true) := by decide +kernel
theorem wit_SideBusAndMdio_17 : ((mdS 0).life.rails = true) ∧ (1 < 4) ∧ (takes (mdS 0) 0x0F00 (Reg.mdioCmd 1) (0x87010300 : Word) = true) ∧ (bitOf (0x87010300 : Word) 31 = true) ∧ (bitOf (0x87010300 : Word) 26 = true) ∧ (fld (0x87010300 : Word) 25 24 = 3) ∧ ((mdS 0).rb (Reg.mdioCmd 1) 30 = false) ∧ ((mdS 0).rb (Reg.mdioCfg 1) 31 = true) := by decide +kernel
theorem wit_SideBusAndMdio_18 : ((mdS 0x47000000).life.rails = true) ∧ (1 < 4) ∧ ((mdS 0x47000000).rb (Reg.mdioCmd 1) 30 = true) ∧ (mdioReads ((mdS 0x47000000).reg (Reg.mdioCmd 1)) = true) := by decide +kernel
theorem wit_SideBusAndMdio_19 : ((mdS 0x47000000).life.rails = true) ∧ (1 < 4) ∧ ((mdS 0x47000000).rb (Reg.mdioCmd 1) 30 = true) ∧ (mdioReads ((mdS 0x47000000).reg (Reg.mdioCmd 1)) = true) := by decide +kernel
theorem wit_SideBusAndMdio_20 : ((sbS 0 0 0 0 {}).life.rails = true) ∧ (0 < 2) ∧ (takes (sbS 0 0 0 0 {}) 0x0F00 (Reg.sbCmd 0) (0x80000000 : Word) = true) ∧ (bitOf (0x80000000 : Word) 31 = true) ∧ (fld (0x80000000 : Word) 30 29 = 0) ∧ (sbBusy (sbS 0 0 0 0 {}) 0 = false) ∧ ((sbS 0 0 0 0 {}).rb Reg.sbCfg 31 = true) := by decide +kernel
theorem wit_SideBusAndMdio_21 : ((sbS 1 0 0 0 {}).life.rails = true) ∧ (0 < 2) ∧ (takes (sbS 1 0 0 0 {}) 0x0F00 (Reg.sbCmd 0) (0xA0000003 : Word) = true) ∧ (bitOf (0xA0000003 : Word) 31 = true) ∧ (fld (0xA0000003 : Word) 30 29 = 1) ∧ (sbBusy (sbS 1 0 0 0 {}) 0 = false) ∧ ((sbS 1 0 0 0 {}).rb Reg.sbCfg 31 = true) := by decide +kernel
theorem wit_SideBusAndMdio_22 : ((sbS 3 0 0 0 {}).life.rails = true) ∧ (0 < 2) ∧ (takes (sbS 3 0 0 0 {}) 0x0F00 (Reg.sbCmd 0) (0xC0000203 : Word) = true) ∧ (bitOf (0xC0000203 : Word) 31 = true) ∧ (fld (0xC0000203 : Word) 30 29 = 2) ∧ (sbBusy (sbS 3 0 0 0 {}) 0 = false) ∧ ((sbS 3 0 0 0 {}).rb Reg.sbCfg 31 = true) := by decide +kernel
theorem wit_SideBusAndMdio_23 : ((sbS 0 0 0x80000000 0 {}).life.rails = true) ∧ (0 < 2) ∧ (takes (sbS 0 0 0x80000000 0 {}) 0x0F00 (Reg.sbCmd 0) (0x80000200 : Word) = true) ∧ (bitOf (0x80000200 : Word) 31 = true) ∧ (fld (0x80000200 : Word) 30 29 = 0) ∧ (sbBusy (sbS 0 0 0x80000000 0 {}) 0 = true ∨ (sbS 0 0 0x80000000 0 {}).rb Reg.sbCfg 31 = false) := by decide +kernel
theorem wit_SideBusAndMdio_24 : ((svc.setRf Reg.sbCfg 31 31 0).life.rails = true) ∧ (0 < 2) ∧ (takes (svc.setRf Reg.sbCfg 31 31 0) 0x0F00 (Reg.sbCmd 0) (0xA0000003 : Word) = true) ∧ (bitOf (0xA0000003 : Word) 31 = true) ∧ (fld (0xA0000003 : Word) 30 29 = 1) ∧ (sbBusy (svc.setRf Reg.sbCfg 31 31 0) 0 = true ∨ (svc.setRf Reg.sbCfg 31 31 0).rb Reg.sbCfg 31 = false) := by decide +kernel
theorem wit_SideBusAndMdio_25 : ((sbS 1 0 0 0 {}).life.rails = true) ∧ (0 < 2) ∧ (takes (sbS 1 0 0 0 {}) 0x0F00 (Reg.sbCmd 0) (0x80000000 : Word) = true) ∧ (bitOf (0x80000000 : Word) 31 = true) ∧ (sbBusy (sbS 1 0 0 0 {}) 0 = false) ∧ ((sbS 1 0 0 0 {}).rb Reg.sbCfg 31 = true) ∧ (sbState (sbS 1 0 0 0 {}) ≠ 3) ∧ (fld (0x80000000 : Word) 30 29 = 0) ∧ (fld (0x80000000 : Word) 15 8 = 0) := by decide +kernel
theorem wit_SideBusAndMdio_26 : ((sbS 1 0x30000003 0x80000000 0x80000000 { active := some 0, last := 0 }).life.rails = true) ∧ (0 < 2) ∧ (sbState (sbS 1 0x30000003 0x80000000 0x80000000 { active := some 0, last := 0 }) = 1) ∧ ((sbS 1 0x30000003 0x80000000 0x80000000 { active := some 0, last := 0 }).sb.active = some 0) ∧ (4 < 4 ∨ 4 = 4 ∧ (sbS 1 0x30000003 0x80000000 0x80000000 { active := some 0, last := 0 }).rb (Reg.sbCmd 0) 28 = true) ∧ (4 ≠ 0 ∨ (([] : List Byte)).length = (if (sbS 1 0x30000003 0x80000000 0x80000000 { active := some 0, last := 0 }).rf (Reg.sbCmd 0) 30 29 = 0 then 0 else (sbS 1 0x30000003 0x80000000 0x80000000 { active := some 0, last := 0 }).rf (Reg.sbCmd 0) 7 0)) := by decide +kernel
theorem wit_SideBusAndMdio_27 : ((sbS 2 0 0 0 { tries := 1 }).life.rails = true) ∧ ((sbS 2 0 0 0 { tries := 1 }).rb Reg.sbCfg 31 = true) ∧ (sbState (sbS 2 0 0 0 { tries := 1 }) = 2) ∧ ((sbS 2 0 0 0 { tries := 1 }).sb.tries < 2) ∧ ((sbS 2 0 0 0 { tries := 1 }).sb.triedAt + msUnit ≤ (sbS 2 0 0 0 { tries := 1 }).up + msUnit) := by decide +kernel
theorem wit_SideBusAndMdio_28 : ((sbS 3 0 0 0 { tries := 3 }).life.rails = true) ∧ ((sbS 3 0 0 0 { tries := 3 }).rb Reg.sbCfg 31 = true) ∧ (sbState (sbS 3 0 0 0 { tries := 3 }) = 3) ∧ ((sbS 3 0 0 0 { tries := 3 }).sb.triedAt + secUnit ≤ (sbS 3 0 0 0 { tries := 3 }).up + secUnit) := by decide +kernel
theorem wit_SideBusAndMdio_29 : ((sbS 1 0 0 0 { active := some 0, last := 0 }).life.rails = true) ∧ ((sbS 1 0 0 0 { active := some 0, last := 0 }).rb Reg.sbCfg 31 = true) ∧ (sbState (sbS 1 0 0 0 { active := some 0, last := 0 }) < 2) ∧ ((sbS 1 0 0 0 { active := some 0, last := 0 }).sb.triedAt ≤ (sbS 1 0 0 0 { active := some 0, last := 0 }).up + 1) := by decide +kernel
theorem wit_SideBusAndMdio_30 : ((mdS 0x47000000).life.rails = true) ∧ (1 < 4) ∧ ((mdS 0x47000000).rb (Reg.mdioCmd 1) 30 = true) := by decide +kernel
theorem wit_SideBusAndMdio_31 : ((mdS 0x41000000).life.rails = true) ∧ (1 < 4) ∧ ((mdS 0x41000000).rb (Reg.mdioCmd 1) 30 = true) ∧ (mdioReads ((mdS 0x41000000).reg (Reg.mdioCmd 1)) = false) := by decide +kernel
theorem wit_SideBusAndMdio_32 : ((mdS 0x40000000).life.rails = true) ∧ (1 < 4) ∧ (takes (mdS 0x40000000) 0x0F00 (Reg.mdioCmd 1) (0x81000000 : Word) = true) ∧ (bitOf (0x81000000 : Word) 31 = true) ∧ (bitOf (0x81000000 : Word) 26 = false) ∧ (fld (0x81000000 : Word) 25 24 = 1) ∧ ((mdS 0x40000000).rb (Reg.mdioCmd 1) 30 = true ∨ (mdS 0x40000000).rb (Reg.mdioCfg 1) 31 = false) := by decide +kernel
theorem wit_SideBusAndMdio_33 : ((mdS 0x40000000).life.rails = true) ∧ (1 < 4) ∧ (takes (mdS 0x40000000) 0x0F00 (Reg.mdioCmd 1) (0x82000000 : Word) = true) ∧ (bitOf (0x82000000 : Word) 31 = true) ∧ (bitOf (0x82000000 : Word) 26 = false) ∧ (fld (0x82000000 : Word) 25 24 = 2) ∧ ((mdS 0x40000000).rb (Reg.mdioCmd 1) 30 = true ∨ (mdS 0x40000000).rb (Reg.mdioCfg 1) 31 = false) := by decide +kernel
theorem wit_SideBusAndMdio_34 : (svc.life.rails = true) ∧ (1 < 4) ∧ (takes svc 0x0F00 (Reg.mdioCmd 1) (0x84000000 : Word) = true) ∧ (bitOf (0x84000000 : Word) 31 = true) ∧ (bitOf (0x84000000 : Word) 26 = true) ∧ (fld (0x84000000 : Word) 25 24 = 0) ∧ (svc.rb (Reg.mdioCmd 1) 30 = true ∨ svc.rb (Reg.mdioCfg 1) 31 = false) := by decide +kernel
theorem wit_SideBusAndMdio_35 : ((mdS 0x40000000).life.rails = true) ∧ (1 < 4) ∧ (takes (mdS 0x40000000) 0x0F00 (Reg.mdioCmd 1) (0x85000000 : Word) = true) ∧ (bitOf (0x85000000 : Word) 31 = true) ∧ (bitOf (0x85000000 : Word) 26 = true) ∧ (fld (0x85000000 : Word) 25 24 = 1) ∧ ((mdS 0x40000000).rb (Reg.mdioCmd 1) 30 = true ∨ (mdS 0x40000000).rb (Reg.mdioCfg 1) 31 = false) := by decide +kernel
theorem wit_SideBusAndMdio_36 : (svc.life.rails = true) ∧ (1 < 4) ∧ (takes svc 0x0F00 (Reg.mdioCmd 1) (0x86010300 : Word) = true) ∧ (bitOf (0x86010300 : Word) 31 = true) ∧ (bitOf (0x86010300 : Word) 26 = true) ∧ (fld (0x86010300 : Word) 25 24 = 2) ∧ (svc.rb (Reg.mdioCmd 1) 30 = true ∨ svc.rb (Reg.mdioCfg 1) 31 = false) := by decide +kernel
theorem wit_SideBusAndMdio_37 : ((mdS 0x40000000).life.rails = true) ∧ (1 < 4) ∧ (takes (mdS 0x40000000) 0x0F00 (Reg.mdioCmd 1) (0x87010300 : Word) = true) ∧ (bitOf (0x87010300 : Word) 31 = true) ∧ (bitOf (0x87010300 : Word) 26 = true) ∧ (fld (0x87010300 : Word) 25 24 = 3) ∧ ((mdS 0x40000000).rb (Reg.mdioCmd 1) 30 = true ∨ (mdS 0x40000000).rb (Reg.mdioCfg 1) 31 = false) := by decide +kernel
theorem wit_WindowsReachTheirUnits_1 : (win.life.rails = true) ∧ (0x40 % 4 = 0) ∧ (delivers win 0x0F00 (0x200000 + 0x40) (0x12345678 : Word) = true) ∧ (0x40 < 0x10000) ∧ (engFailed win (iwEngine win) = false) ∧ (mayLoadCode win (iwEngine win) = true) := by decide +kernel
theorem wit_WindowsReachTheirUnits_2 : ((win.setThrState 81 1).life.rails = true) ∧ (0x40 % 4 = 0) ∧ (delivers (win.setThrState 81 1) 0x0F00 (0x200000 + 0x40) (5 : Word) = true) ∧ (0x40 < 0x10000) ∧ (mayLoadCode (win.setThrState 81 1) (iwEngine (win.setThrState 81 1)) = false) := by decide +kernel
theorem wit_WindowsReachTheirUnits_3 : (win.life.rails = true) ∧ (0x10040 % 4 = 0) ∧ (delivers win 0x0F00 (0x200000 + 0x10040) (9 : Word) = true) ∧ (0x10000 ≤ 0x10040) ∧ (0x10040 < 0x30000) ∧ (engFailed win (iwEngine win) = false) := by decide +kernel
theorem wit_WindowsReachTheirUnits_4 : (win.life.rails = true) ∧ (0x40 % 4 = 0) ∧ (reaches win 0x0F00 (0x200000 + 0x40) = true) ∧ (0x40 < 0x10000) ∧ (engFailed win (iwEngine win) = false) := by decide +kernel
theorem wit_WindowsReachTheirUnits_5 : ((win.withEng 5 fun x => { x with local_ := [(16, tw tagINT 77)] }).life.rails = true) ∧ (0x10040 % 4 = 0) ∧ (reaches (win.withEng 5 fun x => { x with local_ := [(16, tw tagINT 77)] }) 0x0F00 (0x200000 + 0x10040) = true) ∧ (0x10000 ≤ 0x10040) ∧ (0x10040 < 0x30000) ∧ (engFailed (win.withEng 5 fun x => { x with local_ := [(16, tw tagINT 77)] }) (iwEngine (win.withEng 5 fun x => { x with local_ := [(16, tw tagINT 77)] })) = false) ∧ (mapGet TWord.zero ((win.withEng 5 fun x => { x with local_ := [(16, tw tagINT 77)] }).eng (iwEngine (win.withEng 5 fun x => { x with local_ := [(16, tw tagINT 77)] }))).local_ ((0x10040 - 0x10000) / 4) = (tw tagINT 77)) ∧ ((tw tagINT 77).poison = false) ∧ (((win.withEng 5 fun x => { x with local_ := [(16, tw tagINT 77)] }).eng (iwEngine (win.withEng 5 fun x => { x with local_ := [(16, tw tagINT 77)] }))).localBad.contains ((0x10040 - 0x10000) / 4) = false) := by decide +kernel
theorem wit_WindowsReachTheirUnits_6 : (win.life.rails = true) ∧ (0x80 % 4 = 0) ∧ (delivers win 0x0F00 (0x240000 + 0x80) (9 : Word) = true) ∧ (0x80 < 0x40000) := by decide +kernel
theorem wit_WindowsReachTheirUnits_7 : ((wordsAt 0 0x100080 [5] win).life.rails = true) ∧ (0x80 % 4 = 0) ∧ (reaches (wordsAt 0 0x100080 [5] win) 0x0F00 (0x240000 + 0x80) = true) ∧ (0x80 < 0x40000) ∧ ((shmWord (wordsAt 0 0x100080 [5] win) (iwIsland (wordsAt 0 0x100080 [5] win)) (iwPage (wordsAt 0 0x100080 [5] win) + 0x80)).poison = false) := by decide +kernel
theorem wit_WindowsReachTheirUnits_8 : ((win.setShmWord 0 0x100080 ⟨tagPOISON, 0⟩).life.rails = true) ∧ (0x80 % 4 = 0) ∧ (reaches (win.setShmWord 0 0x100080 ⟨tagPOISON, 0⟩) 0x0F00 (0x240000 + 0x80) = true) ∧ (0x80 < 0x40000) ∧ ((shmWord (win.setShmWord 0 0x100080 ⟨tagPOISON, 0⟩) (iwIsland (win.setShmWord 0 0x100080 ⟨tagPOISON, 0⟩)) (iwPage (win.setShmWord 0 0x100080 ⟨tagPOISON, 0⟩) + 0x80)).poison = true) := by decide +kernel
theorem wit_WindowsReachTheirUnits_9 : (setup.life.rails = true) ∧ (0x40 % 4 = 0) ∧ (delivers setup 0x0F00 (0x280000 + 0x40) (0x123 : Word) = true) ∧ (setup.mode = 1) ∧ (0x40 < 0x7F8) ∧ (0x40 % 8 = 0) := by decide +kernel
theorem wit_WindowsReachTheirUnits_10 : (((setup.holdLo 0x0F00 0x280000 0x10).holdLo 0x0F00 0x280004 8).life.rails = true) ∧ (0x44 % 8 = 4) ∧ (delivers ((setup.holdLo 0x0F00 0x280000 0x10).holdLo 0x0F00 0x280004 8) 0x0F00 (0x280000 + 0x44) (0x40 : Word) = true) ∧ (((setup.holdLo 0x0F00 0x280000 0x10).holdLo 0x0F00 0x280004 8).mode = 1) ∧ (0x44 < 0x7F8) ∧ (((setup.holdLo 0x0F00 0x280000 0x10).holdLo 0x0F00 0x280004 8).held 0x0F00 0x280000 = some (0x10 : Word)) ∧ (((setup.holdLo 0x0F00 0x280000 0x10).holdLo 0x0F00 0x280004 8).held 0x0F00 0x280004 = some (BitVec.ofNat 32 (iwSl ((setup.holdLo 0x0F00 0x280000 0x10).holdLo 0x0F00 0x280004 8) * 0x10000 + 0x44 / 8))) ∧ (parseOk (0x10 : Word) (0x40 : Word) = true) := by decide +kernel
theorem wit_WindowsReachTheirUnits_11 : (svc.life.rails = true) ∧ (0x40 % 4 = 0) ∧ (delivers svc 0x0F00 (0x280000 + 0x40) (0x123 : Word) = true) ∧ (svc.mode ≠ 1) ∧ (0x40 < 0x800) := by decide +kernel
theorem wit_WindowsReachTheirUnits_12 : (svc.life.rails = true) ∧ (0x104 % 4 = 0) ∧ (delivers svc 0x0F00 (0x290000 + 0x104) (0x123 : Word) = true) ∧ (0x104 < 0x1000) ∧ (0x104 % 0x100 < 0x88) ∧ (tplUsed svc (iwSl svc) (0x104 / 0x100) = false) := by decide +kernel
theorem wit_WindowsReachTheirUnits_13 : (winPort.life.rails = true) ∧ (0x8 % 4 = 0) ∧ (delivers winPort 0x0F00 (0x2A0000 + 0x8) (0x100 : Word) = true) ∧ (0x8 < 0x80) ∧ (fld (0x100 : Word) 23 0 ≠ 0) ∧ (winPort.rb (Reg.portGateCtl (iwP winPort)) 29 = false) := by decide +kernel
theorem wit_WindowsReachTheirUnits_14 : (winPort.life.rails = true) ∧ (0x8 % 4 = 0) ∧ (delivers winPort 0x0F00 (0x2A0000 + 0x8) (0 : Word) = true) ∧ (0x8 < 0x80) ∧ (fld (0 : Word) 23 0 = 0 ∨ winPort.rb (Reg.portGateCtl (iwP winPort)) 29 = true) := by decide +kernel
theorem wit_WindowsReachTheirUnits_15 : (aesS.life.rails = true) ∧ (0x44 % 4 = 0) ∧ (delivers aesS 0x0F00 (0x2B0000 + 0x44) (0x99 : Word) = true) ∧ (0x44 < 0x280) ∧ (saPort aesS (iwP aesS) = true) ∧ (0 < 0x44 % 0x40) ∧ (0x44 % 0x40 < 0x24) ∧ (bitOf (saWord aesS (iwP aesS) (0x44 / 0x40) 0) 31 = false) := by decide +kernel
theorem wit_WindowsReachTheirUnits_16 : ((aesS.holdLo 0x0F00 (saHold 4 1 2) 0x77).life.rails = true) ∧ (0x40 % 4 = 0) ∧ (delivers (aesS.holdLo 0x0F00 (saHold 4 1 2) 0x77) 0x0F00 (0x2B0000 + 0x40) (0x80000003 : Word) = true) ∧ (0x40 < 0x280) ∧ (saPort (aesS.holdLo 0x0F00 (saHold 4 1 2) 0x77) (iwP (aesS.holdLo 0x0F00 (saHold 4 1 2) 0x77)) = true) ∧ (0x40 % 0x40 = 0) ∧ (saRefused (aesS.holdLo 0x0F00 (saHold 4 1 2) 0x77) (iwP (aesS.holdLo 0x0F00 (saHold 4 1 2) 0x77)) (0x40 / 0x40) (0x80000003 : Word) = false) := by decide +kernel
theorem wit_WindowsReachTheirUnits_17 : (aesS.life.rails = true) ∧ (0x40 % 4 = 0) ∧ (delivers aesS 0x0F00 (0x2B0000 + 0x40) (0x80000004 : Word) = true) ∧ (0x40 < 0x280) ∧ (saPort aesS (iwP aesS) = true) ∧ (0x40 % 0x40 = 0) ∧ (saRefused aesS (iwP aesS) (0x40 / 0x40) (0x80000004 : Word) = true) := by decide +kernel
theorem wit_WindowsReachTheirUnits_18 : (svc.life.rails = true) ∧ (0x44 % 4 = 0) ∧ (delivers svc 0x0F00 (0x2C0000 + 0x44) (0x99 : Word) = true) ∧ (0x44 < 0x1000) ∧ (stageHeld svc = false) := by decide +kernel
theorem wit_WindowsReachTheirUnits_19 : (sysHeld.life.rails = true) ∧ (0x44 % 4 = 0) ∧ (reaches sysHeld 0x0F00 (0x2C0000 + 0x44) = true) ∧ (0x44 < 0x1000) ∧ (stageHeld sysHeld = true) := by decide +kernel
theorem wit_WindowsReachTheirUnits_20 : (svc.life.rails = true) ∧ (0x44 % 4 = 0) ∧ (delivers svc 0x0F00 (0x300000 + 0x44) (0x99 : Word) = true) ∧ (0x44 < 0x100000) ∧ (svc.mode ≠ 5) := by decide +kernel
theorem wit_WindowsReachTheirUnits_21 : (win.life.rails = true) ∧ (0x3FFFC % 4 = 0) ∧ (0x3FFFC < 0x40000) ∧ (delivers win 0x0F00 (0x200000 + 0x3FFFC) (5 : Word) = true) := by decide +kernel
theorem wit_WindowsReachTheirUnits_22 : (win.life.rails = true) ∧ (0x3FFFC % 4 = 0) ∧ (0x3FFFC < 0x40000) ∧ (delivers win 0x0F00 (0x240000 + 0x3FFFC) (5 : Word) = true) := by decide +kernel
theorem wit_WindowsReachTheirUnits_23 : (setup.life.rails = true) ∧ (0x7F8 % 4 = 0) ∧ (0x7F8 < 0x10000) ∧ (delivers setup 0x0F00 (0x280000 + 0x7F8) (5 : Word) = true) := by decide +kernel
theorem wit_WindowsReachTheirUnits_24 : (svc.life.rails = true) ∧ (0xFFFC % 4 = 0) ∧ (0xFFFC < 0x10000) ∧ (delivers svc 0x0F00 (0x290000 + 0xFFFC) (5 : Word) = true) := by decide +kernel
theorem wit_WindowsReachTheirUnits_25 : (winPort.life.rails = true) ∧ (0xFFFC % 4 = 0) ∧ (0xFFFC < 0x10000) ∧ (delivers winPort 0x0F00 (0x2A0000 + 0xFFFC) (5 : Word) = true) := by decide +kernel
theorem wit_WindowsReachTheirUnits_26 : (aesS.life.rails = true) ∧ (0x24 % 4 = 0) ∧ (0x24 < 0x10000) ∧ (delivers aesS 0x0F00 (0x2B0000 + 0x24) (5 : Word) = true) := by decide +kernel
theorem wit_WindowsReachTheirUnits_27 : (svc.life.rails = true) ∧ (0x2000 % 4 = 0) ∧ (0x2000 < 0x10000) ∧ (delivers svc 0x0F00 (0x2C0000 + 0x2000) (5 : Word) = true) := by decide +kernel
theorem wit_WindowsReachTheirUnits_28 : ((svc.setRf Reg.lifeMode 2 0 5).life.rails = true) ∧ (0x2000 % 4 = 0) ∧ (0x2000 < 0x100000) ∧ (delivers (svc.setRf Reg.lifeMode 2 0 5) 0x0F00 (0x300000 + 0x2000) (5 : Word) = true) := by decide +kernel
theorem wit_WindowsReachTheirUnits_29 : (win.life.rails = true) ∧ (0x30000 % 4 = 0) ∧ (0x30000 < 0x40000) ∧ (reaches win 0x0F00 (0x200000 + 0x30000) = true) := by decide +kernel
theorem wit_WindowsReachTheirUnits_30 : (win.life.rails = true) ∧ (0x3FFFC % 4 = 0) ∧ (0x3FFFC < 0x40000) ∧ (reaches win 0x0F00 (0x240000 + 0x3FFFC) = true) := by decide +kernel
theorem wit_WindowsReachTheirUnits_31 : ((svc.setHatch (hatchNo 0x11 (cfgIsland svc 0x200040)) { (svc.hatch (hatchNo 0x11 (cfgIsland svc 0x200040))) with held := [⟨.access 0x0F00 true 0x200000 0, 0, false⟩] }).life.rails = true) ∧ (0x40 % 4 = 0) ∧ (0x40 < 0x40000) ∧ (reaches (svc.setHatch (hatchNo 0x11 (cfgIsland svc 0x200040)) { (svc.hatch (hatchNo 0x11 (cfgIsland svc 0x200040))) with held := [⟨.access 0x0F00 true 0x200000 0, 0, false⟩] }) 0x0F00 (0x200000 + 0x40) = false) ∧ (funcMay (funcOf 0x0F00) (0x200000 + 0x40) = true) ∧ ((svc.setHatch (hatchNo 0x11 (cfgIsland svc 0x200040)) { (svc.hatch (hatchNo 0x11 (cfgIsland svc 0x200040))) with held := [⟨.access 0x0F00 true 0x200000 0, 0, false⟩] }).mode ≠ 0) := by decide +kernel
theorem wit_WindowsReachTheirUnits_32 : (setup.life.rails = true) ∧ (0x1044 % 8 = 4) ∧ (delivers setup 0x0F00 (0x280000 + 0x1044) (0x40 : Word) = true) ∧ (setup.mode = 1) ∧ (0x1000 ≤ 0x1044) ∧ (0x1044 < 0x3000) ∧ (setup.held 0x0F00 0x280004 ≠ some (BitVec.ofNat 32 (iwSl setup * 0x10000 + 0x1044 / 8))) ∧ (transOk (BitVec.ofNat 32 (transEntry (setup.slice (iwSl setup)) ((0x1044 - 0x1000) / 8)).1) = true) := by decide +kernel
theorem wit_WindowsReachTheirUnits_33 : ((svc.setRf (pReg Reg.portEditCfg 3) 30 26 0x11).life.rails = true) ∧ (0x104 % 4 = 0) ∧ (delivers (svc.setRf (pReg Reg.portEditCfg 3) 30 26 0x11) 0x0F00 (0x290000 + 0x104) (5 : Word) = true) ∧ (0x104 < 0x1000) ∧ (0x104 % 0x100 < 0x88) ∧ (tplUsed (svc.setRf (pReg Reg.portEditCfg 3) 30 26 0x11) (iwSl (svc.setRf (pReg Reg.portEditCfg 3) 30 26 0x11)) (0x104 / 0x100) = true) := by decide +kernel
theorem wit_WindowsReachTheirUnits_34 : (winPort.life.rails = true) ∧ (0x108 % 4 = 0) ∧ (delivers winPort 0x0F00 (0x2A0000 + 0x108) (5 : Word) = true) ∧ (0x100 ≤ 0x108) ∧ (0x108 < 0x180) := by decide +kernel
theorem wit_WindowsReachTheirUnits_35 : (svc.life.rails = true) ∧ (0x1044 % 4 = 0) ∧ (delivers svc 0x0F00 (0x2C0000 + 0x1044) (0x99 : Word) = true) ∧ (0x1000 ≤ 0x1044) ∧ (0x1044 < 0x2000) := by decide +kernel

/-! ### regs -/

def scratchD : RegDesc := (findReg Reg.attnCfg).getD ⟨"", 0, [], 0, 0, 0, 0, 0, false, false, []⟩
def strayD : RegDesc := (findReg Reg.strayCnt).getD ⟨"", 0, [], 0, 0, 0, 0, 0, false, false, []⟩
/-- The CFG hatch of the island of the first port group has an access waiting. -/
def blockedS : State := svc.setHatch (hatchNo 0x11 (cfgIsland svc 0x80000)) { (svc.hatch (hatchNo 0x11 (cfgIsland svc 0x80000))) with held := [⟨.access 0x0F00 true 0x80000 0, 0, false⟩] }
def iwD : RegDesc := (findReg Reg.iwEng).getD ⟨"", 0, [], 0, 0, 0, 0, 0, false, false, []⟩
theorem wit_RegistersAreWrittenAndRead_1 : (svc.life.rails = true) ∧ (Reg.attnCfg < 0x200000) ∧ (Reg.attnCfg % 4 = 0) ∧ (delivers svc 0x0F00 Reg.attnCfg (0x80000002 : Word) = true) ∧ (rowWrite 0x0F00 Reg.attnCfg (0x80000002 : Word) = none) ∧ (regKey svc Reg.attnCfg = Reg.attnCfg) ∧ (findReg Reg.attnCfg = some scratchD) ∧ (inRanges scratchD (0x80000002 : Word) = true) ∧ (writeRefused svc Reg.attnCfg (0x80000002 : Word) = false) ∧ (noWrites scratchD = false) ∧ (writeNoEffect Reg.attnCfg = false) ∧ (isPairLo Reg.attnCfg = false) ∧ (pairLo Reg.attnCfg = none) ∧ ([Reg.timeSrcCfg, Reg.trcCfg, Reg.trcRptr, Reg.logCfg, Reg.recCfg, Reg.spareCfg, Reg.courTimeCfg].contains Reg.attnCfg = false) ∧ (¬(0x1000 ≤ Reg.attnCfg ∧ Reg.attnCfg < 0x3000)) ∧ (¬(0x50400 ≤ Reg.attnCfg ∧ Reg.attnCfg < 0x50500)) ∧ (¬(0x80000 ≤ Reg.attnCfg ∧ Reg.attnCfg < 0x100000)) := by decide +kernel
theorem wit_RegistersAreWrittenAndRead_2 : (svc.life.rails = true) ∧ (Reg.iwEng < 0x200000) ∧ (Reg.iwEng % 4 = 0) ∧ (delivers svc 0x0F00 Reg.iwEng (0xFF : Word) = true) ∧ (rowWrite 0x0F00 Reg.iwEng (0xFF : Word) = none) ∧ (findReg (regKey svc Reg.iwEng) = some iwD) ∧ (inRanges iwD (0xFF : Word) = false ∨ writeRefused svc (regKey svc Reg.iwEng) (0xFF : Word) = true) ∧ (writeNoEffect (regKey svc Reg.iwEng) = false) ∧ (noWrites iwD = false) := by decide +kernel
theorem wit_RegistersAreWrittenAndRead_3 : (svc.life.rails = true) ∧ (0xFF00 < 0x200000) ∧ (0xFF00 % 4 = 0) ∧ (delivers svc 0x0F00 0xFF00 (0xFF : Word) = true) ∧ (rowWrite 0x0F00 0xFF00 (0xFF : Word) = none) ∧ (findReg (regKey svc 0xFF00) = none) := by decide +kernel
theorem wit_RegistersAreWrittenAndRead_4 : (svc.life.rails = true) ∧ (Reg.attnCfg < 0x400000) ∧ (Reg.attnCfg % 4 = 0) ∧ (reaches svc 0x0F00 Reg.attnCfg = true) ∧ (3 ≠ 15) := by decide +kernel
theorem wit_RegistersAreWrittenAndRead_5 : (svc.life.rails = true) ∧ (Reg.attnCfg < 0x400000) ∧ (Reg.attnCfg % 4 = 0) ∧ (funcMay (funcOf 0x0F01) Reg.attnCfg = false) ∧ (3 ≠ 15) := by decide +kernel
theorem wit_RegistersAreWrittenAndRead_6 : (svc.life.rails = true) ∧ (takes svc 0x0F00 Reg.recBaseLo (0x100000 : Word) = true) ∧ (svc.rb Reg.recCfg 31 = false) ∧ (fld (0x100000 : Word) 19 0 = 0) := by decide +kernel
theorem wit_RegistersAreWrittenAndRead_7 : ((svc.holdLo 0x0F00 Reg.graphSrcLo 0x40).life.rails = true) ∧ (takes (svc.holdLo 0x0F00 Reg.graphSrcLo 0x40) 0x0F00 Reg.graphSrcHi (1 : Word) = true) ∧ ((svc.holdLo 0x0F00 Reg.graphSrcLo 0x40).held 0x0F00 Reg.graphSrcLo = some (0x40 : Word)) := by decide +kernel
theorem wit_RegistersAreWrittenAndRead_8 : (((svc.setReg Reg.trcWptr 7).setReg Reg.trcRptr 3).life.rails = true) ∧ (takes ((svc.setReg Reg.trcWptr 7).setReg Reg.trcRptr 3) 0x0F00 Reg.trcCfg (0x80000001 : Word) = true) ∧ (((svc.setReg Reg.trcWptr 7).setReg Reg.trcRptr 3).rb Reg.trcCfg 31 = false) ∧ (fld (0x80000001 : Word) 15 0 % 2 ^ fld (0x80000001 : Word) 19 16 = 0) ∧ (bitOf (0x80000001 : Word) 31 = true) ∧ (((svc.setReg Reg.trcWptr 7).setReg Reg.trcRptr 3).evt.trcGap.count = 0) := by decide +kernel
theorem wit_RegistersAreWrittenAndRead_9 : (svc.life.rails = true) ∧ (0x40 < 0x40000) ∧ (0x40 % 4 = 0) := by decide +kernel
theorem wit_RegistersAreWrittenAndRead_10 : (svc.life.rails = true) ∧ (bitOf (0x80000000 : Word) 31 = true) := by decide +kernel
theorem wit_RegistersAreWrittenAndRead_11 : ((svc.setReg Reg.attnCfg 0x80000002).life.rails = true) ∧ (Reg.attnCfg < 0x200000) ∧ (Reg.attnCfg % 4 = 0) ∧ (reaches (svc.setReg Reg.attnCfg 0x80000002) 0x0F00 Reg.attnCfg = true) ∧ (Reg.attnCfg ≠ Reg.alqW 0) ∧ (¬(0x80000 ≤ Reg.attnCfg ∧ Reg.attnCfg < 0x100000 ∧ 0x100 ≤ Reg.attnCfg % 0x1000 ∧ Reg.attnCfg % 0x1000 < 0x500 ∧ Reg.attnCfg % 0x100 = 0x20)) ∧ (regKey (svc.setReg Reg.attnCfg 0x80000002) Reg.attnCfg = Reg.attnCfg) ∧ (findReg Reg.attnCfg = some scratchD) ∧ (fromLatch Reg.attnCfg = false) ∧ (readsLo Reg.attnCfg = false) ∧ (clearsOnRead Reg.attnCfg = false) := by decide +kernel
theorem wit_RegistersAreWrittenAndRead_12 : (((svc.setReg Reg.recTrigLo 5).setReg Reg.recTrigHi 6).life.rails = true) ∧ (reaches ((svc.setReg Reg.recTrigLo 5).setReg Reg.recTrigHi 6) 0x0F00 Reg.recTrigLo = true) := by decide +kernel
theorem wit_RegistersAreWrittenAndRead_13 : (({ svc with latches := [(holdKey 0x0F00 Reg.recTrigHi, 9)] } : State).life.rails = true) ∧ (reaches ({ svc with latches := [(holdKey 0x0F00 Reg.recTrigHi, 9)] } : State) 0x0F00 Reg.recTrigHi = true) ∧ (latched ({ svc with latches := [(holdKey 0x0F00 Reg.recTrigHi, 9)] } : State) 0x0F00 Reg.recTrigHi = some (9 : Word)) := by decide +kernel
theorem wit_RegistersAreWrittenAndRead_14 : ((svc.setReg (pReg Reg.portXlatMax 5) 99).life.rails = true) ∧ (5 < 512) ∧ (reaches (svc.setReg (pReg Reg.portXlatMax 5) 99) 0x0F00 (pReg Reg.portXlatMax 5) = true) := by decide +kernel
theorem wit_RegistersAreWrittenAndRead_15 : (svc.life.rails = true) ∧ (Reg.attnCfg < 0x200000) ∧ (Reg.attnCfg % 4 = 0) ∧ (Reg.attnCfg ≠ Reg.alqW 0) ∧ (¬(0x80000 ≤ Reg.attnCfg ∧ Reg.attnCfg < 0x100000 ∧ 0x100 ≤ Reg.attnCfg % 0x1000 ∧ Reg.attnCfg % 0x1000 < 0x500 ∧ Reg.attnCfg % 0x100 = 0x20)) ∧ (funcMay (funcOf 0x0F01) Reg.attnCfg = false) ∧ (svc.pathFree Reg.attnCfg = true) := by decide +kernel
theorem wit_RegistersAreWrittenAndRead_17 : (svc.life.rails = true) ∧ (Reg.strayCnt < 0x200000) ∧ (Reg.strayCnt % 4 = 0) ∧ (delivers svc 0x0F00 Reg.strayCnt (5 : Word) = true) ∧ (rowWrite 0x0F00 Reg.strayCnt (5 : Word) = none) ∧ (findReg (regKey svc Reg.strayCnt) = some strayD) ∧ (noWrites strayD = true ∨ writeNoEffect (regKey svc Reg.strayCnt) = true) := by decide +kernel
theorem wit_RegistersAreWrittenAndRead_18 : (blockedS.life.rails = true) ∧ (0x80004 < 0x200000) ∧ (0x80004 % 4 = 0) ∧ (rowWrite 0x0F00 0x80004 (5 : Word) = none) ∧ (blockedS.mustWait 0x80004 true (5 : Word) = true) := by decide +kernel
theorem wit_RegistersAreWrittenAndRead_19 : (svc.life.rails = true) ∧ (Reg.lifeCtl < 0x400000) ∧ (Reg.lifeCtl % 4 = 0) ∧ (rowWrite 0x0F00 Reg.lifeCtl (0x80000000 : Word) = some (execSvcArm 0x0F00 0x80000000)) ∧ ((execSvcArm 0x0F00 0x80000000) svc = .next (svc.reject Reg.lifeCtl)) := ⟨by decide +kernel, by decide +kernel, by decide +kernel, rfl, congrArg Host.Outcome.next (by decide +kernel : settled svc (execSvcArm 0x0F00 0x80000000 svc) = svc.reject Reg.lifeCtl)⟩
theorem wit_RegistersAreWrittenAndRead_20 : (svc.life.rails = true) ∧ (Reg.attnCfg < 0x400000) ∧ (Reg.attnCfg % 4 = 0) ∧ (Reg.attnCfg ≠ Reg.alqW 0) ∧ (¬(0x80000 ≤ Reg.attnCfg ∧ Reg.attnCfg < 0x100000 ∧ 0x100 ≤ Reg.attnCfg % 0x1000 ∧ Reg.attnCfg % 0x1000 < 0x500 ∧ Reg.attnCfg % 0x100 = 0x20)) ∧ (svc.pathFree Reg.attnCfg = true) := by decide +kernel
theorem wit_RegistersAreWrittenAndRead_21 : (blockedS.life.rails = true) ∧ (0x80000 < 0x400000) ∧ (0x80000 % 4 = 0) ∧ (0x80000 ≠ Reg.alqW 0) ∧ (¬(0x80000 ≤ 0x80000 ∧ 0x80000 < 0x100000 ∧ 0x100 ≤ 0x80000 % 0x1000 ∧ 0x80000 % 0x1000 < 0x500 ∧ 0x80000 % 0x100 = 0x20)) ∧ (blockedS.pathFree 0x80000 = false) := by decide +kernel
theorem wit_StrayAccessesAreCaptured_1 : (svc.life.rails = true) ∧ (0x40 < 0x400000) ∧ (0x40 % 4 = 0) ∧ (reaches svc 0x0F00 0x40 = true) ∧ (3 ≠ 15) ∧ (svc.rb Reg.strayAddr 31 = false) := by decide +kernel
theorem wit_StrayAccessesAreCaptured_2 : ((svc.setRf Reg.strayAddr 31 31 1).life.rails = true) ∧ (0x40 < 0x400000) ∧ (0x40 % 4 = 0) ∧ (reaches (svc.setRf Reg.strayAddr 31 31 1) 0x0F00 0x40 = true) ∧ (3 ≠ 15) ∧ ((svc.setRf Reg.strayAddr 31 31 1).rb Reg.strayAddr 31 = true) := by decide +kernel
theorem wit_StrayAccessesAreCaptured_3 : (svc.life.rails = true) ∧ (0xFF00 < 0x80000) ∧ (0xFF00 % 4 = 0) ∧ (reaches svc 0x0F00 0xFF00 = true) ∧ (findReg (regKey svc 0xFF00) = none) ∧ (svc.rb Reg.strayAddr 31 = false) := by decide +kernel
theorem wit_StrayAccessesAreCaptured_4 : ((svc.setRf Reg.strayAddr 31 31 1).life.rails = true) ∧ (0xFF00 < 0x80000) ∧ (0xFF00 % 4 = 0) ∧ (reaches (svc.setRf Reg.strayAddr 31 31 1) 0x0F00 0xFF00 = true) ∧ (findReg (regKey (svc.setRf Reg.strayAddr 31 31 1) 0xFF00) = none) ∧ ((svc.setRf Reg.strayAddr 31 31 1).rb Reg.strayAddr 31 = true) := by decide +kernel
theorem wit_StrayAccessesAreCaptured_5 : ((svc.setRf Reg.strayAddr 31 31 1).rb Reg.strayAddr 31 = true) := by decide +kernel
theorem wit_StrayAccessesAreCaptured_6 : (svc.rb Reg.strayAddr 31 = false) := by decide +kernel

end Sys2Proof.Tests
end

section
/-! PROOFS. What a write that a register takes does when its own row refuses it or not, and the write of TIME_STEP (R105). -/

namespace Sys2Proof.Machine

/-! ### A write that a register takes -/

/-- What `takes` says of the way to the register, in the form that the laws of `State.command` ask for. -/
theorem takes_elim {s : State} {m ofs : Nat} {v : Word} (h : takes s m ofs v = true) :
    ∃ d, s.mustWait ofs true v = false ∧ funcMay (funcOf m) ofs = true ∧ (s.mode = 0 → entryMay ofs = true) ∧
      findReg ofs = some d ∧ inRanges d v = true := by
  simp only [takes, delivers, reaches, Bool.and_eq_true, Bool.or_eq_true, Bool.not_eq_true', bne_iff_ne] at h
  obtain ⟨⟨⟨⟨hf, he⟩, -⟩, hp⟩, hr⟩ := h
  unfold inRange at hr
  split at hr
  case h_1 d hd => exact ⟨d, hp, hf, he.neg_resolve_left, hd, hr⟩
  case h_2 => cases hr

/-- A taken write that its row does not refuse sets the register and has the row's effect. -/
theorem State.command_of_takes {s : State} {m ofs : Nat} {v : Word} (h : takes s m ofs v = true) (refused : State → Bool)
    (act : State → State) (hn : refused s = false) : ∃ w, s.command m ofs v refused act = act (s.setReg ofs w) := by
  obtain ⟨d, hp, hf, he, hd, hr⟩ := takes_elim h
  exact ⟨_, State.command_of s m ofs v refused act d hp hf he hd hr hn⟩

/-- One that its row refuses sets the refusal bit alone. -/
theorem State.command_refused_of_takes {s : State} {m ofs : Nat} {v : Word} (h : takes s m ofs v = true) (refused : State → Bool)
    (act : State → State) (hn : refused s = true) : s.command m ofs v refused act = s.reject ofs := by
  obtain ⟨d, hp, hf, he, hd, -⟩ := takes_elim h
  exact State.command_refused s m ofs v refused act d hp hf he hd (Or.inr hn)

/-! ### Steps of module time -/

/-- The two's complement reading of a register word is the library's. -/
theorem signed_toNat (v : Word) : signed 32 v.toNat = v.toInt := by
  have := v.isLt
  rw [signed, BitVec.toInt_eq_toNat_cond]
  split <;> split <;> omega

@[simp] theorem stepNow_now (s : State) (off : Int) : (stepNow s off).now = ((s.now : Int) + off).toNat := rfl

/-- What a step of module time leaves as it was. -/
@[simp] theorem stepNow_other (s : State) (off : Int) :
    (stepNow s off).up = s.up ∧ (stepNow s off).time = s.time ∧ (stepNow s off).regs = s.regs := ⟨rfl, rfl, rfl⟩

theorem stepNow_reg (s : State) (off : Int) (k : Nat) : (stepNow s off).reg k = s.reg k := State.reg_congr (stepNow_other s off).2.2 k

/-- The refusal bit of a write of TIME_STEP is TIME_STATUS.REJECT (R577). -/
theorem reject_timeStepR (s : State) : s.reject Reg.timeStepR = s.setRf Reg.timeStatus 30 30 1 := rfl

/-- An epoch commit is PENDING or ARMED, which bars a step of module time (R105). -/
def epochScheduled (s : State) : Bool := s.rf Reg.epochStatus 18 16 == 1 || s.rf Reg.epochStatus 18 16 == 2

theorem epochScheduled_iff (s : State) : epochScheduled s = true ↔ s.rf Reg.epochStatus 18 16 = 1 ∨ s.rf Reg.epochStatus 18 16 = 2 := by
  simp [epochScheduled]

/-- TIME_STEP is a write of its register, refused while an epoch commit is scheduled. -/
theorem exec_timeStep (m : Nat) (v : Word) (s : State) (h : s.life.rails = true) :
    exec (.timeStep m v) s =
      .next (s.command m Reg.timeStepR v epochScheduled fun t => stepNow t (v.toInt * nsUnit)) := by
  rw [← signed_toNat]
  exact occur_of _ _ _ h

theorem exec_timeStep_of_not_scheduled {m : Nat} {v : Word} {s : State} (h : s.life.rails = true) (ht : takes s m Reg.timeStepR v = true)
    (he : epochScheduled s = false) : ∃ w, exec (.timeStep m v) s = .next (stepNow (s.setReg Reg.timeStepR w) (v.toInt * nsUnit)) := by
  obtain ⟨w, hw⟩ := State.command_of_takes ht epochScheduled (fun t => stepNow t (v.toInt * nsUnit)) he
  exact ⟨w, by rw [exec_timeStep m v s h, hw]⟩

theorem exec_timeStep_of_scheduled {m : Nat} {v : Word} {s : State} (h : s.life.rails = true) (ht : takes s m Reg.timeStepR v = true)
    (he : epochScheduled s = true) : exec (.timeStep m v) s = .next (s.setRf Reg.timeStatus 30 30 1) := by
  rw [exec_timeStep m v s h, State.command_refused_of_takes ht _ _ he, reject_timeStepR]

/-- Settles O10: the write is taken or refused by the state of the epoch; taken, it is its register set and then a step of module time, and refused, it is TIME_STATUS.REJECT set. -/
theorem timeSteps : Obligations.TimeSteps := by
  unfold Obligations.TimeSteps
  constructor
  · intro s m v hrails ht hpending harmed
    have he : epochScheduled s = false := by
      rw [Bool.eq_false_iff, Ne, epochScheduled_iff]
      exact not_or.mpr ⟨hpending, harmed⟩
    obtain ⟨w, hexec⟩ := exec_timeStep_of_not_scheduled hrails ht he
    refine ⟨_, hexec, by simp, by simp, by simp, fun k hk => ?_⟩
    rw [stepNow_reg, State.reg_setReg_ne _ _ _ _ hk.symm]
  · intro s m v hrails ht hepoch
    refine ⟨_, exec_timeStep_of_scheduled hrails ht ((epochScheduled_iff s).mpr hepoch), rfl, ?_, by simp⟩
    simp [State.rb_setRf]

end Sys2Proof.Machine
end

section
/-! PROOFS. HOLDUP as its trigger begins it (R500, R514), and sags and dips of VIN_12 (R513). -/

namespace Sys2Proof.Machine

/-! ### Event counters below their end (R547) -/

/-- A counter that one more event does not fill takes it without an alarm. -/
theorem State.count_of_lt (s : State) (o : Nat) (h : (s.reg o).toNat < 0xFFFFFFFE) :
    s.count o = s.setReg o (BitVec.ofNat 32 ((s.reg o).toNat + 1)) := by
  have hsat : satAdd 0xFFFFFFFF (s.reg o).toNat 1 = (s.reg o).toNat + 1 := if_pos (by omega)
  simp only [State.count, hsat]
  exact if_neg (by omega)

theorem State.toNat_reg_count (s : State) (o : Nat) (h : (s.reg o).toNat < 0xFFFFFFFE) :
    ((s.count o).reg o).toNat = (s.reg o).toNat + 1 := by
  rw [State.count_of_lt s o h, State.reg_setReg, BitVec.toNat_ofNat]
  omega

theorem State.reg_count_ne (s : State) (o k n : Nat) (h : o ≠ k) : (s.count o n).reg k = s.reg k := by
  unfold State.count
  dsimp only
  split <;> simp [State.reg_setReg_ne _ _ _ _ h]

theorem State.mode_count (s : State) (o n : Nat) (h : o ≠ Reg.lifeMode) : (s.count o n).mode = s.mode := by
  unfold State.mode State.rf
  rw [State.reg_count_ne s o _ n h]

/-! ### Changes of mode and checkpoints -/

@[simp] theorem State.withLife_life (s : State) (f : LifeSt → LifeSt) : (s.withLife f).life = f s.life := rfl

@[simp] theorem State.setMode_life (s : State) (m : Nat) : (s.setMode m).life = s.life := by
  simp [State.setMode]

theorem State.mode_setMode (s : State) (m : Nat) (h : m < 8) : (s.setMode m).mode = m := by
  simp [State.setMode, State.mode, State.rf_setRf, Nat.mod_eq_of_lt h]

theorem State.reg_setMode_ne (s : State) (m k : Nat) (h : Reg.lifeMode ≠ k) : (s.setMode m).reg k = s.reg k := by
  simp [State.setMode, State.reg_setRf_ne _ _ _ _ _ _ h]

/-- A checkpoint that ends, written or abandoned, changes no register but CELL_STAT. -/
theorem State.reg_of_cellStat {s t : State} {k : Nat} (ht : t.regs = (s.setRf Reg.cellStat 27 27 0).regs) (h : Reg.cellStat ≠ k) :
    t.reg k = s.reg k :=
  (State.reg_congr ht k).trans (State.reg_setRf_ne s _ _ _ _ _ h)

@[simp] theorem State.settleCkpt_life (s : State) : s.settleCkpt.life = s.life := by
  unfold State.settleCkpt
  split
  · split <;> simp
  · rfl

theorem State.reg_settleCkpt_ne (s : State) (k : Nat) (h : Reg.cellStat ≠ k) : s.settleCkpt.reg k = s.reg k := by
  unfold State.settleCkpt
  split
  · split
    · exact State.reg_of_cellStat (by dsimp only) h
    · rfl
  · rfl

@[simp] theorem State.dropCkpt_life (s : State) : s.dropCkpt.life = s.life := by
  unfold State.dropCkpt
  split <;> simp

theorem State.reg_dropCkpt_ne (s : State) (k : Nat) (h : Reg.cellStat ≠ k) : s.dropCkpt.reg k = s.reg k := by
  unfold State.dropCkpt
  split
  · exact State.reg_of_cellStat (by dsimp only) h
  · rfl

/-! ### The beginning of HOLDUP (R500, R514) -/

/-- HOLDUP entered with the rails still up: no checkpoint in progress, CODE at HOLDUP and no hold-up test in progress. -/
def intoHoldup (s : State) : State := ((s.settleCkpt.dropCkpt).setMode 5).setRf Reg.lifeHucStat 30 30 0

/-- The life-cycle record with the rails isolated for a cause. -/
def railsDown (kind : Nat) (l : LifeSt) : LifeSt := { l with rails := false, holdCause := kind, wdStopped := true }

@[simp] theorem intoHoldup_life (s : State) : (intoHoldup s).life = s.life := by
  simp [intoHoldup]

@[simp] theorem intoHoldup_mode (s : State) : (intoHoldup s).mode = 5 := by
  rw [State.mode, intoHoldup, State.rf_setRf_ne _ _ _ _ _ _ _ _ (by decide), ← State.mode, State.mode_setMode _ _ (by decide)]

theorem reg_intoHoldup_ne (s : State) (k : Nat) (hmode : Reg.lifeMode ≠ k) (hhuc : Reg.lifeHucStat ≠ k) (hcell : Reg.cellStat ≠ k) :
    (intoHoldup s).reg k = s.reg k := by
  rw [intoHoldup, State.reg_setRf_ne _ _ _ _ _ _ hhuc, State.reg_setMode_ne _ _ _ hmode, State.reg_dropCkpt_ne _ _ hcell,
    State.reg_settleCkpt_ne _ _ hcell]

/-- A save in progress goes on as it is; without one, the capture of the kind begins. -/
theorem beginHoldup_eq (s : State) (kind : Nat) :
    beginHoldup s kind =
      if s.life.saving.isSome then (intoHoldup s).withLife (railsDown kind)
      else startSave ((intoHoldup s).withLife (railsDown kind)) kind := by
  unfold beginHoldup
  cases s.life.saving <;> rfl

theorem startSave_regs (s : State) (kind : Nat) : (startSave s kind).regs = s.regs := rfl

theorem startSave_life (s : State) (kind : Nat) :
    (startSave s kind).life = { s.life with saving := some (nextSlot s.cellar, captureImage s kind) } := rfl

theorem beginHoldup_regs (s : State) (kind : Nat) : (beginHoldup s kind).regs = (intoHoldup s).regs := by
  rw [beginHoldup_eq]
  split
  · simp
  · simp [startSave_regs]

theorem beginHoldup_mode (s : State) (kind : Nat) : (beginHoldup s kind).mode = 5 :=
  (State.rf_congr (beginHoldup_regs s kind) _ _ _).trans (intoHoldup_mode s)

theorem reg_beginHoldup_ne (s : State) (kind k : Nat) (hmode : Reg.lifeMode ≠ k) (hhuc : Reg.lifeHucStat ≠ k) (hcell : Reg.cellStat ≠ k) :
    (beginHoldup s kind).reg k = s.reg k :=
  (State.reg_congr (beginHoldup_regs s kind) k).trans (reg_intoHoldup_ne s k hmode hhuc hcell)

/-- The life-cycle record of HOLDUP: the rails down for the cause, and a save in progress. -/
theorem beginHoldup_life (s : State) (kind : Nat) :
    ∃ save, (beginHoldup s kind).life = { railsDown kind s.life with saving := some save } := by
  rw [beginHoldup_eq]
  split
  next hsave =>
    obtain ⟨save, hsave⟩ := Option.isSome_iff_exists.mp hsave
    exact ⟨save, by simp [railsDown, ← hsave]⟩
  next => exact ⟨_, by rw [startSave_life, State.withLife_life, intoHoldup_life]⟩

/-! ### Sags and dips (R513) -/

/-- VIN_12 has been low for long enough to be a sag: below THRESH for 40 µs, or below 9.0 V for 2 µs. -/
def sagDetected (s : State) (vin dur : Nat) : Bool :=
  (decide (vin < s.rf Reg.lifeSagCfg 7 0 * 10) && decide (40000 * nsUnit ≤ dur)) || (decide (vin < 900) && decide (2000 * nsUnit ≤ dur))

theorem sagDetected_iff (s : State) (vin dur : Nat) :
    sagDetected s vin dur = true ↔ vin < s.rf Reg.lifeSagCfg 7 0 * 10 ∧ 40000 * nsUnit ≤ dur ∨ vin < 900 ∧ 2000 * nsUnit ≤ dur := by
  simp [sagDetected]

@[simp] theorem sagDetected_advance (s : State) (dt vin dur : Nat) : sagDetected (advance s dt) vin dur = sagDetected s vin dur := by
  simp [sagDetected]

/-- The state in which a detected sag begins HOLDUP: the sag counted, and VIN_12 as it reads. -/
def sagNoted (s : State) (dt vin : Nat) : State := ((advance s dt).withLife fun l => { l with vin := vin }).count Reg.lifeSagCnt

theorem exec_sag_of_detected {s : State} {vin dur : Nat} (dt : Nat) (hsag : sagDetected s vin dur = true) (hmay : s.mayHold = true) :
    exec (.sag dt vin dur) s = .next (beginHoldup (sagNoted s dt vin) 2) := by
  have hmay' : (advance s dt).mayHold = true := hmay
  refine (occur_of _ _ _ ((sagDetected_advance s dt vin dur).trans hsag)).trans ?_
  rw [if_pos hmay']
  rfl

theorem exec_sag_of_not_detected {s : State} {vin dur : Nat} (dt : Nat) (hsag : sagDetected s vin dur = false) :
    exec (.sag dt vin dur) s = .next (advance s dt) := by
  have hexec : exec (.sag dt vin dur) s = occur (sagDetected (advance s dt) vin dur) (advance s dt) _ := rfl
  rw [hexec, sagDetected_advance, hsag, occur_false]

theorem exec_vinDipEnd_of_dip {s : State} {vin dur : Nat} (dt : Nat) (hrails : s.life.rails = true)
    (hlow : vin < s.rf Reg.lifeSagCfg 7 0 * 10) (hshort : dur < 40000 * nsUnit) (hfloor : 900 ≤ vin ∨ dur < 2000 * nsUnit) :
    exec (.vinDipEnd dt vin dur) s = .next ((advance s dt).count Reg.lifeDipCnt) := by
  refine occur_of _ _ _ ?_
  simpa [hrails, hlow, hshort] using hfloor

theorem sagNoted_life (s : State) (dt vin : Nat) : (sagNoted s dt vin).life = { s.life with vin := vin } := by
  simp [sagNoted]

theorem sagNoted_sagCnt (s : State) (dt vin : Nat) (h : (s.reg Reg.lifeSagCnt).toNat < 0xFFFFFFFE) :
    ((sagNoted s dt vin).reg Reg.lifeSagCnt).toNat = (s.reg Reg.lifeSagCnt).toNat + 1 := by
  rw [sagNoted, State.toNat_reg_count _ _ (by simpa using h)]
  simp

/-- Settles O52: a detected sag is counted and then HOLDUP begins; one that is not detected is no event; and a dip that ends is its count alone. -/
theorem sagsAndDips : Obligations.SagsAndDips := by
  unfold Obligations.SagsAndDips
  refine ⟨?_, ?_, ?_⟩
  · intro s dt vin dur hlow hmay hcnt
    obtain ⟨save, hlife⟩ := beginHoldup_life (sagNoted s dt vin) 2
    rw [sagNoted_life] at hlife
    refine ⟨_, exec_sag_of_detected dt ((sagDetected_iff s vin dur).mpr hlow) hmay, beginHoldup_mode _ _, ?_⟩
    rw [hlife, reg_beginHoldup_ne _ _ _ (by decide) (by decide) (by decide), sagNoted_sagCnt s dt vin hcnt]
    exact ⟨rfl, rfl, rfl, rfl, rfl⟩
  · intro s dt vin dur hthresh hfloor
    apply exec_sag_of_not_detected
    rw [Bool.eq_false_iff, Ne, sagDetected_iff]
    omega
  · intro s dt vin dur hrails hlow hshort hfloor hcnt
    refine ⟨_, exec_vinDipEnd_of_dip dt hrails hlow hshort hfloor, ?_, by simp, ?_, fun k hk => ?_⟩
    · rw [State.mode_count _ _ _ (by decide)]
      simp
    · rw [State.toNat_reg_count _ _ (by simpa using hcnt)]
      simp
    · rw [State.reg_count_ne _ _ _ _ hk.symm]
      simp

end Sys2Proof.Machine
end

section
/-! PROOFS. Stray accesses (R574, R575): the word that HALL_STRAY_ADDR captures, what a stray access does by the state of V, and two accesses that are stray. -/

namespace Sys2Proof.Machine

/-! ### An access that reaches its block -/

/-- What `reaches` says of the way to the register, in the form that the laws of `State.access` ask for. -/
theorem reaches_elim {s : State} {m ofs : Nat} (h : reaches s m ofs = true) :
    funcMay (funcOf m) ofs = true ∧ (s.mode = 0 → entryMay ofs = true) ∧ s.pathFree ofs = true := by
  simp only [reaches, Bool.and_eq_true, Bool.or_eq_true, bne_iff_ne] at h
  obtain ⟨⟨hfunc, hentry⟩, hpath⟩ := h
  exact ⟨hfunc, hentry.neg_resolve_left, hpath⟩

/-- A read waits for nothing but its path (R37 holds writes alone). -/
theorem State.mustWait_read (s : State) (ofs : Nat) (v : Word) : s.mustWait ofs false v = !s.pathFree ofs := by
  simp [State.mustWait]

theorem funcOf_lt (m : Nat) : funcOf m < 16 := by
  unfold funcOf
  split <;> omega

/-! ### The captured word -/

/-- HALL_STRAY_ADDR as the first stray access after V was cleared leaves it: V, WRITE, FUNC and OFFSET (R575). -/
def strayCapture (m ofs : Nat) (wr : Bool) : Word :=
  BitVec.ofNat 32 (2 ^ 31 + b2n wr * 2 ^ 30 + funcOf m * 2 ^ 26 + ofs % 2 ^ 22)

theorem toNat_strayCapture (m ofs : Nat) (wr : Bool) :
    (strayCapture m ofs wr).toNat = 2 ^ 31 + wr.toNat * 2 ^ 30 + funcOf m * 2 ^ 26 + ofs % 2 ^ 22 := by
  have hfunc := funcOf_lt m
  have hwr : b2n wr = wr.toNat := by cases wr <;> rfl
  have hle := wr.toNat_le
  rw [strayCapture, BitVec.toNat_ofNat, hwr]
  omega

theorem strayCapture_valid (m ofs : Nat) (wr : Bool) : bitOf (strayCapture m ofs wr) 31 = true := by
  have hfunc := funcOf_lt m
  have hle := wr.toNat_le
  rw [bitOf, toNat_strayCapture, Nat.testBit_eq_decide_div_mod_eq, decide_eq_true_iff]
  omega

theorem strayCapture_write (m ofs : Nat) (wr : Bool) : bitOf (strayCapture m ofs wr) 30 = wr := by
  have hfunc := funcOf_lt m
  have hbit : (strayCapture m ofs wr).toNat / 2 ^ 30 % 2 = wr.toNat := by
    have hle := wr.toNat_le
    rw [toNat_strayCapture]
    omega
  rw [bitOf, Nat.testBit_eq_decide_div_mod_eq, hbit]
  cases wr <;> rfl

theorem strayCapture_func (m ofs : Nat) (wr : Bool) : fld (strayCapture m ofs wr) 29 26 = funcOf m := by
  have hfunc := funcOf_lt m
  rw [fld, bits, toNat_strayCapture, Nat.shiftRight_eq_div_pow]
  omega

theorem strayCapture_offset (m ofs : Nat) (wr : Bool) : fld (strayCapture m ofs wr) 21 0 = ofs % 2 ^ 22 := by
  rw [fld, bits, toNat_strayCapture, Nat.shiftRight_eq_div_pow]
  omega

/-! ### A stray access by the state of V -/

theorem State.reg_count_strayCnt_strayAddr (s : State) : (s.count Reg.strayCnt).reg Reg.strayAddr = s.reg Reg.strayAddr :=
  State.reg_count_ne s _ _ _ (by decide)

/-- Counting the stray access does not touch V. -/
theorem State.stray_eq (s : State) (m ofs : Nat) (wr : Bool) :
    s.stray m ofs wr =
      if s.rb Reg.strayAddr 31 then s.count Reg.strayCnt
      else (s.count Reg.strayCnt).setReg Reg.strayAddr (strayCapture m ofs wr) := by
  have hV : (s.count Reg.strayCnt).rb Reg.strayAddr 31 = s.rb Reg.strayAddr 31 := by
    rw [State.rb, State.reg_count_strayCnt_strayAddr, State.rb]
  rw [← hV]
  rfl

/-- Later stray accesses only count. -/
theorem State.stray_of_captured (s : State) (m ofs : Nat) (wr : Bool) (h : s.rb Reg.strayAddr 31 = true) :
    s.stray m ofs wr = s.count Reg.strayCnt := by
  rw [State.stray_eq, if_pos h]

theorem State.stray_of_armed (s : State) (m ofs : Nat) (wr : Bool) (h : s.rb Reg.strayAddr 31 = false) :
    s.stray m ofs wr = (s.count Reg.strayCnt).setReg Reg.strayAddr (strayCapture m ofs wr) := by
  rw [State.stray_eq, if_neg (Bool.eq_false_iff.mp h)]

/-- The first stray access is captured. -/
theorem State.reg_stray_of_armed (s : State) (m ofs : Nat) (wr : Bool) (h : s.rb Reg.strayAddr 31 = false) :
    (s.stray m ofs wr).reg Reg.strayAddr = strayCapture m ofs wr := by
  rw [State.stray_of_armed s m ofs wr h, State.reg_setReg]

/-- A stray access counts as one event, whether it is captured or not. -/
theorem State.strayCnt_stray (s : State) (m ofs : Nat) (wr : Bool) :
    (s.stray m ofs wr).reg Reg.strayCnt = (s.count Reg.strayCnt).reg Reg.strayCnt := by
  rw [State.stray_eq]
  split
  · rfl
  · rw [State.reg_setReg_ne _ _ _ _ (by decide)]

/-- What the first stray access leaves in the fields of HALL_STRAY_ADDR, and in the counter. -/
theorem State.stray_captures (s : State) (m ofs : Nat) (wr : Bool) (h : s.rb Reg.strayAddr 31 = false) :
    (s.stray m ofs wr).rb Reg.strayAddr 31 = true ∧ (s.stray m ofs wr).rb Reg.strayAddr 30 = wr ∧
      (s.stray m ofs wr).rf Reg.strayAddr 29 26 = funcOf m ∧ (s.stray m ofs wr).rf Reg.strayAddr 21 0 = ofs % 2 ^ 22 ∧
      (s.stray m ofs wr).reg Reg.strayCnt = (s.count Reg.strayCnt).reg Reg.strayCnt := by
  simp only [State.rb, State.rf, State.reg_stray_of_armed s m ofs wr h]
  exact ⟨strayCapture_valid .., strayCapture_write .., strayCapture_func .., strayCapture_offset .., State.strayCnt_stray ..⟩

/-! ### Accesses that are stray (R574) -/

/-- A write with partial byte enables is a stray access. -/
theorem exec_registerWrite_of_partial {s : State} {m ofs be : Nat} (v : Word) (hrails : s.life.rails = true) (hofs : ofs < 0x400000)
    (halign : ofs % 4 = 0) (hreach : reaches s m ofs = true) (hbe : be ≠ 15) :
    exec (.registerWrite m ofs v be) s = .next (s.stray m ofs true) := by
  obtain ⟨hfunc, hentry, -⟩ := reaches_elim hreach
  have hexec : exec (.registerWrite m ofs v be) s = .next (if be = 15 then barWrite m ofs v s else s.access m ofs fun s => s.stray m ofs true) :=
    occur_of _ _ _ (by simp [hrails, hofs, halign])
  rw [hexec, if_neg hbe, State.access_of s m ofs _ hfunc hentry]

theorem plainRead_of_no_register {s : State} {ofs : Nat} (m : Nat) (hnone : findReg (regKey s ofs) = none) :
    plainRead m ofs s = (s.stray m ofs false).answer m 0 := by
  simp only [plainRead, hnone]

/-- The state in which a read that finds no register makes its stray access and returns 0. -/
def strayRead (m ofs : Nat) (s : State) : State := ((s.answer m 0).stray m ofs false).answer m 0

theorem barRead_of_no_register {s : State} {m ofs : Nat} (hfunc : funcMay (funcOf m) ofs = true) (hentry : s.mode = 0 → entryMay ofs = true)
    (hpath : s.pathFree ofs = true) (hofs : ofs < 0x200000) (hnone : findReg (regKey s ofs) = none) : barRead m ofs s = strayRead m ofs s := by
  have hwait : s.mustWait ofs false 0 = false := by rw [State.mustWait_read, hpath, Bool.not_true]
  have hnone' : findReg (regKey (s.answer m 0) ofs) = none := hnone
  rw [barRead, State.issue_of _ _ _ _ _ _ hwait, State.access_of (s.answer m 0) _ _ _ hfunc hentry, if_neg (by omega),
    plainRead_of_no_register m hnone', strayRead]

/-- The pop register of the alarm queue stands in the map, and behind no select register. -/
theorem findReg_regKey_alqW_ne_none (s : State) : findReg (regKey s (Reg.alqW 0)) ≠ none := by
  have hkey : regKey s (Reg.alqW 0) = Reg.alqW 0 := rfl
  rw [hkey]
  decide

theorem State.answer_regs (s : State) (m : Nat) (v : Word) : (s.answer m v).regs = s.regs := rfl

theorem State.resp_answer (s : State) (m : Nat) (v : Word) : mapGet 0 (s.answer m v).resp m = v := mapGet_mapSet_same _ _ _ _

/-- A read of an offset where no register stands is a stray access. -/
theorem exec_registerRead_of_no_register {s : State} {m ofs : Nat} (hrails : s.life.rails = true) (hofs : ofs < 0x80000)
    (halign : ofs % 4 = 0) (hreach : reaches s m ofs = true) (hnone : findReg (regKey s ofs) = none) :
    exec (.registerRead m ofs) s = .next (strayRead m ofs s) := by
  obtain ⟨hfunc, hentry, hpath⟩ := reaches_elim hreach
  have hpop : ofs ≠ Reg.alqW 0 := fun h => findReg_regKey_alqW_ne_none s (h ▸ hnone)
  have hexec : exec (.registerRead m ofs) s = execRegisterRead m ofs s := rfl
  rw [hexec, execRegisterRead, if_neg hpop, if_neg (by omega), occur_of _ _ _ (by simp [hrails, halign]; omega),
    barRead_of_no_register hfunc hentry hpath (by omega) hnone]

theorem strayRead_resp (m ofs : Nat) (s : State) : mapGet 0 (strayRead m ofs s).resp m = 0 := State.resp_answer _ _ _

/-- The second answer changes no register. -/
theorem strayRead_regs (m ofs : Nat) (s : State) : (strayRead m ofs s).regs = ((s.answer m 0).stray m ofs false).regs := State.answer_regs _ _ _

theorem State.rb_answer (s : State) (m o i : Nat) (v : Word) : (s.answer m v).rb o i = s.rb o i := State.rb_congr (State.answer_regs s m v) o i

theorem strayRead_captures (m ofs : Nat) (s : State) (h : s.rb Reg.strayAddr 31 = false) :
    (strayRead m ofs s).rb Reg.strayAddr 31 = true ∧ (strayRead m ofs s).rb Reg.strayAddr 30 = false ∧
      (strayRead m ofs s).rf Reg.strayAddr 21 0 = ofs % 2 ^ 22 := by
  obtain ⟨hvalid, hwrite, -, hoffset, -⟩ := State.stray_captures (s.answer m 0) m ofs false ((State.rb_answer ..).trans h)
  simp only [State.rb_congr (strayRead_regs m ofs s), State.rf_congr (strayRead_regs m ofs s)]
  exact ⟨hvalid, hwrite, hoffset⟩

/-- A stray read after the capture changes the counter alone. -/
theorem strayRead_reg_of_captured (m ofs : Nat) (s : State) (k : Nat) (h : s.rb Reg.strayAddr 31 = true) (hk : k ≠ Reg.strayCnt) :
    (strayRead m ofs s).reg k = s.reg k := by
  rw [State.reg_congr (strayRead_regs m ofs s), State.stray_of_captured _ _ _ _ ((State.rb_answer ..).trans h),
    State.reg_count_ne _ _ _ _ hk.symm, State.reg_congr (State.answer_regs s m 0)]

/-- Settles O60: a write with partial byte enables and a read that finds no register are each their stray access, and a stray access is captured or only counted by the state of V. -/
theorem strayAccessesAreCaptured : Obligations.StrayAccessesAreCaptured := by
  unfold Obligations.StrayAccessesAreCaptured
  refine ⟨?_, ?_, ?_, ?_, State.stray_of_captured, ?_⟩
  · intro s m ofs be v hrails hofs halign hreach hbe harmed
    obtain ⟨hvalid, hwrite, hfunc, hoffset, hcnt⟩ := State.stray_captures s m ofs true harmed
    refine ⟨_, exec_registerWrite_of_partial v hrails hofs halign hreach hbe, hvalid, hwrite,
      hoffset.trans (Nat.mod_eq_of_lt hofs), ?_, hcnt⟩
    rw [hfunc, Nat.mod_eq_of_lt (funcOf_lt m)]
  · intro s m ofs be v hrails hofs halign hreach hbe hcaptured
    rw [exec_registerWrite_of_partial v hrails hofs halign hreach hbe, State.stray_of_captured s m ofs true hcaptured]
  · intro s m ofs hrails hofs halign hreach hnone harmed
    obtain ⟨hvalid, hwrite, hoffset⟩ := strayRead_captures m ofs s harmed
    refine ⟨_, exec_registerRead_of_no_register hrails hofs halign hreach hnone, strayRead_resp m ofs s, hvalid, hwrite,
      hoffset.trans (Nat.mod_eq_of_lt (by omega))⟩
  · intro s m ofs hrails hofs halign hreach hnone hcaptured
    exact ⟨_, exec_registerRead_of_no_register hrails hofs halign hreach hnone, strayRead_resp m ofs s,
      strayRead_reg_of_captured m ofs s _ hcaptured (by decide), fun k hk => strayRead_reg_of_captured m ofs s k hcaptured hk⟩
  · intro s m ofs wr harmed
    obtain ⟨hvalid, hwrite, -, hoffset, hcnt⟩ := State.stray_captures s m ofs wr harmed
    exact ⟨_, rfl, hvalid, hwrite, hoffset, hcnt⟩

end Sys2Proof.Machine
end
